-- ==== Sys2Proof/Word.lean ====
section
/-!
DEFINITION. The word types of the block and the index types of its units (spec 00, *Coordinates*; 01, *Levels and
ownership*; the index ranges each chapter gives).
-/
namespace Sys2Proof

abbrev Byte := BitVec 8
abbrev Word := BitVec 32
abbrev DWord := BitVec 64

/-- Head ports 0 to 15 (R9). -/
abbrev Port := Fin 16
/-- Channels 0 to 3 (R9). -/
abbrev Chan := Fin 4
/-- Segments 0 to 127 of a channel (R9). -/
abbrev Seg := Fin 128
/-- Strobes 0 to 3 of a port (R251). -/
abbrev StrobeIx := Fin 4
/-- Bands (spokes) 0 to 15 of a channel (R11). -/
abbrev Band := Fin 16
/-- Device lanes 0 to 23 (R264). -/
abbrev Lane := Fin 24
/-- Fabric ports 0 to 3 (R283). -/
abbrev FabPort := Fin 4
/-- Pannier channels 0 to 15 (spec 04). -/
abbrev PnrCh := Fin 16
/-- DMA channels 0 to 7 (R355). -/
abbrev DmaCh := Fin 8
/-- CRC units 0 to 3 (R371). -/
abbrev CrcUnit := Fin 4
/-- Motion axes 0 to 7 (R391). -/
abbrev Axis := Fin 8
/-- SRAM groups 0 to 23 (spec 20, *Field BIST*). -/
abbrev BistGroup := Fin 24
/-- DIMM channels 0 to 1 (R314). -/
abbrev Dimm := Fin 2

end Sys2Proof
end

