-- ==== Sys2Proof/Syntax.lean ====
section
/-!
DEFINITION. The commands the block takes: one constructor of `Instr` per row of spec/opcode_table.json, in the
table's order. Every constructor's first operand `t` is the instant, in ps of device time, at which the command
reaches the block (log entry 2). A firmware or ridge command carries the message as a `Cmd`; a register event its
master and value; an event at a pin, lane or engine what the block sees there.
-/
namespace Sys2Proof

/-- The masters of R71. -/
inductive Master where
  | host | control | ridge | proxy | debug
deriving DecidableEq, Repr

/-- Master numbers of R71. -/
def Master.num : Master → Nat
  | .host => 1 | .control => 2 | .ridge => 3 | .proxy => 4 | .debug => 5

/-- The windows of the function through which a register access comes: BAR0, which every master's offsets use, or the host's BAR4 (R277). -/
inductive Bar where
  | bar0 | bar4
deriving DecidableEq, Repr

/-- Where a command message came from: channel 0, 3 or 8 (R93), or channel 4 for the ridge (R389). -/
inductive Queue where
  | q0 | q3 | q8 | ridge
deriving DecidableEq, Repr

/-- A command message whose check has verified (R90): queue, the remote member of a channel 8 command (else 0),
sequence, flags and the argument words 1 to LEN - 2. -/
structure Cmd where
  q : Queue
  member : Nat := 0
  seq : BitVec 8
  flags : BitVec 8 := 0
  args : List Word
deriving DecidableEq, Repr

/-- Word `n` of the message, for n from 1; a word beyond the message reads 0. -/
def Cmd.w (c : Cmd) (n : Nat) : Word := c.args.getD (n - 1) 0

/-- A fabric packet as received: START header bytes 1 to 7, payload and carried CRC-32C (R285). -/
structure Pkt where
  ty : BitVec 6
  cls : BitVec 2
  dest : Byte
  src : Byte
  ttl : Byte
  length : Byte
  tag : BitVec 16
  payload : List Byte
  crc : Word
deriving DecidableEq, Repr

/-- A 66-bit block of a lane (R236, R266): the two bits of its sync header, the first sent at the left, and its 64 payload bits, bit *i*
the one sent *i*-th; byte 0 is therefore the lowest. -/
structure Block where
  head : BitVec 2
  body : BitVec 64
deriving DecidableEq, Repr

/-- A DRAM read that a requester makes (R316, R318); a re-decoder's reads of requesters 0 to 3 have a class of their own. -/
structure ReadReq where
  req : Fin 8
  redecode : Bool
  addr : Nat
deriving DecidableEq, Repr

/-- Steps 1 to 4 of a lane's bring-up (R268): IDLE sent, PLL locked, CDR locked, equalisers adapted. -/
inductive BringUp where
  | idle | pll | cdr | adapted
deriving DecidableEq, Repr

/-- A lane passes a step of its bring-up. -/
structure LaneStep where
  lane : Lane
  step : BringUp
deriving DecidableEq, Repr

/-- Sync headers that a lane receives, up to 64 in a row, the first first (R267). -/
structure HeadWindow where
  lane : Lane
  heads : List (BitVec 2)
deriving DecidableEq, Repr

/-- Blocks as a lane carries them, and the 58 bits that came before (R266). -/
structure Received where
  before : BitVec 58
  blocks : List Block
deriving DecidableEq, Repr

/-- The far end of a fabric port as its ALIGN blocks name it (R283). -/
structure FarEnd where
  nid : Byte
  nport : BitVec 2
deriving DecidableEq, Repr

/-- An ALIGN pair: the ASEQ of its first block, the skew between the two lanes (R283, R284). -/
structure AlignPair where
  aseq : BitVec 16
  skewNs : Nat
deriving DecidableEq, Repr

/-- `SYSCLK` stands still from the instant `t`, for `outNs` (R46). -/
structure ClockGap where
  t : Nat
  outNs : Nat
deriving DecidableEq, Repr

/-- `SYSCLK` as measured over 1 ms, and for how long it then stays out of tolerance (R46). -/
structure ClockRate where
  khz : Nat
  outNs : Nat
deriving DecidableEq, Repr

/-- The level that a limit switch has kept for the debounce time, and the instants of the edges before it (R398). -/
structure SwitchLevel where
  level : Bool
  raw : List Nat
deriving DecidableEq, Repr

/-- Where an access of `len` bytes goes: BAR and offset (R72, R277, R278). -/
structure RegAccess where
  bar : Bar
  off : Nat
  len : Nat
deriving DecidableEq, Repr

/-- Levels of the eight rails in mV, in the order of R405's inputs 40 to 47. -/
structure Rails where
  vdd : Nat
  vddm : Nat
  vddl : Nat
  vddlh : Nat
  vddq : Nat
  vddio : Nat
  vdda : Nat
  vddrdg : Nat
deriving DecidableEq, Repr

/-- The strap levels of R37. -/
structure Straps where
  rootN : Bool
  i2ca : BitVec 3
  boot : BitVec 2
  testEn : Bool
deriving DecidableEq, Repr

/-- What the SPD of one DIMM reports (R311, R312): geometry 1 to 3 (0: no row of the table) and the speeds it supports, as
`DMC_CFG.SPEED` codes them: 1 to 3 for 4800, 5600 and 6400 MT/s. -/
structure Spd where
  geom : Nat
  speeds : List Nat
deriving DecidableEq, Repr

/-- What resets the PCIe endpoint (R280). -/
inductive PcieReset where
  | perst | flr | linkDown
deriving DecidableEq, Repr

/-- Which switch of an axis (R398). -/
inductive SwitchSide where
  | limn | limp
deriving DecidableEq, Repr

inductive Instr where
  /-- IDENTIFY (R101): Command that returns identity, versions, unique ID, member ID and boot status. -/
  | identify (t : Nat) (c : Cmd)
  /-- GET_STATE (R101): Command that returns the device state, job ID, current fire line and pending line. -/
  | getState (t : Nat) (c : Cmd)
  /-- SYS_RESET (R52): Command that posts its response and then schedules an orderly or hard full reset. -/
  | sysReset (t : Nat) (c : Cmd)
  /-- LOG_READ (R101): Command that copies boot log, error log or a flash range to a destination and returns its CRC-32C. -/
  | logRead (t : Nat) (c : Cmd)
  /-- UNLOCK (R108): Command that verifies a bring-up unlock token, widens host write access and optionally stores the token in flash. -/
  | unlock (t : Nat) (c : Cmd)
  /-- LIFECYCLE (R68): Command that verifies a signed token and programs a permitted life-cycle transition into OTP. -/
  | lifecycle (t : Nat) (c : Cmd)
  /-- EVENT_MASK (R96): Command that sets which event codes are suppressed. -/
  | eventMask (t : Nat) (c : Cmd)
  /-- IMG_WRITE (R102): Command that accepts an image chunk for programming into an inactive flash slot. -/
  | imgWrite (t : Nat) (c : Cmd)
  /-- IMG_WRITE_DONE (R60): Completion of an image chunk write; the slot is checked and, if valid, the selector is rewritten to name it. -/
  | imgWriteDone (t : Nat) (q : Queue)
  /-- IMG_INFO (R101): Command that returns the versions and validity of both slots of an image type and the running slot. -/
  | imgInfo (t : Nat) (c : Cmd)
  /-- BUNDLE_APPLY (R101): Command that starts applying a configuration bundle from flash. -/
  | bundleApply (t : Nat) (c : Cmd)
  /-- BUNDLE_APPLY_DONE (R95): Completion of a configuration bundle application, reported by COMMAND_DONE. -/
  | bundleApplyDone (t : Nat) (q : Queue)
  /-- CH_GEOMETRY (R468): Command that sets a channel's image columns, lookahead, drop code width and neighbours, making it configured. -/
  | chGeometry (t : Nat) (c : Cmd)
  /-- CH_SEGMENT (R11): Command that defines or deletes a segment's column range within its band. -/
  | chSegment (t : Nat) (c : Cmd)
  /-- TBL_LOAD (R198): Command that accepts a load of staged table entries into the inactive copy. -/
  | tblLoad (t : Nat) (c : Cmd)
  /-- TBL_LOAD_DONE (R105): Completion of a table load: entry rules tested, loaded copy CRC-checked, restored on failure. -/
  | tblLoadDone (t : Nat) (q : Queue)
  /-- TBL_COMMIT (R199): Command that checks inactive tables and chooses the image line at which they become active. -/
  | tblCommit (t : Nat) (c : Cmd)
  /-- TBL_COMMIT_EFFECT (R199): The image line of effect is reached and every hub of the channel switches to the new tables. -/
  | tblCommitEffect (t : Nat) (ch : Chan)
  /-- COPY_FORWARD_DONE (R200): The newly active tables have been copied into the inactive copy and COMMAND_DONE of the commit is posted. -/
  | copyForwardDone (t : Nat) (ch : Chan)
  /-- TBL_READ (R101): Command that starts copying entries of the active or inactive table copy to a destination. -/
  | tblRead (t : Nat) (c : Cmd)
  /-- TBL_READ_DONE (R95): Completion of a table read with its CRC-32C. -/
  | tblReadDone (t : Nat) (q : Queue)
  /-- JET_STATUS (R200): Command that sets the status of up to 8 jets in the inactive jet map. -/
  | jetStatus (t : Nat) (c : Cmd)
  /-- JOB_DEFINE (R469): Command that creates and loads a job with its channel mask, policy and low-runway threshold. -/
  | jobDefine (t : Nat) (c : Cmd)
  /-- JOB_POST (R116): Command that adds stream blocks, raw lines, library pages or an end mark to a segment and responds once written. -/
  | jobPost (t : Nat) (c : Cmd)
  /-- JOB_ARM (R245): Command that starts arming the job's ports after the arming checks. -/
  | jobArm (t : Nat) (c : Cmd)
  /-- JOB_ARM_DONE (R245): Arming completes when links, modules, temperature and cadence lock are ready, or times out after 2 s. -/
  | jobArmDone (t : Nat) (q : Queue)
  /-- JOB_START (R100): Command that sets the start fire line of an armed job, directly or by the next MARK0. -/
  | jobStart (t : Nat) (c : Cmd)
  /-- JOB_PAUSE (R100): Command that sets the fire line at which printing pauses. -/
  | jobPause (t : Nat) (c : Cmd)
  /-- JOB_RESUME (R221): Command that sets the resume fire line of a paused job. -/
  | jobResume (t : Nat) (c : Cmd)
  /-- JOB_ABORT (R469): Command that stops firing, unloads the job and frees its ring. -/
  | jobAbort (t : Nat) (c : Cmd)
  /-- JOB_DISARM (R98): Command that returns an armed device to READY and drops head power grants. -/
  | jobDisarm (t : Nat) (c : Cmd)
  /-- RUNWAY (R125): Command that returns a segment's runway and current page. -/
  | runway (t : Nat) (c : Cmd)
  /-- LIB_STORE (R123): Command that restarts, appends to or deletes a repeat library entry from staging. -/
  | libStore (t : Nat) (c : Cmd)
  /-- LIB_STORE_DONE (R105): Completion of a library store with its CRC check. -/
  | libStoreDone (t : Nat) (q : Queue)
  /-- JOB_RESTORE (R131): Command that starts restoring a job from its segments' snapshots. -/
  | jobRestore (t : Nat) (c : Cmd)
  /-- JOB_RESTORE_DONE (R131): Snapshots loaded and decoded forward to j_c, which COMMAND_DONE reports. -/
  | jobRestoreDone (t : Nat) (q : Queue)
  /-- CAD_CONFIG (R209): Command that selects the encoder, pitch, freewheel window and count direction. -/
  | cadConfig (t : Nat) (c : Cmd)
  /-- CAD_SPEED (R217): Command that sets warning period, horizon, slack and minimum fire period. -/
  | cadSpeed (t : Nat) (c : Cmd)
  /-- CAD_MARK (R224): Command that sets a segment's page length and print mark tracking parameters. -/
  | cadMark (t : Nat) (c : Cmd)
  /-- CAD_STATUS (R101): Command that returns position, line period and cadence status. -/
  | cadStatus (t : Nat) (c : Cmd)
  /-- HP_CONFIG (R234): Command that sets a head port's lane rate, modules, base offset and start-of-scan window. -/
  | hpConfig (t : Nat) (c : Cmd)
  /-- HP_ROWGROUP (R251): Command that sets a row group's offset, strobe and phase. -/
  | hpRowgroup (t : Nat) (c : Cmd)
  /-- HP_STROBE (R253): Command that sets a strobe's base width and the port's nominal supply. -/
  | hpStrobe (t : Nat) (c : Cmd)
  /-- HP_TEMPTABLE (R252): Command that starts loading a port's temperature factor table. -/
  | hpTemptable (t : Nat) (c : Cmd)
  /-- HP_TEMPTABLE_DONE (R252): Completion of a temperature table load, refused if temperatures do not strictly increase. -/
  | hpTemptableDone (t : Nat) (q : Queue)
  /-- HP_LINK (R244): Command that brings a head link up or down. -/
  | hpLink (t : Nat) (c : Cmd)
  /-- HP_LINK_DONE (R244): The link is up and modules have answered their CONFIG frames, or the wait times out. -/
  | hpLinkDone (t : Nat) (q : Queue)
  /-- LEDGER_CONFIG (R263): Command that sets the ledger ring and threshold and appends any overflow records. -/
  | ledgerConfig (t : Nat) (c : Cmd)
  /-- LEDGER_ADVANCE (R263): Command that advances the ledger read index and lets held records move into the ring. -/
  | ledgerAdvance (t : Nat) (c : Cmd)
  /-- CHAIN_DISCOVER (R294): Command that starts enumerating the chain from the root. -/
  | chainDiscover (t : Nat) (c : Cmd)
  /-- CHAIN_DISCOVER_DONE (R294): Discovery ends with IDs, routes and modes assigned, or with CONFLICT or NO_RESOURCE. -/
  | chainDiscoverDone (t : Nat) (q : Queue)
  /-- CHAIN_STATUS (R101): Command that returns a member's state, protocol version and hop latency. -/
  | chainStatus (t : Nat) (c : Cmd)
  /-- CHAIN_FORWARD (R103): Command that sends an inner command message to another member. -/
  | chainForward (t : Nat) (c : Cmd)
  /-- CHAIN_FORWARD_DONE (R103): The inner response or DONE arrives, or the forward times out. -/
  | chainForwardDone (t : Nat) (q : Queue)
  /-- CHAIN_CADENCE (R230): Command that makes the member cadence master or follower. -/
  | chainCadence (t : Nat) (c : Cmd)
  /-- CHAIN_EDGE (R185): Command that names a remote member as a channel's edge source on one side. -/
  | chainEdge (t : Nat) (c : Cmd)
  /-- CAL_SAVE (R417): Command that starts writing the calibration record to the backup region. -/
  | calSave (t : Nat) (c : Cmd)
  /-- CAL_SAVE_DONE (R417): Calibration record written; its CRC-32C is reported. -/
  | calSaveDone (t : Nat) (q : Queue)
  /-- CAL_RESTORE (R417): Command that starts restoring calibration from backup or staging area 0. -/
  | calRestore (t : Nat) (c : Cmd)
  /-- CAL_RESTORE_DONE (R417): The record is applied and committed, or the command ends with INTEGRITY or NO_RESOURCE. -/
  | calRestoreDone (t : Nat) (q : Queue)
  /-- CAL_RUN (R416): Command that starts path trim and delay line calibration. -/
  | calRun (t : Nat) (c : Cmd)
  /-- CAL_RUN_DONE (R416): Calibration results committed and COMMAND_DONE posted. -/
  | calRunDone (t : Nat) (q : Queue) (gains offsets medians : List Nat)
  /-- MOT_CONFIG (R392): Command that sets an axis's limits, hold level and standstill delay and configures it. -/
  | motConfig (t : Nat) (c : Cmd)
  /-- MOT_MOVE (R396): Command that starts a coordinated jerk-limited move of the axes in its mask. -/
  | motMove (t : Nat) (c : Cmd)
  /-- MOT_MOVE_DONE (R402): A move reaches its target and its COMMAND_DONE is posted. -/
  | motMoveDone (t : Nat) (q : Queue)
  /-- MOT_HOME (R401): Command that starts homing an axis against a switch. -/
  | motHome (t : Nat) (c : Cmd)
  /-- MOT_STOP (R403): Command that stops axes without deceleration and ends their commands. -/
  | motStop (t : Nat) (c : Cmd)
  /-- MOT_STATUS (R101): Command that returns an axis's position and state. -/
  | motStatus (t : Nat) (c : Cmd)
  /-- BIST_RUN (R422): Command that starts one slice on each instance of a group or all groups. -/
  | bistRun (t : Nat) (c : Cmd)
  /-- BIST_RUN_DONE (R422): All requested slices end and the result is reported. -/
  | bistRunDone (t : Nat) (q : Queue)
  /-- ERR_READ (R425): Command that writes a detector's context records and clears its host pending bit. -/
  | errRead (t : Nat) (c : Cmd)
  /-- ERR_INJECT (R427): Command that arms one injection for a detector. -/
  | errInject (t : Nat) (c : Cmd)
  /-- ERR_ROUTE (R425): Command that sets a detector's mask and route. -/
  | errRoute (t : Nat) (c : Cmd)
  /-- LANE_TEST (R273): Command that starts a PRBS and loopback test on a lane. -/
  | laneTest (t : Nat) (c : Cmd)
  /-- LANE_TEST_DONE (R273): The test duration ends, the lane is restored and the error count reported. -/
  | laneTestDone (t : Nat) (q : Queue) (present : Bool) (errors : List Nat)
  /-- MEM_MAP (R113): Command that returns the address and length of the DRAM region map. -/
  | memMap (t : Nat) (c : Cmd)
  /-- DMA_RUN (R355): Command that claims DMA channel 7, fences and walks the chain, and starts it. -/
  | dmaRun (t : Nat) (c : Cmd)
  /-- DMA_RUN_DONE (R369): Channel 7 completes or halts; the claim is released and COMMAND_DONE reports the chain status. -/
  | dmaRunDone (t : Nat) (q : Queue)
  /-- ECC_ERASURE (R350): Command that marks a DRAM device as an erasure. -/
  | eccErasure (t : Nat) (c : Cmd)
  /-- POISON_LIST (R340): Command that writes every poison table entry to a destination. -/
  | poisonList (t : Nat) (c : Cmd)
  /-- SCRUB_PERIOD (R345): Command that sets the scrub period. -/
  | scrubPeriod (t : Nat) (c : Cmd)
  /-- PMC_SELECT (R431): Command that selects a counter's event, instance and pair mode and clears it. -/
  | pmcSelect (t : Nat) (c : Cmd)
  /-- PMC_SNAPSHOT (R434): Command that takes a snapshot of all counters. -/
  | pmcSnapshot (t : Nat) (c : Cmd)
  /-- TRACE_SET (R437): Command that sets a channel's tracer sampling and loads its LFSR. -/
  | traceSet (t : Nat) (c : Cmd)
  /-- TRACE_READ (R439): Command that writes and frees finished tracer records. -/
  | traceRead (t : Nat) (c : Cmd)
  /-- RDG_IDENTIFY (R389): Ridge command that returns ridge version, protocol, lock and limit record CRC. -/
  | rdgIdentify (t : Nat) (c : Cmd)
  /-- RDG_STATUS (R389): Ridge command that returns safe state causes, grants and port trip and warn masks. -/
  | rdgStatus (t : Nat) (c : Cmd)
  /-- RDG_LIMITS (R379): Ridge command that verifies a signed limit record and locks the limits. -/
  | rdgLimits (t : Nat) (c : Cmd)
  /-- RDG_SAFE_ENTER (R386): Ridge command that enters the safe state with cause HOST. -/
  | rdgSafeEnter (t : Nat) (c : Cmd)
  /-- RDG_SAFE_RELEASE (R389): Ridge command that clears permitted cause bits and releases the safe state if none remain. -/
  | rdgSafeRelease (t : Nat) (c : Cmd)
  /-- RDG_PORT_CLEAR (R389): Ridge command that clears a port's trip and named watchdog faults. -/
  | rdgPortClear (t : Nat) (c : Cmd)
  /-- RDG_MAINT (R389): Ridge command that replaces port grants for maintenance power. -/
  | rdgMaint (t : Nat) (c : Cmd)
  /-- PNR_MSG_WRITE (R79): Sender write of a message word, ignored with WFULL while FULL. -/
  | pnrMsgWrite (t : Nat) (m : Master) (n : PnrCh) (i : Fin 16) (v : Word)
  /-- PNR_POST (R78): Write of PNR_CTRL with GO that posts the message and rings the receiver's bell. -/
  | pnrPost (t : Nat) (m : Master) (n : PnrCh) (len : BitVec 5)
  /-- PNR_CTRL_LEN_WRITE (R79): Write of PNR_CTRL without GO that stores LEN for the next post. -/
  | pnrCtrlLenWrite (t : Nat) (m : Master) (n : PnrCh) (len : BitVec 5)
  /-- PNR_TAKE (R80): Receiver read of TAKE that takes the message, clears FULL and rings the take bell. -/
  | pnrTake (t : Nat) (m : Master) (n : PnrCh)
  /-- PNR_LOCK_READ (R84): Read of a channel lock that acquires it when free or reports its owner. -/
  | pnrLockRead (t : Nat) (m : Master) (member : Byte) (n : PnrCh)
  /-- PNR_LOCK_RELEASE (R85): Owner write to a lock that releases it. -/
  | pnrLockRelease (t : Nat) (m : Master) (n : PnrCh) (owner : BitVec 3)
  /-- PNR_EPOCH_WRITE (R88): Receiver write of a new session epoch. -/
  | pnrEpochWrite (t : Nat) (m : Master) (n : PnrCh) (epoch : BitVec 16)
  /-- PNR_BIND_WRITE (R75): Write of a binding entry by master 2 or 3 before lock, or RLOCK by the ridge. -/
  | pnrBindWrite (t : Nat) (m : Master) (n : PnrCh) (v : Word)
  /-- PNR_BINDLOCK_SET (R75): Control core sets the binding table lock. -/
  | pnrBindlockSet (t : Nat) (m : Master)
  /-- PNR_BELL_CLEAR (R82): A master clears bits of its own bell register. -/
  | pnrBellClear (t : Nat) (m owner : Master) (v : Word)
  /-- PNR_BELLEN_WRITE (R83): A master writes its bell enables, raising an interrupt at once for set bells. -/
  | pnrBellenWrite (t : Nat) (m owner : Master) (v : Word)
  /-- JTAG_TAP_RESET (R87): The TAP enters Test-Logic-Reset, ending the debug session. -/
  | jtagTapReset (t : Nat)
  /-- CLAIM_WRITE (R39): Write to GLB_CLAIM0 or GLB_CLAIM1 judged field by field for claim, release or conflict. -/
  | claimWrite (t : Nat) (m : Master) (reg1 : Bool) (v : Word)
  /-- REGISTER_WRITE (R4): A write to a register without its own row takes effect by its access code and host write enable. -/
  | registerWrite (t : Nat) (m : Master) (a : RegAccess) (v : DWord)
  /-- REGISTER_READ_CLEAR (R4): A read of an RC field returns its value and clears it. -/
  | registerReadClear (t : Nat) (m : Master) (a : RegAccess)
  /-- CAD_POSLO_READ (R208): A read of CAD_POSLO captures P, H, Z position and F for the reading master. -/
  | cadPosloRead (t : Nat) (m : Master)
  /-- FAB_TIMELO_READ (R296): A read of FAB_TIMELO captures all 64 bits of chain time. -/
  | fabTimeloRead (t : Nat) (m : Master)
  /-- PMC_CNTLO_READ (R433): A read of PMC_CNTLO captures the whole counter for the reading master. -/
  | pmcCntloRead (t : Nat) (m : Master) (n : Fin 32)
  /-- SRAM_WINDOW_WRITE (R446): A write through a table window to the inactive copy of a channel table. -/
  | sramWindowWrite (t : Nat) (m : Master) (off : Nat) (v : Word)
  /-- BAR2_READ (R278): Host read of DRAM through BAR2. -/
  | bar2Read (t : Nat) (addr len : Nat)
  /-- BAR2_WRITE (R278): Host write of DRAM through BAR2, narrow writes by read-modify-write. -/
  | bar2Write (t : Nat) (addr : Nat) (bytes : List Byte)
  /-- POWER_ON (R49): Rails rise to power-good and the device holds full reset until they are all good. -/
  | powerOn (t : Nat) (rails : Rails)
  /-- BROWN_OUT (R452): A rail stays below its falling threshold, causing a hard full reset. -/
  | brownOut (t : Nat) (rail : Fin 8) (mv durNs : Nat)
  /-- RESET_N_ASSERT (R50): RESET_N held low at least 1 µs starts a hard full reset. -/
  | resetNAssert (t : Nat) (durNs : Nat)
  /-- RESET_BEGIN (R52): The reset after SYS_RESET begins when the response is taken or 1 ms after posting. -/
  | resetBegin (t : Nat)
  /-- ORDERLY_TIMEOUT (R54): Orderly steps not complete within 2 ms make the entry hard. -/
  | orderlyTimeout (t : Nat)
  /-- INTERNAL_RESET_RELEASE (R56): Internal reset is released: straps sampled and the boot ROM starts. -/
  | internalResetRelease (t : Nat) (straps : Straps)
  /-- BOOT_IMAGE_CHECK (R64): Boot ROM and ridge ROM verify images and compatibility, entering HELD on failure. -/
  | bootImageCheck (t : Nat) (flashResponds : Bool)
  /-- BOOT_COMPLETE (R98): Boot step 10 completes: DRAM trained, panniers bound and locked, state READY. -/
  | bootComplete (t : Nat) (spd0 spd1 : Option Spd) (trained : Bool)
  /-- SYSCLK_LOSS (R46): No SYSCLK edge for 1 µs: safe state and held hard reset. -/
  | sysclkLoss (gap : ClockGap)
  /-- SYSCLK_FREQ (R46): SYSCLK off frequency over a 1 ms window: safe state and held hard reset. -/
  | sysclkFreq (t : Nat) (m : ClockRate)
  /-- RIDGE_OSC (R46): Ridge oscillator out of range over 1 ms: hardware safe state and FAULT. -/
  | ridgeOsc (t : Nat) (khz : Nat)
  /-- PLL_UNLOCK (R46): A PLL loses lock: FAULT for core, DRAM or cadence PLL, lanes down for a lane PLL. -/
  | pllUnlock (t : Nat) (inst : Fin 6)
  /-- LANE_PLL_RELOCK (R265): A lane PLL relocks and its lanes repeat bring-up. -/
  | lanePllRelock (t : Nat) (rate : Fin 3)
  /-- ENCODER_COUNT (R203): An accepted quadrature change updates the position and the freewheel state. -/
  | encoderCount (t : Nat) (enc : Bool) (a b : Bool)
  /-- Z_EDGE (R206): A rising Z edge captures the position. -/
  | zEdge (t : Nat) (enc : Bool)
  /-- CADENCE_LOCK (R207): 1 ms without encoder fault declares the cadence unit locked. -/
  | cadenceLock (t : Nat)
  /-- STANDSTILL (R212): No count for the standstill time stops interpolation and prediction. -/
  | standstill (t : Nat)
  /-- LINE_START (R213): The effective position reaches a line's start: trigger, fired start, late fire or drop, and state changes due at that line. -/
  | lineStart (t : Nat)
  /-- LEDGER_RECORD_LIMIT (R262): A record open for 1 ms or at maximum count closes with LIMIT. -/
  | ledgerRecordLimit (t : Nat)
  /-- LEDGER_NEW_TIMER (R263): 10 ms after the first unannounced record, LEDGER_NEW is posted. -/
  | ledgerNewTimer (t : Nat)
  /-- STROBE_DUE (R251): A strobe falls due and rises if all firing conditions hold. -/
  | strobeDue (t : Nat) (p : Port) (k : StrobeIx)
  /-- STROBE_FALL (R252): A strobe's width elapses and it falls. -/
  | strobeFall (t : Nat) (p : Port) (k : StrobeIx)
  /-- STROBE_WATCHDOG (R256): A strobe high past the watchdog limit is cut and the fault latched. -/
  | strobeWatchdog (t : Nat) (p : Port) (k : StrobeIx)
  /-- WIDTH_COMPUTE (R254): Every 1 ms all strobe widths are recomputed and the ridge checks temperature. -/
  | widthCompute (t : Nat)
  /-- RIDGE_THETA_TIMEOUT (R382): No θ delivered for 5 ms trips the port. -/
  | ridgeThetaTimeout (t : Nat) (p : Port)
  /-- MARK_EDGE (R223): A print mark edge high for 40 ticks records its position and mark line. -/
  | markEdge (t : Nat) (mark1 : Bool)
  /-- BOUNDARY_FIX (R225): A segment's expected page boundary is fixed with or without an accepted mark. -/
  | boundaryFix (t : Nat) (ch : Chan) (s : Seg)
  /-- CADENCE_RECORD_SEND (R231): The cadence master broadcasts a cadence record. -/
  | cadenceRecordSend (t : Nat)
  /-- CADENCE_PACKET (R232): A follower receives a cadence record and updates its dead-reckoned position. -/
  | cadencePacket (t : Nat) (q : FabPort) (p : Pkt)
  /-- CAD_RECORD_LOST (R233): No cadence record for 8 µs holds the follower's position and pauses printing. -/
  | cadRecordLost (t : Nat)
  /-- LINE_DECODE_START (R158): A spoke begins decoding an image line of its band's segments. -/
  | lineDecodeStart (t : Nat) (ch : Chan) (b : Band)
  /-- BLOCK_FETCH (R160): A fetch burst of posted block bytes completes into a context's fetch buffer. -/
  | blockFetch (t : Nat) (ch : Chan) (s : Seg)
  /-- BLOCK_VERIFY (R164): A spoke reaches a block's end and compares its end check, or detects a fault. -/
  | blockVerify (t : Nat) (ch : Chan) (s : Seg)
  /-- DECODE_LATE (R163): A line's release deadline passes unreleased; the port blanks or halts. -/
  | decodeLate (t : Nat) (p : Port) (s : Seg) (y : Int)
  /-- REDECODE_DONE (R169): The re-decoder completes diagnosis of a faulted block and writes its record and states. -/
  | redecodeDone (t : Nat) (p : Port)
  /-- BFPOP (R169): Write that removes the oldest completed fault record and frees its slot. -/
  | bfpop (t : Nat) (m : Master) (ch : Chan) (v : Word)
  /-- COMPRESSOR_BLOCK (R172): A compressor engine finishes a block of a raw post and it is written to the ring. -/
  | compressorBlock (t : Nat)
  /-- EDGE_PACKET (R302): An EDGE packet of records for one image line arrives from a remote member. -/
  | edgePacket (t : Nat) (q : FabPort) (p : Pkt)
  /-- LINE_FRAME_SEND (R247): The port sends the LINE frame for a fire line when codes, window and previous strobes allow. -/
  | lineFrameSend (t : Nat) (p : Port)
  /-- SOS_EDGE (R248): An accepted start-of-scan edge is assigned to the awaiting frame or counted spurious. -/
  | sosEdge (t : Nat) (p : Port)
  /-- SOS_WINDOW_CLOSE (R249): The confirmation window of a frame closes; an unconfirmed line is ledgered NO_SOS. -/
  | sosWindowClose (t : Nat) (p : Port)
  /-- TELEMETRY_FRAME (R241): A TELEMETRY frame from the head end is received or discarded. -/
  | telemetryFrame (t : Nat) (p : Port) (r : Received)
  /-- HEAD_ALIGN_BLOCK (R242): An ALIGN block received on a head link updates its receive state. -/
  | headAlignBlock (t : Nat) (p : Port) (aseq : BitVec 16) (sender : Byte)
  /-- HEAD_LINK_DOWN (R250): The head link goes down and lines due are ledgered NO_SOS. -/
  | headLinkDown (t : Nat) (p : Port)
  /-- MODULE_LOST (R250): No status telemetry from a module for 10 ms. -/
  | moduleLost (t : Nat) (p : Port) (m : Fin 8)
  /-- LANE_BLOCK_LOCK (R267): A lane gains block lock after 64 valid sync headers. -/
  | laneBlockLock (t : Nat) (w : HeadWindow)
  /-- LANE_BLOCK_LOSS (R267): A lane loses block lock and restarts bring-up. -/
  | laneBlockLoss (t : Nat) (w : HeadWindow)
  /-- LANE_ENABLE (R268): A lane is enabled and runs its bring-up sequence. -/
  | laneEnable (t : Nat) (x : LaneStep)
  /-- LNS_INJ (R274): Write that injects a bit, burst or sync error on the next transmission. -/
  | lnsInj (t : Nat) (m : Master) (l : Lane) (v : Word)
  /-- PCIE_RESET (R280): PERST_N, function-level reset or link down resets the endpoint alone. -/
  | pcieReset (t : Nat) (kind : PcieReset)
  /-- PCIE_ERROR (R282): An AER correctable or uncorrectable error is logged and raised. -/
  | pcieError (t : Nat) (uncorrectable : Bool)
  /-- FABRIC_PORT_UP (R283): A fabric port comes up and reports a BREAK to the root. -/
  | fabricPortUp (t : Nat) (q : FabPort)
  /-- FABRIC_PORT_DOWN (R283): A fabric port goes down; routes fail over and a BREAK is reported. -/
  | fabricPortDown (t : Nat) (q : FabPort)
  /-- FABRIC_ALIGN (R309): An ALIGN pair on a fabric port updates the far end identity and kickstand flag. -/
  | fabricAlign (t : Nat) (q : FabPort) (far : FarEnd) (pair : AlignPair)
  /-- HALT_PACKET (R303): A HALT broadcast pauses the member at the chain line, or late. -/
  | haltPacket (t : Nat) (q : FabPort) (p : Pkt)
  /-- READ_REQ (R289): A TC1 read request is served from DRAM as READ_DATA packets. -/
  | readReq (t : Nat) (q : FabPort) (p : Pkt)
  /-- READ_DATA (R289): A TC1 read data packet delivers bytes to the requester. -/
  | readData (t : Nat) (q : FabPort) (p : Pkt)
  /-- TC1_TIMEOUT (R289): A TC1 read not complete within 2 ms ends as a bus error. -/
  | tc1Timeout (t : Nat) (tag : Nat)
  /-- PROXY_POST (R290): A PROXY POST is posted on channel 8 or queued, refused or deduplicated. -/
  | proxyPost (t : Nat) (q : FabPort) (p : Pkt)
  /-- PROXY_RESPONSE (R290): A PROXY RESPONSE delivers the target's response to the requester. -/
  | proxyResponse (t : Nat) (q : FabPort) (p : Pkt)
  /-- PROXY_LOCK_READ (R290): A PROXY LOCK_READ reads a lock as master 4 for the remote member. -/
  | proxyLockRead (t : Nat) (q : FabPort) (p : Pkt)
  /-- PROXY_LOCK_RELEASE (R290): A PROXY LOCK_RELEASE releases a lock for the remote member. -/
  | proxyLockRelease (t : Nat) (q : FabPort) (p : Pkt)
  /-- PROXY_LOCK_RESULT (R290): A PROXY LOCK_RESULT returns a lock value to the requester. -/
  | proxyLockResult (t : Nat) (q : FabPort) (p : Pkt)
  /-- PROXY_DONE (R290): A PROXY DONE returns an inner COMMAND_DONE to the requester. -/
  | proxyDone (t : Nat) (q : FabPort) (p : Pkt)
  /-- PROXY_RETRY (R290): An unanswered proxy operation is repeated after 1 ms, or an open E command every 1 s. -/
  | proxyRetry (t : Nat) (tag : Nat)
  /-- PROBE (R293): MGMT PROBE request or response during discovery. -/
  | probe (t : Nat) (q : FabPort) (p : Pkt)
  /-- ASSIGN (R293): MGMT ASSIGN gives a member its ID, mode, parent and lookahead. -/
  | assign (t : Nat) (q : FabPort) (p : Pkt)
  /-- ROUTE (R291): MGMT ROUTE writes routing table entries. -/
  | route (t : Nat) (q : FabPort) (p : Pkt)
  /-- HEARTBEAT (R306): MGMT HEARTBEAT from the root is answered with the member state. -/
  | heartbeat (t : Nat) (q : FabPort) (p : Pkt)
  /-- HEARTBEAT_SEND (R306): The root sends HEARTBEAT to every member every 1 ms. -/
  | heartbeatSend (t : Nat)
  /-- MEMBER_LOST (R306): A member silent for 3 ms, or 1 s after kickstand ends, is declared LOST. -/
  | memberLost (t : Nat) (id : Byte)
  /-- JOIN (R307): A member without ID sends JOIN every 10 ms; the root assigns an ID. -/
  | join (t : Nat) (q : FabPort) (p : Pkt)
  /-- LOST (R306): MGMT LOST broadcast makes every proxy end that member's sessions. -/
  | lost (t : Nat) (q : FabPort) (p : Pkt)
  /-- BREAK (R305): MGMT BREAK at the root triggers tree recomputation within 1 ms. -/
  | break (t : Nat) (q : FabPort) (p : Pkt)
  /-- TSYNC_SEND (R297): Every 16 µs a member starts a TSYNC exchange on each up port. -/
  | tsyncSend (t : Nat) (q : FabPort)
  /-- TSYNC (R298): A TSYNC request is answered, or a response yields delay and θ and adjusts chain time. -/
  | tsync (t : Nat) (q : FabPort) (p : Pkt)
  /-- DRAM_READ (R332): A scheduled DRAM read burst is decoded, corrected, poisoned or failed. -/
  | dramRead (t : Nat) (d : Dimm) (made : List ReadReq)
  /-- DRAM_WRITE (R319): A write burst enters the queue or stalls until an entry frees. -/
  | dramWrite (t : Nat) (req : Fin 8) (addr : Nat) (data : List Byte)
  /-- WRITE_DRAIN (R319): Queued writes drain to the DIMM at the watermark or with no read waiting. -/
  | writeDrain (t : Nat) (d : Dimm)
  /-- NARROW_WRITE (R341): A narrow write is merged or performed as read-modify-write. -/
  | narrowWrite (t : Nat) (req : Fin 8) (addr : Nat) (bytes : List Byte)
  /-- ROW_WINDOW_END (R324): A refresh window ends, resetting tracker counts and lowering throttle levels. -/
  | rowWindowEnd (t : Nat)
  /-- DRAM_REFRESH (R321): A same-bank or fallback all-bank refresh is issued for the refresh debt. -/
  | dramRefresh (t : Nat) (d : Dimm) (sub rank : Bool) (bank : Fin 4)
  /-- MR4_POLL (R321): Every 16 ms the controller reads MR4 for the refresh rate. -/
  | mr4Poll (t : Nat) (d : Dimm) (doubled : Bool)
  /-- DQS_REMEASURE (R326): A subchannel re-measures its DQS timing in a gap or after forcing one. -/
  | dqsRemeasure (t : Nat) (d : Dimm) (sub : Bool) (gap drifted : Bool)
  /-- DRAM_ALERT (R327): A command parity alert reissues recent commands; a second within 1 ms is FATAL. -/
  | dramAlert (t : Nat) (d : Dimm)
  /-- SCRUB_READ (R345): The scrubber reads the next burst and rewrites, poisons or counts. -/
  | scrubRead (t : Nat)
  /-- SCRUB_LATE (R348): The scrub period ends before the pass completes. -/
  | scrubLate (t : Nat)
  /-- DIAG_RAW_WRITE (R354): ECC_DIAGCTRL operation that queues 80 raw bytes for a burst. -/
  | diagRawWrite (t : Nat) (m : Master)
  /-- DIAG_RAW_READ (R354): ECC_DIAGCTRL operation that returns a burst's stored bytes without decoding. -/
  | diagRawRead (t : Nat) (m : Master)
  /-- DIAG_ENCODE (R354): ECC_DIAGCTRL operation that computes check bytes of the buffered data. -/
  | diagEncode (t : Nat) (m : Master)
  /-- DMA_START (R360): DMA_CTRL START begins a descriptor chain on an idle, halted or complete channel. -/
  | dmaStart (t : Nat) (m : Master) (n : DmaCh) (v : Word)
  /-- DMA_ABORT (R368): DMA_CTRL ABORT stops a channel at the next access boundary. -/
  | dmaAbort (t : Nat) (m : Master) (n : DmaCh) (v : Word)
  /-- DMA_RESUME (R368): DMA_CTRL RESUME continues a halted channel from its point of failure. -/
  | dmaResume (t : Nat) (m : Master) (n : DmaCh) (v : Word)
  /-- DMA_DESCRIPTOR (R360): A channel reads, checks and moves one descriptor, then continues, completes or halts. -/
  | dmaDescriptor (t : Nat) (n : DmaCh)
  /-- DMA_ACCESS_TIMEOUT (R366): A DMA access not complete within the timeout is retried or halts the channel. -/
  | dmaAccessTimeout (t : Nat) (n : DmaCh)
  /-- CRC_INIT (R372): CRC_CFG INIT loads the initial value and clears ERR and OVERRUN. -/
  | crcInit (t : Nat) (m : Master) (u : CrcUnit) (v : Word)
  /-- CRC_GO (R374): CRC_CFG GO starts a scan of a device address range. -/
  | crcGo (t : Nat) (m : Master) (u : CrcUnit) (v : Word)
  /-- CRC_SCAN_DONE (R374): A CRC scan completes or stops on a bus error. -/
  | crcScanDone (t : Nat) (u : CrcUnit)
  /-- CRC_DATA_FEED (R373): A write of CRC_DATA8, 16 or 32 feeds bytes into the unit. -/
  | crcDataFeed (t : Nat) (m : Master) (u : CrcUnit) (logBytes : Fin 3) (v : Word)
  /-- CRC_VAL_WRITE (R372): A write of VALLO or VALHI sets half of the CRC register. -/
  | crcValWrite (t : Nat) (m : Master) (u : CrcUnit) (hi : Bool) (v : Word)
  /-- TABLE_SCAN (R353): The periodic CRC scan of a table completes and is compared with its reference. -/
  | tableScan (t : Nat) (ch : Chan) (tab : Fin 4)
  /-- HEARTBEAT_KICK (R383): Write of RDG_KICK with the expected key restarts the heartbeat watchdog. -/
  | heartbeatKick (t : Nat) (m : Master) (key : Byte)
  /-- HEARTBEAT_EXPIRED (R384): The armed heartbeat watchdog expires and the safe state is entered. -/
  | heartbeatExpired (t : Nat)
  /-- HEARTBEAT_RESET_REQUEST (R384): 10 ms after expiry the ridge requests a hard full reset. -/
  | heartbeatResetRequest (t : Nat)
  /-- ESTOP (R385): ESTOP_N low for 200 ns enters the safe state in hardware. -/
  | estop (t : Nat) (lowNs : Nat)
  /-- SAFE_ENTER (R386): RDG_SAFE ENTER write by the ridge core sets a cause and enters the safe state. -/
  | safeEnter (t : Nat) (m : Master) (cause : BitVec 3)
  /-- SAFE_RELEASE (R388): RDG_SAFE RELEASE write ends the safe state if no cause stands. -/
  | safeRelease (t : Nat) (m : Master)
  /-- SAFE_RESETREQ (R50): RDG_SAFE RESETREQ write requests a full reset. -/
  | safeResetreq (t : Nat) (m : Master)
  /-- RDG_CAUSE_CLEAR (R388): Ridge write that clears cause bits as permitted. -/
  | rdgCauseClear (t : Nat) (m : Master) (v : Byte)
  /-- RDG_GRANT_WRITE (R377): Ridge write of GRANT bits that raise or drop HPEN of ports. -/
  | rdgGrantWrite (t : Nat) (m : Master) (v : BitVec 16)
  /-- WDFAULT_CLEAR (R257): Ridge write that clears a strobe watchdog fault while the generator is low. -/
  | wdfaultClear (t : Nat) (m : Master) (h : Fin 2) (v : Word)
  /-- MOTION_STEP (R395): The motion generator issues the next planned step of a moving axis. -/
  | motionStep (t : Nat) (a : Axis)
  /-- LIMIT_SWITCH_EDGE (R398): A debounced switch level change stops, homes or faults an axis. -/
  | limitSwitchEdge (t : Nat) (a : Axis) (side : SwitchSide) (level : SwitchLevel)
  /-- STANDSTILL_HOLD (R394): The standstill delay elapses and IREF drops to the hold level. -/
  | standstillHold (t : Nat) (a : Axis)
  /-- SENSE_CONVERSION (R405): An ADC slot converts an input or reference and updates filters and trims. -/
  | senseConversion (t : Nat) (slot : Fin 64) (code : BitVec 14)
  /-- DELAY_MEASURE (R411): A strobe delay line measurement runs in a gap and may update TAPS. -/
  | delayMeasure (t : Nat) (p : Port) (m : List Nat)
  /-- SENSE_COMMIT (R413): SNS_CTRL COMMIT requests shadows to be copied at the next line boundary. -/
  | senseCommit (t : Nat) (m : Master)
  /-- SENSE_COMMIT_APPLY (R414): At the line boundary or after 100 µs, shadows are copied to live fields. -/
  | senseCommitApply (t : Nat)
  /-- BIST_SLICE_START (R418): The schedule starts a slice: copying a live instance into the spare. -/
  | bistSliceStart (t : Nat) (g : BistGroup) (inst : Nat)
  /-- BIST_SLICE_SWAP (R418): At a line boundary the spare takes over or hands back an instance's role. -/
  | bistSliceSwap (t : Nat) (g : BistGroup)
  /-- BIST_MARCH_DONE (R421): The march of a freed instance ends; a failure retires it and writes repair. -/
  | bistMarchDone (t : Nat) (g : BistGroup) (fail : Option (Word × Fin 72))
  /-- ERR_CFG_CLR (R423): ERR_CFG CLR clears a detector's count and context records. -/
  | errCfgClr (t : Nat) (m : Master) (i : Fin 66)
  /-- PMC_SNAP (R434): PMC_CTRL SNAP write takes a counter snapshot. -/
  | pmcSnap (t : Nat) (m : Master)
  /-- PMC_USNAP (R435): Write of PMC_USNAP from the user page takes a snapshot. -/
  | pmcUsnap (t : Nat) (m : Master)
  /-- TRACE_ABANDON (R438): A tracer record not complete 10 ms after decode start is abandoned. -/
  | traceAbandon (t : Nat) (r : Fin 16)
  /-- CDR_LOCK_LOSS (R270): A lane whose CDR loses lock to the received signal restarts adaptation at bring-up step 3, whatever FREEZE holds. -/
  | cdrLockLoss (t : Nat) (l : Lane)
  /-- TABLE_SCAN_LATE (R375): A table scan not completed within its 100 ms bound, because CRC unit 3 could not be claimed, raises TABLE_SCAN_LATE. -/
  | tableScanLate (t : Nat) (ch : Chan) (tab : Fin 4)
deriving DecidableEq, Repr

end Sys2Proof
end

