-- ==== Sys2Proof/Decode.lean ====
section
/-!
DEFINITION. The command that a table word spells. Every row of spec/opcode_table.json has an empty list of fields and
so no bits: a command of this block reaches it as an access, a message, a packet or an event, whose operands no word
of the table carries. No word spells one.
-/
namespace Sys2Proof

/-- The command spelled by a word of `nbits` bits, over the rows that give bits: none does. -/
def decodeTableWord (nbits w : Nat) : Option Instr :=
  match nbits, w with
  | _, _ => none

end Sys2Proof
end

