-- ==== Sys2Proof/Config.lean ====
section
/-!
DEFINITION. What the spec leaves open: free values (opaque constants that no proof can evaluate, drawn with the
counter `State.freeCount`, log entry 5) and formats that the spec names without laying them out (log entry 8).
-/
namespace Sys2Proof.Config

/-- R51: a `RESET_N` pulse of 100 ns to 1 us may or may not cause a reset. -/
opaque resetPulseActs : Nat → Bool
/-- R385: an `ESTOP_N` low level of 50 ns to 200 ns may or may not act. -/
opaque estopActs : Nat → Bool
/-- R452: whether a dip below power-good of the open duration acts. -/
opaque brownOutActs : Nat → Bool
/-- A bit the spec leaves open. -/
opaque freeBit : Nat → Bool
/-- A 32-bit value the spec leaves open. -/
opaque freeWord : Nat → Word
/-- A byte the spec leaves open. -/
opaque freeByte : Nat → Byte
/-- A count the spec leaves open. -/
opaque freeNat : Nat → Nat
/-- the steps of a homing axis from the accepted edge of its home switch to rest, within what its limits allow (R401) -/
opaque freeDecel : Nat → Nat
/-- the 58 scrambler bits that what a lane sent before has left (R266) -/
opaque freeScrambler : Nat → BitVec 58
/-- Whether the board has a host link, and whether the host enables MSI-X when the link comes up for the nth time
(R35, R43, R83): the board's and the host's choice. -/
opaque hostAttached : Bool
opaque msixEnabled : Nat → Bool
/-- Negotiated link width, as the exponent of 1, 2, 4 or 8 lanes, and speed, 0 for 2.5 to 4 for 32.0 GT/s (R276). -/
opaque pcieWidth : Nat → Fin 4
opaque pcieSpeed : Nat → Fin 5
/-- What the host sets when it enumerates the function: place of a BAR in units of its size, payload and read request codes, timeout code
(ranges B and C or the default), ASPM L1 (R276, R277, R281; log entry 137). -/
opaque pcieBar : (draw bar : Nat) → Nat
opaque pciePayload : Nat → Fin 3
opaque pcieReadReq : Nat → Fin 6
opaque pcieTimeout : Nat → Fin 5
opaque pcieAspm : Nat → Bool
/-- How long the link takes to come up, and how long the host then takes to enumerate the function, in ps (R280; log entry 137). -/
opaque pcieTrain : Nat → Nat
opaque pcieEnumerate : Nat → Nat

/-- The scope that a bring-up unlock token grants (R108), or none if the token is not one that verifies for the
unique ID under the keys given (slot, hash, revoked): the spec does not lay the token out. -/
opaque unlockScope : (token : List Byte) → (uid : BitVec 64) → (keys : List (Nat × Bool)) → Option (BitVec 20)
/-- The target state code (R68) of a life-cycle token that verifies for the unique ID: the spec does not lay the
token out. -/
opaque lifecycleTarget : (token : List Byte) → (uid : BitVec 64) → Option (Fin 4)
/-- The items that a configuration bundle holds from its first byte: a command (opcode, argument words), or under opcode
0 the register writes (BAR0 offset, value) that R101 gives no command for; and its limit record if it carries one: the
spec does not lay the bundle out. -/
opaque bundleItems : (flash : List (Nat × Byte)) → (offset : Nat) → Option (List (Nat × List Word))
opaque bundleLimits : (flash : List (Nat × Byte)) → Option (List Byte)
/-- R421: whether the group's redundancy covers a failure at the word and bit, and the row and column it takes. -/
opaque repairFor : (group inst : Nat) → (addr : Word) → (bit : Nat) → Option (BitVec 11 × BitVec 7)

/-- R302: what a member named by `CHAIN_EDGE` answers at `JOB_ARM`: 0 in order, 1 to 3 the conditions of the table in
its order, and the decode reference of its port at the boundary. -/
opaque remoteEdge : (member channel n : Nat) → Fin 4
opaque remoteRef : (member channel n : Nat) → Option Nat
/-- R199: the lookahead of a channel of another member, of which no packet tells this one (log entry 79). -/
opaque remoteLookahead : (member channel : Nat) → Nat

/-- R294, R304: the delay of a link between two other members, in 1/16 ns, as the root knows it, by unique ID and port of
one end: no packet of the chapter carries it (log entry 30). -/
opaque linkDelay : (uid port : Nat) → Nat

/-- R174: the hash of four codes by which the compressor finds back-copy candidates; the spec does not lay it out (log entry 18). -/
opaque compressorHash : (a b c d : Nat) → Nat

/-- R173: the code lengths that the compressor forms from the counts of a block's 64 main and 32 distance symbols; the spec gives no
procedure for them. The model takes them only where they satisfy R148 and serve the block (log entry 18). -/
opaque compressorLengths : (counts : List Nat) → List Nat

end Sys2Proof.Config
end

