-- ==== Sys2Proof/Machine/Regs.lean ====
section
/-!
DEFINITION. The registers of the BAR0 space by name (spec 22, *Register index*) and their fields, as the register
tables of spec 02 to 22 lay them out. `RegKind` has one constructor per register table; an indexed register
is a `RegId` whose `i` and `j` are the indices its name carries, in order (CAD_MK: channel, segment; ECC_ERASE and
ECC_DEV: 2*c + r, then the device). `R.<register>_<FIELD>` is a field: the register, its lowest bit, its width.
-/
namespace Sys2Proof.Machine

/-- One constructor per register table of the spec. -/
inductive RegKind where
  | glbStrap
  | glbClaim0
  | glbClaim1
  | glbClaimerr
  | glbGpioDir
  | glbGpioOut
  | glbGpioIn
  | glbIdentity
  | glbUid0
  | glbUid1
  | glbBootstat
  | glbRstcause
  | pnrMsg
  | pnrCtrl
  | pnrStatus
  | pnrTake
  | pnrLock
  | pnrEpoch
  | pnrBind
  | pnrBindlock
  | pnrBell
  | pnrBellen
  | pnrViol
  | glbDevstate
  | glbHostacc
  | glbHostviol
  | chRunway
  | chDecmax
  | chStall
  | chDeclate
  | chBfstat
  | chBfrec0
  | chBfrec1
  | chBfrec2
  | chBfrec3
  | chBfrec4
  | chBfrec5
  | chBfpop
  | cmpCtrl
  | cmpStatus
  | cmpIn
  | cmpOut
  | chTblstat
  | chCommitlo
  | chCommithi
  | chColstat
  | chUncomp
  | chEdge
  | cadCtrl
  | cadPitch
  | cadStatus
  | cadPoslo
  | cadHwlo
  | cadZlo
  | cadHigh
  | cadFlo
  | cadFhi
  | cadShiftlo
  | cadShifthi
  | cadLineper
  | cadPredper
  | cadFirecfg
  | cadWarncfg
  | cadIllegal
  | cadLatedrop
  | cadMk
  | hptPcfg
  | hptPstat
  | hptBaseoff
  | hptRg
  | hptStrobe
  | hptVnom
  | hptSense
  | hptNosos
  | hptLinkerr
  | hptTt
  | hptWdfault
  | hptLdbase
  | hptLdsize
  | hptLdwr
  | hptLdrd
  | lnsCtrl
  | lnsStat
  | lnsTxeq
  | lnsPrbserr
  | lnsInj
  | lnsPciestat
  | fabId
  | fabState
  | fabLookahead
  | fabTimelo
  | fabTimehi
  | fabRate
  | fabTheta
  | fabPctrl
  | fabPstat
  | fabPdly
  | fabPerr
  | fabRoute
  | dmcCfg
  | dmcWq
  | dmcRhcfg
  | dmcThrottle
  | dmcRhstat
  | dmcRefstat
  | dmcTrainstat
  | eccCfg
  | eccCorr
  | eccUncorr
  | eccScrub
  | eccScrubpos
  | eccPoisonstat
  | eccTrkstat
  | eccErase
  | eccDiagctrl
  | eccDiagaddrlo
  | eccDiagaddrhi
  | eccDiagbuf
  | eccDev
  | dmaCtrl
  | dmaDesclo
  | dmaDeschi
  | dmaStat
  | dmaFaillo
  | dmaFailhi
  | dmaCount
  | dmaMaxdesc
  | dmaCrclo
  | dmaCrchi
  | dmaFence
  | dmaTimeout
  | crcCfg
  | crcStat
  | crcData8
  | crcData16
  | crcData32
  | crcVallo
  | crcValhi
  | crcReslo
  | crcReshi
  | crcScanlo
  | crcScanhi
  | crcScanlen
  | rdgStatus
  | rdgSafe
  | rdgCause
  | rdgHpen
  | rdgMoten
  | rdgHbcfg
  | rdgKick
  | rdgHbstat
  | rdgLock
  | rdgPortWidth
  | rdgPortTime
  | rdgPortTemp
  | rdgPstat
  | motAxCur
  | motAxVmax
  | motAxAmax
  | motAxJmax
  | motAxSw
  | motAxHome
  | motAxHomepos
  | motAxTravel
  | motAxPos
  | motAxStat
  | snsCtrl
  | snsStat
  | snsIn
  | snsTrim
  | snsDly
  | snsDietrim
  | snsPortcfg
  | snsThtab
  | bstCtrl
  | bstStat
  | bstRes0
  | bstRes1
  | bstRes2
  | bstRepair
  | errInjstat
  | errHostpend
  | errCfg
  | errCount
  | pmcCtrl
  | pmcAccess
  | pmcOvf
  | pmcTrcstat
  | pmcSel
  | pmcCntlo
  | pmcCnthi
  | pmcUsnap
  | pmcStimelo
  | pmcStimehi
  | pmcSnaplo
  | pmcSnaphi
  | glbWinsel
deriving DecidableEq, Repr

/-- A register: its kind and its indices (0 where its name has none). -/
structure RegId where
  k : RegKind
  i : Nat := 0
  j : Nat := 0
deriving DecidableEq, Repr

/-- A field of a register: lowest bit and width (the convention [msb:lsb] of spec 00). -/
structure Fld where
  k : RegKind
  lo : Nat
  w : Nat
deriving DecidableEq, Repr

namespace R
abbrev glbStrap_TEST : Fld := ⟨.glbStrap, 6, 1⟩
abbrev glbStrap_BOOT : Fld := ⟨.glbStrap, 4, 2⟩
abbrev glbStrap_I2CA : Fld := ⟨.glbStrap, 1, 3⟩
abbrev glbStrap_ROOT_N : Fld := ⟨.glbStrap, 0, 1⟩
abbrev glbClaim0_G5 : Fld := ⟨.glbClaim0, 20, 4⟩
abbrev glbClaim0_G4 : Fld := ⟨.glbClaim0, 16, 4⟩
abbrev glbClaim0_G3 : Fld := ⟨.glbClaim0, 12, 4⟩
abbrev glbClaim0_G2 : Fld := ⟨.glbClaim0, 8, 4⟩
abbrev glbClaim0_G1 : Fld := ⟨.glbClaim0, 4, 4⟩
abbrev glbClaim0_G0 : Fld := ⟨.glbClaim0, 0, 4⟩
abbrev glbClaim1_PMC1 : Fld := ⟨.glbClaim1, 16, 4⟩
abbrev glbClaim1_PMC0 : Fld := ⟨.glbClaim1, 12, 4⟩
abbrev glbClaim1_TRACER : Fld := ⟨.glbClaim1, 8, 4⟩
abbrev glbClaim1_DMA7 : Fld := ⟨.glbClaim1, 4, 4⟩
abbrev glbClaim1_CRC3 : Fld := ⟨.glbClaim1, 0, 4⟩
abbrev glbClaimerr_COUNT : Fld := ⟨.glbClaimerr, 16, 8⟩
abbrev glbClaimerr_REQ : Fld := ⟨.glbClaimerr, 12, 4⟩
abbrev glbClaimerr_OWNER : Fld := ⟨.glbClaimerr, 8, 4⟩
abbrev glbClaimerr_ITEM : Fld := ⟨.glbClaimerr, 5, 3⟩
abbrev glbClaimerr_REG : Fld := ⟨.glbClaimerr, 4, 1⟩
abbrev glbClaimerr_MASTER : Fld := ⟨.glbClaimerr, 1, 3⟩
abbrev glbClaimerr_VALID : Fld := ⟨.glbClaimerr, 0, 1⟩
abbrev glbGpioDir_DIR : Fld := ⟨.glbGpioDir, 0, 24⟩
abbrev glbGpioOut_OUT : Fld := ⟨.glbGpioOut, 0, 24⟩
abbrev glbGpioIn_IN : Fld := ⟨.glbGpioIn, 0, 24⟩
abbrev glbIdentity_PART : Fld := ⟨.glbIdentity, 16, 16⟩
abbrev glbIdentity_REV : Fld := ⟨.glbIdentity, 8, 8⟩
abbrev glbIdentity_FAMILY : Fld := ⟨.glbIdentity, 0, 8⟩
abbrev glbUid0_UID_LO : Fld := ⟨.glbUid0, 0, 32⟩
abbrev glbUid1_UID_HI : Fld := ⟨.glbUid1, 0, 32⟩
abbrev glbBootstat_HELDCAUSE : Fld := ⟨.glbBootstat, 20, 4⟩
abbrev glbBootstat_PHASE : Fld := ⟨.glbBootstat, 16, 4⟩
abbrev glbBootstat_LC : Fld := ⟨.glbBootstat, 14, 2⟩
abbrev glbBootstat_IDKEY : Fld := ⟨.glbBootstat, 13, 1⟩
abbrev glbBootstat_CSLOT : Fld := ⟨.glbBootstat, 12, 1⟩
abbrev glbBootstat_RSLOT : Fld := ⟨.glbBootstat, 11, 1⟩
abbrev glbBootstat_DRAMKEPT : Fld := ⟨.glbBootstat, 10, 1⟩
abbrev glbRstcause_COUNT : Fld := ⟨.glbRstcause, 24, 8⟩
abbrev glbRstcause_BROWNOUT : Fld := ⟨.glbRstcause, 7, 1⟩
abbrev glbRstcause_ORDTIMEOUT : Fld := ⟨.glbRstcause, 6, 1⟩
abbrev glbRstcause_ORDERLY : Fld := ⟨.glbRstcause, 5, 1⟩
abbrev glbRstcause_RIDGE : Fld := ⟨.glbRstcause, 4, 1⟩
abbrev glbRstcause_SYSRESET : Fld := ⟨.glbRstcause, 3, 1⟩
abbrev glbRstcause_RESETPIN : Fld := ⟨.glbRstcause, 2, 1⟩
abbrev glbRstcause_POR : Fld := ⟨.glbRstcause, 1, 1⟩
abbrev pnrMsg_WORD : Fld := ⟨.pnrMsg, 0, 32⟩
abbrev pnrCtrl_GO : Fld := ⟨.pnrCtrl, 31, 1⟩
abbrev pnrCtrl_LEN : Fld := ⟨.pnrCtrl, 0, 5⟩
abbrev pnrStatus_PSEQ : Fld := ⟨.pnrStatus, 8, 8⟩
abbrev pnrStatus_STALE : Fld := ⟨.pnrStatus, 2, 1⟩
abbrev pnrStatus_WFULL : Fld := ⟨.pnrStatus, 1, 1⟩
abbrev pnrStatus_FULL : Fld := ⟨.pnrStatus, 0, 1⟩
abbrev pnrTake_SEQ : Fld := ⟨.pnrTake, 16, 8⟩
abbrev pnrTake_LEN : Fld := ⟨.pnrTake, 8, 5⟩
abbrev pnrTake_STALE : Fld := ⟨.pnrTake, 1, 1⟩
abbrev pnrTake_VALID : Fld := ⟨.pnrTake, 0, 1⟩
abbrev pnrLock_MEMBER : Fld := ⟨.pnrLock, 8, 8⟩
abbrev pnrLock_OWNER : Fld := ⟨.pnrLock, 0, 3⟩
abbrev pnrEpoch_STAMP : Fld := ⟨.pnrEpoch, 16, 16⟩
abbrev pnrEpoch_EPOCH : Fld := ⟨.pnrEpoch, 0, 16⟩
abbrev pnrBind_RLOCK : Fld := ⟨.pnrBind, 31, 1⟩
abbrev pnrBind_RECV : Fld := ⟨.pnrBind, 4, 3⟩
abbrev pnrBind_SEND : Fld := ⟨.pnrBind, 0, 3⟩
abbrev pnrBindlock_LOCK : Fld := ⟨.pnrBindlock, 0, 1⟩
abbrev pnrBell_TAKEB : Fld := ⟨.pnrBell, 16, 16⟩
abbrev pnrBell_POSTB : Fld := ⟨.pnrBell, 0, 16⟩
abbrev pnrBellen_EN : Fld := ⟨.pnrBellen, 0, 32⟩
abbrev pnrViol_COUNT : Fld := ⟨.pnrViol, 24, 8⟩
abbrev pnrViol_OFFSET : Fld := ⟨.pnrViol, 8, 8⟩
abbrev pnrViol_CHANNEL : Fld := ⟨.pnrViol, 4, 4⟩
abbrev pnrViol_MASTER : Fld := ⟨.pnrViol, 1, 3⟩
abbrev pnrViol_VALID : Fld := ⟨.pnrViol, 0, 1⟩
abbrev glbDevstate_JOB : Fld := ⟨.glbDevstate, 16, 16⟩
abbrev glbDevstate_STATE : Fld := ⟨.glbDevstate, 0, 3⟩
abbrev glbHostacc_UNLOCKED : Fld := ⟨.glbHostacc, 31, 1⟩
abbrev glbHostacc_WEN : Fld := ⟨.glbHostacc, 0, 20⟩
abbrev glbHostviol_COUNT : Fld := ⟨.glbHostviol, 24, 8⟩
abbrev glbHostviol_OFFSET : Fld := ⟨.glbHostviol, 1, 23⟩
abbrev glbHostviol_VALID : Fld := ⟨.glbHostviol, 0, 1⟩
abbrev chRunway_STATE : Fld := ⟨.chRunway, 28, 4⟩
abbrev chRunway_RUNWAY : Fld := ⟨.chRunway, 0, 28⟩
abbrev chDecmax_CLR : Fld := ⟨.chDecmax, 31, 1⟩
abbrev chDecmax_MAXCYC : Fld := ⟨.chDecmax, 0, 16⟩
abbrev chStall_CYCLES : Fld := ⟨.chStall, 0, 32⟩
abbrev chDeclate_LINES : Fld := ⟨.chDeclate, 0, 32⟩
abbrev chBfstat_LOST : Fld := ⟨.chBfstat, 24, 8⟩
abbrev chBfstat_FAULTS : Fld := ⟨.chBfstat, 16, 8⟩
abbrev chBfstat_BUSY : Fld := ⟨.chBfstat, 8, 1⟩
abbrev chBfstat_PENDING : Fld := ⟨.chBfstat, 0, 5⟩
abbrev chBfrec0_NAME : Fld := ⟨.chBfrec0, 28, 4⟩
abbrev chBfrec0_SEGMENT : Fld := ⟨.chBfrec0, 16, 7⟩
abbrev chBfrec0_SLOT : Fld := ⟨.chBfrec0, 12, 4⟩
abbrev chBfrec0_VALID : Fld := ⟨.chBfrec0, 0, 1⟩
abbrev chBfrec1_PAGE : Fld := ⟨.chBfrec1, 0, 32⟩
abbrev chBfrec2_BITPOS : Fld := ⟨.chBfrec2, 0, 32⟩
abbrev chBfrec3_ADDR_LO : Fld := ⟨.chBfrec3, 0, 32⟩
abbrev chBfrec4_ADDR_HI : Fld := ⟨.chBfrec4, 0, 8⟩
abbrev chBfrec5_LINE : Fld := ⟨.chBfrec5, 0, 24⟩
abbrev chBfpop_POP : Fld := ⟨.chBfpop, 0, 1⟩
abbrev cmpCtrl_MODE : Fld := ⟨.cmpCtrl, 0, 2⟩
abbrev cmpStatus_QUEUED : Fld := ⟨.cmpStatus, 8, 8⟩
abbrev cmpStatus_ACTIVE : Fld := ⟨.cmpStatus, 0, 5⟩
abbrev cmpIn_KIB : Fld := ⟨.cmpIn, 0, 32⟩
abbrev cmpOut_KIB : Fld := ⟨.cmpOut, 0, 32⟩
abbrev chTblstat_PENDING : Fld := ⟨.chTblstat, 31, 1⟩
abbrev chTblstat_ACTIVE : Fld := ⟨.chTblstat, 0, 4⟩
abbrev chCommitlo_LINE_LO : Fld := ⟨.chCommitlo, 0, 32⟩
abbrev chCommithi_LINE_HI : Fld := ⟨.chCommithi, 0, 32⟩
abbrev chColstat_UNCOMPCOL : Fld := ⟨.chColstat, 16, 16⟩
abbrev chColstat_DEADCOL : Fld := ⟨.chColstat, 0, 16⟩
abbrev chUncomp_LOST : Fld := ⟨.chUncomp, 0, 32⟩
abbrev chEdge_RIN : Fld := ⟨.chEdge, 31, 1⟩
abbrev chEdge_ROUT : Fld := ⟨.chEdge, 30, 1⟩
abbrev chEdge_RKIND : Fld := ⟨.chEdge, 28, 2⟩
abbrev chEdge_RSKEW : Fld := ⟨.chEdge, 16, 11⟩
abbrev chEdge_LIN : Fld := ⟨.chEdge, 15, 1⟩
abbrev chEdge_LOUT : Fld := ⟨.chEdge, 14, 1⟩
abbrev chEdge_LKIND : Fld := ⟨.chEdge, 12, 2⟩
abbrev chEdge_LSKEW : Fld := ⟨.chEdge, 0, 11⟩
abbrev cadCtrl_ROLE : Fld := ⟨.cadCtrl, 6, 2⟩
abbrev cadCtrl_FWWIN : Fld := ⟨.cadCtrl, 2, 4⟩
abbrev cadCtrl_INV : Fld := ⟨.cadCtrl, 1, 1⟩
abbrev cadCtrl_ENC : Fld := ⟨.cadCtrl, 0, 1⟩
abbrev cadPitch_K : Fld := ⟨.cadPitch, 0, 32⟩
abbrev cadStatus_RECORDS : Fld := ⟨.cadStatus, 6, 1⟩
abbrev cadStatus_DIR : Fld := ⟨.cadStatus, 5, 1⟩
abbrev cadStatus_STILL : Fld := ⟨.cadStatus, 4, 1⟩
abbrev cadStatus_WARN : Fld := ⟨.cadStatus, 3, 1⟩
abbrev cadStatus_FWSTATE : Fld := ⟨.cadStatus, 1, 2⟩
abbrev cadStatus_LOCKED : Fld := ⟨.cadStatus, 0, 1⟩
abbrev cadPoslo_P : Fld := ⟨.cadPoslo, 0, 32⟩
abbrev cadHwlo_H : Fld := ⟨.cadHwlo, 0, 32⟩
abbrev cadZlo_Z : Fld := ⟨.cadZlo, 0, 32⟩
abbrev cadHigh_ZHI : Fld := ⟨.cadHigh, 16, 8⟩
abbrev cadHigh_HHI : Fld := ⟨.cadHigh, 8, 8⟩
abbrev cadHigh_PHI : Fld := ⟨.cadHigh, 0, 8⟩
abbrev cadFlo_F : Fld := ⟨.cadFlo, 0, 32⟩
abbrev cadFhi_F : Fld := ⟨.cadFhi, 0, 32⟩
abbrev cadShiftlo_S : Fld := ⟨.cadShiftlo, 0, 32⟩
abbrev cadShifthi_S : Fld := ⟨.cadShifthi, 0, 32⟩
abbrev cadLineper_TN : Fld := ⟨.cadLineper, 0, 32⟩
abbrev cadPredper_TP : Fld := ⟨.cadPredper, 0, 32⟩
abbrev cadFirecfg_SLACK : Fld := ⟨.cadFirecfg, 16, 9⟩
abbrev cadFirecfg_MINPER : Fld := ⟨.cadFirecfg, 0, 16⟩
abbrev cadWarncfg_HORIZON : Fld := ⟨.cadWarncfg, 22, 10⟩
abbrev cadWarncfg_WARNPER : Fld := ⟨.cadWarncfg, 0, 20⟩
abbrev cadIllegal_COUNT : Fld := ⟨.cadIllegal, 0, 32⟩
abbrev cadLatedrop_DROP : Fld := ⟨.cadLatedrop, 16, 16⟩
abbrev cadLatedrop_LATE : Fld := ⟨.cadLatedrop, 0, 16⟩
abbrev cadMk_MISS : Fld := ⟨.cadMk, 24, 8⟩
abbrev cadMk_LOST : Fld := ⟨.cadMk, 23, 1⟩
abbrev cadMk_ACCEPT : Fld := ⟨.cadMk, 22, 1⟩
abbrev cadMk_DUP : Fld := ⟨.cadMk, 18, 4⟩
abbrev cadMk_DELTA : Fld := ⟨.cadMk, 9, 9⟩
abbrev hptPcfg_SOSWIN : Fld := ⟨.hptPcfg, 16, 16⟩
abbrev hptPcfg_MODULES : Fld := ⟨.hptPcfg, 8, 4⟩
abbrev hptPcfg_RATE : Fld := ⟨.hptPcfg, 4, 2⟩
abbrev hptPcfg_UP : Fld := ⟨.hptPcfg, 0, 1⟩
abbrev hptPstat_MODANS : Fld := ⟨.hptPstat, 24, 8⟩
abbrev hptPstat_VRANGE : Fld := ⟨.hptPstat, 5, 1⟩
abbrev hptPstat_TEMPINV : Fld := ⟨.hptPstat, 4, 1⟩
abbrev hptPstat_TEMPSRC : Fld := ⟨.hptPstat, 3, 1⟩
abbrev hptPstat_HPEN : Fld := ⟨.hptPstat, 2, 1⟩
abbrev hptPstat_ARMED : Fld := ⟨.hptPstat, 1, 1⟩
abbrev hptPstat_LINKUP : Fld := ⟨.hptPstat, 0, 1⟩
abbrev hptBaseoff_BASE : Fld := ⟨.hptBaseoff, 0, 17⟩
abbrev hptRg_INUSE : Fld := ⟨.hptRg, 31, 1⟩
abbrev hptRg_PHASE : Fld := ⟨.hptRg, 16, 10⟩
abbrev hptRg_STROBE : Fld := ⟨.hptRg, 8, 2⟩
abbrev hptRg_CONF : Fld := ⟨.hptRg, 7, 1⟩
abbrev hptRg_OFFSET : Fld := ⟨.hptRg, 0, 6⟩
abbrev hptStrobe_WIDTH : Fld := ⟨.hptStrobe, 16, 14⟩
abbrev hptStrobe_W0 : Fld := ⟨.hptStrobe, 0, 14⟩
abbrev hptVnom_V0 : Fld := ⟨.hptVnom, 0, 16⟩
abbrev hptSense_V : Fld := ⟨.hptSense, 16, 16⟩
abbrev hptSense_THETA : Fld := ⟨.hptSense, 0, 16⟩
abbrev hptNosos_LINES : Fld := ⟨.hptNosos, 0, 32⟩
abbrev hptLinkerr_SPURIOUS : Fld := ⟨.hptLinkerr, 24, 8⟩
abbrev hptLinkerr_EARLY : Fld := ⟨.hptLinkerr, 16, 8⟩
abbrev hptLinkerr_BLOCKERR : Fld := ⟨.hptLinkerr, 8, 8⟩
abbrev hptLinkerr_FRAMEERR : Fld := ⟨.hptLinkerr, 0, 8⟩
abbrev hptTt_FACT : Fld := ⟨.hptTt, 16, 16⟩
abbrev hptTt_TEMP : Fld := ⟨.hptTt, 0, 16⟩
abbrev hptWdfault_FAULT : Fld := ⟨.hptWdfault, 0, 32⟩
abbrev hptLdbase_ADDR : Fld := ⟨.hptLdbase, 5, 27⟩
abbrev hptLdsize_FULL : Fld := ⟨.hptLdsize, 31, 1⟩
abbrev hptLdsize_PENDING : Fld := ⟨.hptLdsize, 24, 7⟩
abbrev hptLdsize_SIZE : Fld := ⟨.hptLdsize, 0, 21⟩
abbrev hptLdwr_WR : Fld := ⟨.hptLdwr, 0, 21⟩
abbrev hptLdrd_RD : Fld := ⟨.hptLdrd, 0, 21⟩
abbrev lnsCtrl_FREEZE : Fld := ⟨.lnsCtrl, 8, 1⟩
abbrev lnsCtrl_LOOP : Fld := ⟨.lnsCtrl, 6, 2⟩
abbrev lnsCtrl_CHKEN : Fld := ⟨.lnsCtrl, 5, 1⟩
abbrev lnsCtrl_GENEN : Fld := ⟨.lnsCtrl, 4, 1⟩
abbrev lnsCtrl_PATTERN : Fld := ⟨.lnsCtrl, 1, 3⟩
abbrev lnsStat_LOSSES : Fld := ⟨.lnsStat, 16, 16⟩
abbrev lnsStat_PRBSLOCK : Fld := ⟨.lnsStat, 4, 1⟩
abbrev lnsStat_LOCK : Fld := ⟨.lnsStat, 3, 1⟩
abbrev lnsStat_ADAPTED : Fld := ⟨.lnsStat, 2, 1⟩
abbrev lnsStat_CDR : Fld := ⟨.lnsStat, 1, 1⟩
abbrev lnsStat_PLL : Fld := ⟨.lnsStat, 0, 1⟩
abbrev lnsTxeq_POST : Fld := ⟨.lnsTxeq, 16, 5⟩
abbrev lnsTxeq_MAIN : Fld := ⟨.lnsTxeq, 8, 6⟩
abbrev lnsTxeq_PRE : Fld := ⟨.lnsTxeq, 0, 4⟩
abbrev lnsPrbserr_ERRORS : Fld := ⟨.lnsPrbserr, 0, 32⟩
abbrev lnsInj_LEN : Fld := ⟨.lnsInj, 8, 6⟩
abbrev lnsInj_KIND : Fld := ⟨.lnsInj, 0, 2⟩
abbrev lnsPciestat_FLRS : Fld := ⟨.lnsPciestat, 24, 8⟩
abbrev lnsPciestat_DOWNS : Fld := ⟨.lnsPciestat, 16, 8⟩
abbrev lnsPciestat_WIDTH : Fld := ⟨.lnsPciestat, 4, 4⟩
abbrev lnsPciestat_SPEED : Fld := ⟨.lnsPciestat, 1, 3⟩
abbrev lnsPciestat_UP : Fld := ⟨.lnsPciestat, 0, 1⟩
abbrev fabId_ROOT : Fld := ⟨.fabId, 16, 8⟩
abbrev fabId_ID : Fld := ⟨.fabId, 0, 8⟩
abbrev fabState_MINOR : Fld := ⟨.fabState, 16, 16⟩
abbrev fabState_HOLD : Fld := ⟨.fabState, 5, 1⟩
abbrev fabState_SYNCED : Fld := ⟨.fabState, 4, 1⟩
abbrev fabState_MODE : Fld := ⟨.fabState, 0, 3⟩
abbrev fabLookahead_NS : Fld := ⟨.fabLookahead, 0, 18⟩
abbrev fabTimelo_T : Fld := ⟨.fabTimelo, 0, 32⟩
abbrev fabTimehi_T : Fld := ⟨.fabTimehi, 0, 32⟩
abbrev fabRate_RHO : Fld := ⟨.fabRate, 0, 32⟩
abbrev fabTheta_THETA : Fld := ⟨.fabTheta, 0, 32⟩
abbrev fabPctrl_RATE : Fld := ⟨.fabPctrl, 4, 2⟩
abbrev fabPctrl_EN : Fld := ⟨.fabPctrl, 0, 1⟩
abbrev fabPstat_NPORT : Fld := ⟨.fabPstat, 24, 2⟩
abbrev fabPstat_NID : Fld := ⟨.fabPstat, 16, 8⟩
abbrev fabPstat_ROLE : Fld := ⟨.fabPstat, 5, 2⟩
abbrev fabPstat_KICK : Fld := ⟨.fabPstat, 4, 1⟩
abbrev fabPstat_DESKEW : Fld := ⟨.fabPstat, 3, 1⟩
abbrev fabPstat_L1LOCK : Fld := ⟨.fabPstat, 2, 1⟩
abbrev fabPstat_L0LOCK : Fld := ⟨.fabPstat, 1, 1⟩
abbrev fabPstat_UP : Fld := ⟨.fabPstat, 0, 1⟩
abbrev fabPdly_ASYM : Fld := ⟨.fabPdly, 16, 16⟩
abbrev fabPdly_DELAY : Fld := ⟨.fabPdly, 0, 16⟩
abbrev fabPerr_LATE : Fld := ⟨.fabPerr, 24, 8⟩
abbrev fabPerr_DROPS : Fld := ⟨.fabPerr, 16, 8⟩
abbrev fabPerr_CRCERR : Fld := ⟨.fabPerr, 0, 16⟩
abbrev fabRoute_ALT : Fld := ⟨.fabRoute, 4, 3⟩
abbrev fabRoute_PRI : Fld := ⟨.fabRoute, 0, 3⟩
abbrev dmcCfg_MAXSPEED : Fld := ⟨.dmcCfg, 8, 2⟩
abbrev dmcCfg_GEOM : Fld := ⟨.dmcCfg, 4, 2⟩
abbrev dmcCfg_SPEED : Fld := ⟨.dmcCfg, 2, 2⟩
abbrev dmcCfg_TRAINED : Fld := ⟨.dmcCfg, 1, 1⟩
abbrev dmcWq_LOW : Fld := ⟨.dmcWq, 16, 7⟩
abbrev dmcWq_HIGH : Fld := ⟨.dmcWq, 0, 7⟩
abbrev dmcRhcfg_THRESH : Fld := ⟨.dmcRhcfg, 0, 16⟩
abbrev dmcThrottle_LEVEL7 : Fld := ⟨.dmcThrottle, 21, 3⟩
abbrev dmcThrottle_LEVEL6 : Fld := ⟨.dmcThrottle, 18, 3⟩
abbrev dmcThrottle_LEVEL5 : Fld := ⟨.dmcThrottle, 15, 3⟩
abbrev dmcThrottle_LEVEL4 : Fld := ⟨.dmcThrottle, 12, 3⟩
abbrev dmcThrottle_LEVEL3 : Fld := ⟨.dmcThrottle, 9, 3⟩
abbrev dmcThrottle_LEVEL2 : Fld := ⟨.dmcThrottle, 6, 3⟩
abbrev dmcThrottle_LEVEL1 : Fld := ⟨.dmcThrottle, 3, 3⟩
abbrev dmcThrottle_LEVEL0 : Fld := ⟨.dmcThrottle, 0, 3⟩
abbrev dmcRhstat_LASTREQ : Fld := ⟨.dmcRhstat, 29, 3⟩
abbrev dmcRhstat_CHAN : Fld := ⟨.dmcRhstat, 26, 1⟩
abbrev dmcRhstat_SUB : Fld := ⟨.dmcRhstat, 25, 1⟩
abbrev dmcRhstat_RANK : Fld := ⟨.dmcRhstat, 24, 1⟩
abbrev dmcRhstat_BANK : Fld := ⟨.dmcRhstat, 19, 5⟩
abbrev dmcRhstat_COUNT : Fld := ⟨.dmcRhstat, 0, 19⟩
abbrev dmcRefstat_FALLBACK : Fld := ⟨.dmcRefstat, 16, 16⟩
abbrev dmcRefstat_DOUBLE1 : Fld := ⟨.dmcRefstat, 1, 1⟩
abbrev dmcRefstat_DOUBLE0 : Fld := ⟨.dmcRefstat, 0, 1⟩
abbrev dmcTrainstat_DRIFT : Fld := ⟨.dmcTrainstat, 24, 8⟩
abbrev dmcTrainstat_FORCED : Fld := ⟨.dmcTrainstat, 16, 8⟩
abbrev dmcTrainstat_ALERTS : Fld := ⟨.dmcTrainstat, 8, 8⟩
abbrev eccCfg_AUTOERASE : Fld := ⟨.eccCfg, 24, 1⟩
abbrev eccCfg_ERTHRESH : Fld := ⟨.eccCfg, 8, 16⟩
abbrev eccCfg_TRKTHRESH : Fld := ⟨.eccCfg, 0, 8⟩
abbrev eccCorr_COUNT : Fld := ⟨.eccCorr, 0, 32⟩
abbrev eccUncorr_COUNT : Fld := ⟨.eccUncorr, 0, 32⟩
abbrev eccScrub_PASSES : Fld := ⟨.eccScrub, 16, 16⟩
abbrev eccScrub_PERIOD : Fld := ⟨.eccScrub, 0, 14⟩
abbrev eccScrubpos_POS : Fld := ⟨.eccScrubpos, 0, 32⟩
abbrev eccPoisonstat_OVERFLOW : Fld := ⟨.eccPoisonstat, 16, 8⟩
abbrev eccPoisonstat_ENTRIES : Fld := ⟨.eccPoisonstat, 0, 9⟩
abbrev eccTrkstat_REWRITES : Fld := ⟨.eccTrkstat, 16, 16⟩
abbrev eccTrkstat_ENTRIES : Fld := ⟨.eccTrkstat, 0, 7⟩
abbrev eccErase_ENB : Fld := ⟨.eccErase, 15, 1⟩
abbrev eccErase_DEVB : Fld := ⟨.eccErase, 8, 4⟩
abbrev eccErase_ENA : Fld := ⟨.eccErase, 7, 1⟩
abbrev eccErase_DEVA : Fld := ⟨.eccErase, 0, 4⟩
abbrev eccDiagctrl_BUSY : Fld := ⟨.eccDiagctrl, 31, 1⟩
abbrev eccDiagctrl_ERR : Fld := ⟨.eccDiagctrl, 8, 1⟩
abbrev eccDiagctrl_OP : Fld := ⟨.eccDiagctrl, 0, 2⟩
abbrev eccDiagaddrlo_ADDR : Fld := ⟨.eccDiagaddrlo, 6, 26⟩
abbrev eccDiagaddrhi_ADDR : Fld := ⟨.eccDiagaddrhi, 0, 8⟩
abbrev eccDiagbuf_BYTES : Fld := ⟨.eccDiagbuf, 0, 32⟩
abbrev eccDev_HARD : Fld := ⟨.eccDev, 24, 8⟩
abbrev eccDev_COUNT : Fld := ⟨.eccDev, 0, 16⟩
abbrev dmaCtrl_FENCE : Fld := ⟨.dmaCtrl, 11, 1⟩
abbrev dmaCtrl_RETRY : Fld := ⟨.dmaCtrl, 8, 3⟩
abbrev dmaCtrl_IRQDST : Fld := ⟨.dmaCtrl, 4, 1⟩
abbrev dmaCtrl_RESUME : Fld := ⟨.dmaCtrl, 2, 1⟩
abbrev dmaCtrl_ABORT : Fld := ⟨.dmaCtrl, 1, 1⟩
abbrev dmaCtrl_START : Fld := ⟨.dmaCtrl, 0, 1⟩
abbrev dmaDesclo_ADDR : Fld := ⟨.dmaDesclo, 5, 27⟩
abbrev dmaDeschi_ADDR : Fld := ⟨.dmaDeschi, 0, 32⟩
abbrev dmaStat_TAG : Fld := ⟨.dmaStat, 16, 16⟩
abbrev dmaStat_CAUSE : Fld := ⟨.dmaStat, 8, 8⟩
abbrev dmaStat_DESC : Fld := ⟨.dmaStat, 7, 1⟩
abbrev dmaStat_DIR : Fld := ⟨.dmaStat, 6, 1⟩
abbrev dmaStat_STATE : Fld := ⟨.dmaStat, 0, 2⟩
abbrev dmaFaillo_ADDR : Fld := ⟨.dmaFaillo, 0, 32⟩
abbrev dmaFailhi_ADDR : Fld := ⟨.dmaFailhi, 0, 32⟩
abbrev dmaCount_DESCS : Fld := ⟨.dmaCount, 0, 17⟩
abbrev dmaMaxdesc_MAX : Fld := ⟨.dmaMaxdesc, 0, 17⟩
abbrev dmaCrclo_CRC : Fld := ⟨.dmaCrclo, 0, 32⟩
abbrev dmaCrchi_CRC : Fld := ⟨.dmaCrchi, 0, 32⟩
abbrev dmaFence_FWD : Fld := ⟨.dmaFence, 4, 1⟩
abbrev dmaFence_STAGE : Fld := ⟨.dmaFence, 0, 4⟩
abbrev dmaTimeout_MS : Fld := ⟨.dmaTimeout, 0, 10⟩
abbrev crcCfg_GO : Fld := ⟨.crcCfg, 9, 1⟩
abbrev crcCfg_INIT : Fld := ⟨.crcCfg, 8, 1⟩
abbrev crcCfg_MODE : Fld := ⟨.crcCfg, 4, 1⟩
abbrev crcCfg_POLY : Fld := ⟨.crcCfg, 0, 2⟩
abbrev crcStat_OVERRUN : Fld := ⟨.crcStat, 2, 1⟩
abbrev crcStat_ERR : Fld := ⟨.crcStat, 1, 1⟩
abbrev crcStat_BUSY : Fld := ⟨.crcStat, 0, 1⟩
abbrev crcData8_DATA : Fld := ⟨.crcData8, 0, 8⟩
abbrev crcData16_DATA : Fld := ⟨.crcData16, 0, 16⟩
abbrev crcData32_DATA : Fld := ⟨.crcData32, 0, 32⟩
abbrev crcVallo_VAL : Fld := ⟨.crcVallo, 0, 32⟩
abbrev crcValhi_VAL : Fld := ⟨.crcValhi, 0, 32⟩
abbrev crcReslo_RES : Fld := ⟨.crcReslo, 0, 32⟩
abbrev crcReshi_RES : Fld := ⟨.crcReshi, 0, 32⟩
abbrev crcScanlo_ADDR : Fld := ⟨.crcScanlo, 0, 32⟩
abbrev crcScanhi_ADDR : Fld := ⟨.crcScanhi, 0, 8⟩
abbrev crcScanlen_LEN : Fld := ⟨.crcScanlen, 0, 32⟩
abbrev rdgStatus_ROM : Fld := ⟨.rdgStatus, 3, 1⟩
abbrev rdgStatus_LOCK : Fld := ⟨.rdgStatus, 2, 1⟩
abbrev rdgStatus_ESTOPIN : Fld := ⟨.rdgStatus, 1, 1⟩
abbrev rdgStatus_SAFE : Fld := ⟨.rdgStatus, 0, 1⟩
abbrev rdgSafe_CAUSE : Fld := ⟨.rdgSafe, 8, 3⟩
abbrev rdgSafe_RESETREQ : Fld := ⟨.rdgSafe, 2, 1⟩
abbrev rdgSafe_RELEASE : Fld := ⟨.rdgSafe, 1, 1⟩
abbrev rdgSafe_ENTER : Fld := ⟨.rdgSafe, 0, 1⟩
abbrev rdgCause_CAUSE : Fld := ⟨.rdgCause, 0, 8⟩
abbrev rdgHpen_LEVEL : Fld := ⟨.rdgHpen, 16, 16⟩
abbrev rdgHpen_GRANT : Fld := ⟨.rdgHpen, 0, 16⟩
abbrev rdgMoten_GATE : Fld := ⟨.rdgMoten, 0, 1⟩
abbrev rdgHbcfg_PERIOD : Fld := ⟨.rdgHbcfg, 0, 10⟩
abbrev rdgKick_KEY : Fld := ⟨.rdgKick, 0, 8⟩
abbrev rdgHbstat_BADKEYS : Fld := ⟨.rdgHbstat, 24, 8⟩
abbrev rdgHbstat_EXPIRED : Fld := ⟨.rdgHbstat, 9, 1⟩
abbrev rdgHbstat_ARMED : Fld := ⟨.rdgHbstat, 8, 1⟩
abbrev rdgHbstat_NEXTKEY : Fld := ⟨.rdgHbstat, 0, 8⟩
abbrev rdgLock_LOCK : Fld := ⟨.rdgLock, 0, 1⟩
abbrev rdgPortWidth_WMAX : Fld := ⟨.rdgPortWidth, 16, 14⟩
abbrev rdgPortWidth_WMIN : Fld := ⟨.rdgPortWidth, 0, 14⟩
abbrev rdgPortTime_WDLIM : Fld := ⟨.rdgPortTime, 16, 14⟩
abbrev rdgPortTime_MINPER : Fld := ⟨.rdgPortTime, 0, 16⟩
abbrev rdgPortTemp_TTRIP : Fld := ⟨.rdgPortTemp, 16, 16⟩
abbrev rdgPortTemp_TWARN : Fld := ⟨.rdgPortTemp, 0, 16⟩
abbrev rdgPstat_PERDROP : Fld := ⟨.rdgPstat, 16, 16⟩
abbrev rdgPstat_ENABLE : Fld := ⟨.rdgPstat, 3, 1⟩
abbrev rdgPstat_WDDROP : Fld := ⟨.rdgPstat, 2, 1⟩
abbrev rdgPstat_WARN : Fld := ⟨.rdgPstat, 1, 1⟩
abbrev rdgPstat_TRIP : Fld := ⟨.rdgPstat, 0, 1⟩
abbrev motAxCur_STILLMS : Fld := ⟨.motAxCur, 16, 16⟩
abbrev motAxCur_RUN : Fld := ⟨.motAxCur, 8, 8⟩
abbrev motAxCur_HOLD : Fld := ⟨.motAxCur, 0, 8⟩
abbrev motAxVmax_VMAX : Fld := ⟨.motAxVmax, 0, 23⟩
abbrev motAxAmax_AMAX : Fld := ⟨.motAxAmax, 0, 31⟩
abbrev motAxJmax_JMAX : Fld := ⟨.motAxJmax, 0, 31⟩
abbrev motAxSw_POL : Fld := ⟨.motAxSw, 31, 1⟩
abbrev motAxSw_DEBOUNCE : Fld := ⟨.motAxSw, 24, 4⟩
abbrev motAxSw_CHATWIN : Fld := ⟨.motAxSw, 8, 8⟩
abbrev motAxSw_CHATN : Fld := ⟨.motAxSw, 0, 8⟩
abbrev motAxHome_BACKOFF : Fld := ⟨.motAxHome, 16, 16⟩
abbrev motAxHome_SLOW : Fld := ⟨.motAxHome, 0, 16⟩
abbrev motAxHomepos_POS : Fld := ⟨.motAxHomepos, 0, 32⟩
abbrev motAxTravel_STEPS : Fld := ⟨.motAxTravel, 0, 31⟩
abbrev motAxPos_POS : Fld := ⟨.motAxPos, 0, 32⟩
abbrev motAxStat_FAULT : Fld := ⟨.motAxStat, 8, 4⟩
abbrev motAxStat_HOLDCUR : Fld := ⟨.motAxStat, 7, 1⟩
abbrev motAxStat_LIMP : Fld := ⟨.motAxStat, 6, 1⟩
abbrev motAxStat_LIMN : Fld := ⟨.motAxStat, 5, 1⟩
abbrev motAxStat_EN : Fld := ⟨.motAxStat, 4, 1⟩
abbrev motAxStat_HOMED : Fld := ⟨.motAxStat, 3, 1⟩
abbrev motAxStat_STATE : Fld := ⟨.motAxStat, 0, 3⟩
abbrev snsCtrl_COMMIT : Fld := ⟨.snsCtrl, 31, 1⟩
abbrev snsCtrl_TRKDLY : Fld := ⟨.snsCtrl, 2, 1⟩
abbrev snsCtrl_TRKADC : Fld := ⟨.snsCtrl, 1, 1⟩
abbrev snsStat_DIEMAX : Fld := ⟨.snsStat, 16, 16⟩
abbrev snsStat_CALRUN : Fld := ⟨.snsStat, 2, 1⟩
abbrev snsStat_DLYERR : Fld := ⟨.snsStat, 1, 1⟩
abbrev snsStat_RANGE : Fld := ⟨.snsStat, 0, 1⟩
abbrev snsIn_VALUE : Fld := ⟨.snsIn, 16, 16⟩
abbrev snsIn_INVALID : Fld := ⟨.snsIn, 15, 1⟩
abbrev snsIn_RANGE : Fld := ⟨.snsIn, 14, 1⟩
abbrev snsIn_CODE : Fld := ⟨.snsIn, 0, 14⟩
abbrev snsTrim_GAIN : Fld := ⟨.snsTrim, 24, 8⟩
abbrev snsTrim_OFFSET : Fld := ⟨.snsTrim, 16, 8⟩
abbrev snsTrim_GAINSH : Fld := ⟨.snsTrim, 8, 8⟩
abbrev snsTrim_OFFSETSH : Fld := ⟨.snsTrim, 0, 8⟩
abbrev snsDly_TAPS : Fld := ⟨.snsDly, 24, 8⟩
abbrev snsDly_SKEW : Fld := ⟨.snsDly, 16, 5⟩
abbrev snsDly_TAPSSH : Fld := ⟨.snsDly, 8, 8⟩
abbrev snsDly_SKEWSH : Fld := ⟨.snsDly, 0, 5⟩
abbrev snsDietrim_TRIM : Fld := ⟨.snsDietrim, 16, 16⟩
abbrev snsDietrim_TRIMSH : Fld := ⟨.snsDietrim, 0, 16⟩
abbrev snsPortcfg_RATIO : Fld := ⟨.snsPortcfg, 16, 16⟩
abbrev snsPortcfg_TAB : Fld := ⟨.snsPortcfg, 0, 1⟩
abbrev snsThtab_TEMP : Fld := ⟨.snsThtab, 16, 16⟩
abbrev snsThtab_CODE : Fld := ⟨.snsThtab, 0, 14⟩
abbrev bstCtrl_PERIOD : Fld := ⟨.bstCtrl, 16, 8⟩
abbrev bstCtrl_MAXSLICE : Fld := ⟨.bstCtrl, 8, 3⟩
abbrev bstCtrl_EN : Fld := ⟨.bstCtrl, 0, 1⟩
abbrev bstStat_PASSES : Fld := ⟨.bstStat, 16, 16⟩
abbrev bstStat_ACTIVE : Fld := ⟨.bstStat, 0, 3⟩
abbrev bstRes0_VALID : Fld := ⟨.bstRes0, 31, 1⟩
abbrev bstRes0_INJ : Fld := ⟨.bstRes0, 30, 1⟩
abbrev bstRes0_GROUP : Fld := ⟨.bstRes0, 8, 5⟩
abbrev bstRes0_INSTANCE : Fld := ⟨.bstRes0, 0, 7⟩
abbrev bstRes1_ADDR : Fld := ⟨.bstRes1, 0, 32⟩
abbrev bstRes2_BIT : Fld := ⟨.bstRes2, 0, 7⟩
abbrev bstRepair_SPARE : Fld := ⟨.bstRepair, 31, 1⟩
abbrev bstRepair_NOREPAIR : Fld := ⟨.bstRepair, 30, 1⟩
abbrev bstRepair_INSTANCE : Fld := ⟨.bstRepair, 23, 7⟩
abbrev bstRepair_ROW : Fld := ⟨.bstRepair, 12, 11⟩
abbrev bstRepair_COL : Fld := ⟨.bstRepair, 0, 7⟩
abbrev errInjstat_ARMED : Fld := ⟨.errInjstat, 31, 1⟩
abbrev errInjstat_RECORD : Fld := ⟨.errInjstat, 24, 1⟩
abbrev errInjstat_INSTANCE : Fld := ⟨.errInjstat, 16, 8⟩
abbrev errInjstat_ID : Fld := ⟨.errInjstat, 0, 8⟩
abbrev errHostpend_PEND : Fld := ⟨.errHostpend, 0, 32⟩
abbrev errCfg_CLR : Fld := ⟨.errCfg, 31, 1⟩
abbrev errCfg_CLASS : Fld := ⟨.errCfg, 4, 2⟩
abbrev errCfg_MASK : Fld := ⟨.errCfg, 3, 1⟩
abbrev errCfg_ROUTE : Fld := ⟨.errCfg, 0, 3⟩
abbrev errCount_COUNT : Fld := ⟨.errCount, 0, 32⟩
abbrev pmcCtrl_SNAP : Fld := ⟨.pmcCtrl, 1, 1⟩
abbrev pmcCtrl_FREEZE : Fld := ⟨.pmcCtrl, 0, 1⟩
abbrev pmcAccess_USER : Fld := ⟨.pmcAccess, 0, 1⟩
abbrev pmcOvf_OVF : Fld := ⟨.pmcOvf, 0, 32⟩
abbrev pmcTrcstat_MISSED : Fld := ⟨.pmcTrcstat, 16, 16⟩
abbrev pmcTrcstat_FINISHED : Fld := ⟨.pmcTrcstat, 0, 5⟩
abbrev pmcSel_PAIR : Fld := ⟨.pmcSel, 24, 1⟩
abbrev pmcSel_INST : Fld := ⟨.pmcSel, 16, 8⟩
abbrev pmcSel_EVENT : Fld := ⟨.pmcSel, 0, 16⟩
abbrev pmcCntlo_COUNT : Fld := ⟨.pmcCntlo, 0, 32⟩
abbrev pmcCnthi_COUNT : Fld := ⟨.pmcCnthi, 0, 16⟩
abbrev pmcUsnap_SNAP : Fld := ⟨.pmcUsnap, 0, 1⟩
abbrev pmcStimelo_T : Fld := ⟨.pmcStimelo, 0, 32⟩
abbrev pmcStimehi_T : Fld := ⟨.pmcStimehi, 0, 32⟩
abbrev pmcSnaplo_COUNT : Fld := ⟨.pmcSnaplo, 0, 32⟩
abbrev pmcSnaphi_COUNT : Fld := ⟨.pmcSnaphi, 0, 16⟩
abbrev glbWinsel_COPY3 : Fld := ⟨.glbWinsel, 14, 1⟩
abbrev glbWinsel_PAGE3 : Fld := ⟨.glbWinsel, 12, 2⟩
abbrev glbWinsel_COPY2 : Fld := ⟨.glbWinsel, 10, 1⟩
abbrev glbWinsel_PAGE2 : Fld := ⟨.glbWinsel, 8, 2⟩
abbrev glbWinsel_COPY1 : Fld := ⟨.glbWinsel, 6, 1⟩
abbrev glbWinsel_PAGE1 : Fld := ⟨.glbWinsel, 4, 2⟩
abbrev glbWinsel_COPY0 : Fld := ⟨.glbWinsel, 2, 1⟩
abbrev glbWinsel_PAGE0 : Fld := ⟨.glbWinsel, 0, 2⟩
end R

/-- Detector classes of R429: 0 CORRECTED, 1 DEFERRED, 2 FATAL, 3 SAFETY. -/
def detClass (i : Nat) : Nat :=
  if i ∈ [32, 36, 46, 47] then 2
  else if i ∈ [1, 2, 3, 4, 23, 24, 51, 54, 55] then 3
  else if i ∈ [10, 16, 17, 21, 25, 26, 29, 30, 34, 37, 42, 45, 60, 61] then 0
  else 1

/-- Default bindings SEND, RECV of R77. -/
def bindDefault (n : Nat) : Nat × Nat :=
  ([(1, 2), (2, 1), (2, 1), (1, 2), (1, 3), (3, 1), (2, 3), (3, 2), (4, 2), (2, 4)] : List (Nat × Nat)).getD n (0, 0)

/-- The reset value of each register, as its heading gives it; ERR_CFG by class (R424), PNR_BIND by R77.
GLB_UID, GLB_STRAP and GLB_GPIO_IN come from OTP, straps and balls and are set where those are sampled. -/
def regReset (r : RegId) : BitVec 32 :=
  match r.k with
  | .errCfg => if detClass r.i = 0 then 0x08 else if detClass r.i = 1 then 0x13 else if detClass r.i = 2 then 0x27 else 0x37
  | .pnrBind => BitVec.ofNat 32 ((bindDefault r.i).1 + 16 * (bindDefault r.i).2)
  | .glbIdentity => 0x2618B001
  | .glbRstcause => 0x00000002
  | .pnrCtrl => 0x00000010
  | .cadCtrl => 0x0000000C
  | .cadPitch => 0x00100000
  | .cadFirecfg => 0x00001388
  | .hptPcfg => 0x03E80100
  | .hptStrobe => 0x00000010
  | .hptVnom => 0x00002EE0
  | .hptTt => 0x10000000
  | .lnsTxeq => 0x00043800
  | .fabState => 0x00000001
  | .fabLookahead => 0x00009C40
  | .fabPctrl => 0x00000021
  | .fabRoute => 0x00000077
  | .dmcCfg => 0x00000300
  | .dmcWq => 0x00100030
  | .dmcRhcfg => 0x00001000
  | .eccCfg => 0x01004008
  | .eccScrub => 0x000005A0
  | .dmaCtrl => 0x00000300
  | .dmaMaxdesc => 0x00010000
  | .dmaTimeout => 0x00000064
  | .rdgStatus => 0x00000001
  | .rdgCause => 0x00000001
  | .rdgHbcfg => 0x00000064
  | .rdgHbstat => 0x00000001
  | .rdgPortWidth => 0x3FF80010
  | .rdgPortTime => 0x0008FFFF
  | .motAxCur => 0x01F4FF40
  | .motAxVmax => 0x000003E8
  | .motAxAmax => 0x00002710
  | .motAxJmax => 0x000F4240
  | .motAxSw => 0x82000A08
  | .motAxHome => 0x06400320
  | .motAxTravel => 0x01000000
  | .snsCtrl => 0x00000006
  | .snsIn => 0x00008000
  | .snsTrim => 0x80008000
  | .snsDly => 0x3E003E00
  | .snsPortcfg => 0x0A000000
  | .bstCtrl => 0x00180101
  | .bstRepair => 0x007FF07F
  | _ => 0

end Sys2Proof.Machine
end

