-- ==== Sys2Proof/Machine/State.lean ====
section
/-!
DEFINITION. The state of the block as plain data. Registers of the BAR0 space live in one store, `State.regs`
(spec 22); what the spec gives the device besides its registers has a field of its own, grouped by chapter.
Sparse maps are association lists that list no entry equal to their default (Ops.lean: `AMap`).
-/
namespace Sys2Proof.Machine

/-- Why a command stops the machine. -/
inductive Fault where
  /-- Raised by POWER_ON and BROWN_OUT for a rail beyond the absolute maximum rating of R450: R449 says the device
  may then be damaged and specifies no function. Safe: nothing is claimed of such a device. -/
  | beyondRatings
deriving DecidableEq, Repr

/-- Why a command has no meaning. -/
inductive Refusal where
  /-- A row of the table that the model does not give a meaning. Safe. No arm of `exec` raises it. -/
  | notModelled (mnemonic : String)
deriving DecidableEq, Repr

/-- Device states of R98, in code order. -/
inductive DevState where
  | boot | held | ready | armed | printing | paused | safe | fault
deriving DecidableEq, Repr

/-- State codes of R98. -/
def DevState.code : DevState → Nat
  | .boot => 0 | .held => 1 | .ready => 2 | .armed => 3 | .printing => 4 | .paused => 5 | .safe => 6 | .fault => 7

/-- Life-cycle states of R67, in the code order of GLB_BOOTSTAT.LC. -/
inductive LifeCycle where
  | test | field | rma | retired
deriving DecidableEq, Repr

/-- Codes of GLB_BOOTSTAT.LC. -/
def LifeCycle.code : LifeCycle → Nat
  | .test => 0 | .field => 1 | .rma => 2 | .retired => 3

/-- What crosses the package boundary, or answers an access, in one command (log entry 4). -/
inductive Output where
  /-- value returned by a register read -/
  | readData (v : Word)
  /-- bytes returned by a BAR2 read -/
  | bar2Data (bytes : List Byte)
  /-- a read of the host ended with Completer Abort (R278) or Unsupported Request (R278, R313) -/
  | bar2Abort
  | unsupported
  /-- what a read burst gives its requester: 64 bytes, or none for a bus error (R334) -/
  | burst (req : Nat) (data : Option (List Byte))
  | msix (vector : Nat)
  /-- a frame on head link `p` and the block after its END, as the lane carries them (R237, R266) -/
  | frame (p : Nat) (blocks : List Block)
  /-- ALIGN blocks between frames or packets of link `k`, with their lanes (R242, R284) -/
  | aligns (k : Nat) (blocks : List (Nat × Block))
  | strobeRise (p k : Nat) (width : Nat)
  | strobeFall (p k : Nat)
  /-- a packet leaves fabric port `q`: its blocks on lanes 0 and 1 of the port (R284, R285) -/
  | packet (q : Nat) (pkt : Pkt) (lane0 lane1 : List Block)
  | step (a : Nat) (up : Bool)
  | tracerPulse (n : Nat)
  /-- a lane sends one error: 1 one payload bit, 2 a burst of `len` bits, 3 a sync header (R274) -/
  | laneError (l kind len : Nat)
  /-- a claimed ball group returns to its reset state (R41) -/
  | ballsReset (g : Nat)
  /-- the completion interrupt of a DMA channel, to the control core (R356, R360) -/
  | dmaCoreIrq (n : Nat)
deriving DecidableEq, Repr

/-- An E command that is accepted and not complete (R95). `t0` is its take, `lockLost` that its staging lock was
released since the take (R104), `data` what the command keeps for its completion. -/
structure OpenCmd where
  op : Nat
  cmd : Cmd
  t0 : Nat
  lockLost : Bool := false
  /-- when its claim of CRC unit 3 was first refused (R375) -/
  waitFrom : Option Nat := none
  data : List Nat := []
deriving DecidableEq, Repr

/-- The control firmware's own state (spec 05): queues, responses, events (R93 to R96). -/
structure Fw where
  running : Bool
  rotation : Nat
  opens : List OpenCmd
  respQ : List (Queue × List Word)
  deferred : Option (Nat × Cmd)
  /-- SYS_RESET answered and reset not begun (R52): hard?, and the instant of posting -/
  resetPending : Option (Bool × Nat)
  events : List (List Word)
  lost : Nat
  eseq : Nat
  mask : Word
deriving DecidableEq, Repr

/-- The loaded job (R469, R109, R221). Lines are fire lines or image lines as the field says. -/
structure Job where
  id : Word
  mask : Nat
  policy : Nat
  threshold : Nat
  ports : Nat := 0
  /-- pending JOB_START: fire line, and mode 1 (R229) -/
  startAt : Option (Int × Bool) := none
  /-- first fire line at which lines are due -/
  startLine : Option Int := none
  y0 : Option Int := none
  pauseAt : Option Int := none
  /-- ledger cause and member-wide halt: halt line decided by a policy (R128, R166, R218, R228): line, cause -/
  haltAt : Option (Int × Nat) := none
  /-- records of count 1 that the halt writes: port, segment, cause, fire line, and the line at
  which that halt falls (R128, R166) -/
  haltRecs : List (Nat × Nat × Nat × Int × Int) := []
  /-- fire line of the latest pause (F_h) -/
  stoppedAt : Int := 0
  resumeAt : Option Int := none
  shift : Int := 0
  fired : Bool := false
  /-- lines are due: from the start or resume line until a pause or the end; it stands through SAFE and FAULT (R20, R255) -/
  printing : Bool := false
  jc : Option Int := none
  /-- `JOB_ABORT` in PRINTING: the line boundary at which firing stops (R98) -/
  abortAt : Option Int := none
  /-- paused because the ledger is full (R19) -/
  ledgerPause : Bool := false
  /-- a FATAL error that stops firing at the next line boundary (R20) -/
  fatal : Bool := false
deriving DecidableEq, Repr

/-- One-time programmable items (R57, R62, R69). Key hash slots 0 to 3: hash, revoked. -/
structure Otp where
  lc : LifeCycle
  /-- state programmed by an accepted transition, in effect at the next full reset (R69) -/
  lcNext : Option LifeCycle
  uid : BitVec 64
  idKey : Bool
  keys : List (Nat × Bool)
deriving DecidableEq, Repr

/-- A programming of boot flash or OTP: its instant, flash and OTP before it, and the range of flash that it erases or writes (R60, R69). -/
structure Program where
  at_ : Nat
  flash : List Host.Cell
  otp : Otp
  addr : Nat
  len : Nat
deriving DecidableEq, Repr

/-- Reset and boot progress (spec 03). -/
structure Boot where
  inReset : Bool
  /-- entry in progress: orderly? and its trigger -/
  orderly : Option Nat
  powered : Bool
  releaseAfter : Nat
  /-- the reset in progress began with a fault of `SYSCLK` (R46) -/
  clockHold : Bool
  dramKept : Bool
  cslot : Nat
  rslot : Nat
  ctlHeader : List Byte
  rdgHeader : List Byte
  ridgeInRom : Bool
  /-- the fabric ports' kickstand path is in force from the instant `kickFrom` (R55, R308) -/
  kickstand : Bool
  kickFrom : Nat := 0
  /-- READY has been reached since the reset (R307) -/
  served : Bool := false
  /-- the control core's tightly coupled memory: the control payload that boot copied there (boot step 6; log entry 149) -/
  ctlMem : List Host.Cell := []
deriving DecidableEq, Repr

/-- Freewheel states of R215, in the code order of CAD_STATUS.FWSTATE. -/
inductive FwState where
  | track | forward | absorb | reversed
deriving DecidableEq, Repr

/-- Codes of CAD_STATUS.FWSTATE. -/
def FwState.code : FwState → Nat
  | .track => 0 | .forward => 1 | .absorb => 2 | .reversed => 3

/-- A cadence record as received (R231, R300). Positions in counts, `period` in ticks with 8 fractional bits. -/
structure CadRec where
  tc : Nat
  pos : Int
  hw : Int
  period : Nat
  fw : FwState
  down : Bool
  markPos : Int
  markSeq : Nat
  arrived : Nat
deriving DecidableEq, Repr

/-- What the effective position is reckoned from (R212, R215, R232): count, direction of the last count and its tick, count period,
standstill, high-water position and freewheel state; for a follower the record, and the position that it holds; the position
below which *E* does not fall. -/
structure Gauge where
  pos : Int
  dir : Int
  tc : Nat
  period : Option Nat
  still : Bool
  hw : Int
  fw : FwState
  far : Bool
  rcd : Option CadRec
  held : Option Int
  floor : Option Int
deriving DecidableEq, Repr

/-- How the current fire line fires (R218). Times in ps. -/
structure LineFire where
  f : Int
  trigger : Nat
  fired : Nat
  dropped : Bool
  /-- chain time of the trigger and of the fired start -/
  ctTrig : Nat
  ctFired : Nat
deriving DecidableEq, Repr

/-- The cadence unit (spec 10). Positions are unbounded (R209); `P` is `pos` modulo 2^40 (R208). E values have 16
fractional bits (R212); times are in ps. -/
structure Cad where
  pos : Int
  hw : Int
  zpos : Int
  selected : Option Bool
  locked : Bool
  everLocked : Bool
  lockFrom : Nat
  /-- `ENC_FAULT` since the latest lock: an illegal transition restarts the wait for the next one (R207) -/
  fault : Bool
  a : Bool
  b : Bool
  lastDir : Int
  changes : Nat
  lastIllegal : Option Nat
  tc : Nat
  /-- the chain time of the latest count (R300) -/
  tcChain : Nat := 0
  intervals : List Nat
  fw : FwState
  /-- highest effective position reached in PRINTING (R216, R232); position held by a follower without records (R233) -/
  eMax : Int
  held : Option Int
  /-- since when the member has been a follower (R233) -/
  followFrom : Nat
  /-- what *E* followed before the tick named, newest first (R218, R223) -/
  past : List (Nat × Gauge)
  p0 : Int
  fbase : Int
  /-- a follower's pitch, *P*0 and *F*_base as received (R230, R231) -/
  rcfg : Option (Nat × Int × Int)
  line : Int
  prevStart : Option Nat
  periods : List Nat
  starts : Nat
  warn : Bool
  still : Bool
  prevFired : Option Nat
  /-- the line in progress, the one before, and older ones that fire late: lines whose last strobes may still be due (R218) -/
  cur : Option LineFire
  prev : Option LineFire
  older : List LineFire
  markPos : Int
  markSeq : Nat
  recCount : Nat
  recChanged : Bool
  rcd : Option CadRec
  /-- values captured by each master's latest CAD_POSLO read: P, H, Z, F -/
  caps : List (Nat × List Nat)
deriving DecidableEq, Repr

/-- The block stream of a link (R242, R266, R284): when its next block begins, that block's number, the blocks since the latest ALIGN and the ASEQ of
the next. -/
structure Stream where
  at_ : Nat
  count : Nat
  since : Nat
  aseq : Nat
deriving DecidableEq, Repr

/-- A packet that waits at a fabric port since an instant (R287). -/
structure Waiting where
  port : Nat
  since : Nat
  pkt : Pkt
deriving DecidableEq, Repr

/-- What the lanes' transmitters hold: the streams of the links (head port, or 16 + fabric port); the latest 58 payload bits of each lane (R266);
injections not yet spent, oldest first, by lane: instant, kind, bits (R274); packets that wait at the fabric ports, oldest first, and which of TC1
and TC2 went last (R287). -/
structure Tx where
  streams : List (Nat × Stream) := []
  bits : List (Nat × BitVec 58) := []
  inj : List (Nat × (Nat × Nat × Nat)) := []
  queue : List Waiting := []
  turn : List (Nat × Nat) := []
deriving DecidableEq, Repr

/-- A head module's latest KIND 1 report (R241): TEMP in 1/16 degrees, valid, arrival. -/
structure ModTel where
  temp : Int
  valid : Bool
  at_ : Nat
deriving DecidableEq, Repr

/-- The LINE frame last completed on a port (R247 to R249). -/
structure FrameSt where
  f : Int
  awaiting : Bool
  confirmed : Bool
  sosAt : Option Nat
  /-- the confirmation window has closed and the frame is judged -/
  judged : Bool
  /-- when its END block was complete (R248) -/
  endAt : Nat := 0
deriving DecidableEq, Repr

/-- One strobe output (R251, R252, R256). -/
structure Strobe where
  high : Bool := false
  riseAt : Nat := 0
  fallAt : Nat := 0
  width : Nat := 0
  /-- the line whose pulse was issued or suppressed last -/
  lastLine : Option Int := none
  genHigh : Bool := false
deriving DecidableEq, Repr

/-- A head port (spec 11). -/
structure HeadPort where
  /-- an `HP_CONFIG` of the port has been accepted -/
  conf : Bool := false
  rxUp : Bool := false
  farUp : Bool := false
  aseqRun : Nat := 0
  lastAseq : Nat := 0
  lastAlign : Nat := 0
  upSince : Nat := 0
  /-- modules that have answered the latest CONFIG frames, and when those were sent (R244) -/
  answered : Nat := 0
  askedAt : Nat := 0
  seq : Nat := 0
  tel : List (Nat × ModTel) := []
  lostRaised : List Nat := []
  frame : Option FrameSt := none
  strobes : List (Nat × Strobe) := []
  /-- computations of widths, the latest first: instant and the four widths; as far back as a strobe may still need one (R254) -/
  widths : List (Nat × List Nat) := []
  /-- the frame being received: START bytes 1 to 7, data bytes, all its blocks valid so far (R243) -/
  rx : Option (List Byte × List Byte × Bool) := none
  /-- the latest measurement of the port's delay lines (R411) -/
  dlyAt : Nat := 0
  theta : Option Int := none
  thetaAt : Nat := 0
  supplyOut : Bool := false
  tempInvRaised : Bool := false
  /-- fired start of the latest line at which a strobe issued (R381) -/
  periodRef : Option Nat := none
  /-- line at which no strobe of the port issues, judged so (R260) -/
  gated : Option Int := none
  /-- latest fire line judged at the port -/
  lastDue : Option Int := none
deriving DecidableEq, Repr

/-- An open ledger run (R262). -/
structure Run where
  ch : Nat
  port : Nat
  seg : Nat
  cause : Nat
  part : Bool
  ct : Nat
  first : Int
  count : Nat
  /-- fire line of the line that would extend the run -/
  next : Int
  opened : Nat
  /-- a record written whole, which closes at once (R128, R192, R222) -/
  whole : Bool := false
deriving DecidableEq, Repr

/-- The defect ledger (R19, R259 to R263); ring registers are HPT_LDBASE to HPT_LDRD. -/
structure Ledger where
  runs : List Run
  onchip : List (List Byte)
  /-- records written to the overflow area, and how many of them have been moved (R19, R114) -/
  overflow : Nat
  moved : Nat
  seq : Nat
  fresh : Nat
  freshSince : Option Nat
  threshold : Nat
  /-- ring address and size, WR and RD from before an orderly reset (R19, R114) -/
  was : Option (Nat × Nat × Nat × Nat)
deriving DecidableEq, Repr

/-- One copy of the four tables of a channel (spec 09): jet map entries by jet, curve bytes by 16*class + dose,
takeover half-words, stitch patterns. -/
structure Tables where
  jets : List (Nat × BitVec 64) := []
  curves : List (Nat × Byte) := []
  takeover : List (Nat × BitVec 16) := []
  stitch : List (Nat × BitVec 64) := []
deriving DecidableEq, Repr

/-- A channel's configuration, tables and compressor view (R468, R185, R198 to R200). -/
structure ChanSt where
  configured : Bool := false
  n : Nat := 0
  l : Nat := 0
  b : Nat := 0
  left : Option Nat := none
  right : Option Nat := none
  edgeL : Option (Nat × Nat) := none
  edgeR : Option (Nat × Nat) := none
  active : Tables := {}
  inactive : Tables := {}
  /-- committed copies and the image line from which they hold (R199); the segment whose page boundary a commit waits
  for; copies that hold below a line (the lines of an earlier commit that hubs have not finished) -/
  next : Option (Int × Tables) := none
  waitSeg : Option Nat := none
  prev : List (Int × Tables) := []
  copyMask : Nat := 0
  refs : List (Nat × Word) := []
  ringHead : Nat := 0
  postIndex : Nat := 0
  /-- decode references of the ports across a member boundary, learnt at `JOB_ARM` (R302) -/
  refL : Option Nat := none
  refR : Option Nat := none
deriving DecidableEq, Repr

/-- A post in a segment's queue (R116, R122): page, lines, first byte in DRAM, bytes, ring bytes held, raw?,
library entry and pages for FORM 2, ring post index. -/
structure Post where
  page : Nat
  lines : Nat
  addr : Nat
  len : Nat
  ring : Nat
  raw : Bool
  lib : Option Nat
  pages : Nat
  index : Nat
  /-- the response that its lines wait for: queue and word 0; and the instant at which they joined the runway (R121) -/
  waits : Option (Queue × Word) := none
  joined : Nat := 0
deriving DecidableEq, Repr

/-- Decoder state of a segment (R151, R156). Histories are newest code first; lines lowest column first. -/
structure DecSt where
  line : Nat := 0
  col : Nat := 0
  inBlock : Bool := false
  ty : Nat := 0
  remain : Nat := 0
  blockAddr : Nat := 0
  blockLen : Nat := 0
  bitPos : Nat := 0
  /-- page line at which the current span begins; codes of repeat lines still to emit (R141) -/
  bLine : Nat := 0
  rep : Nat := 0
  runCrc : Word := 0xFFFFFFFF
  half : Option Nat := none
  lengths : List Nat := []
  prev : List Nat := []
  cur : List Nat := []
  hist : List Nat := []
deriving DecidableEq, Repr

/-- A block whose decode has ended and whose end has not been judged (R164). `name` is 0 for clean syntax. -/
structure BlockEnd where
  addr : Nat
  firstLine : Int
  firstCol : Nat
  span : Nat
  lastLine : Int
  pageLine : Nat
  page : Nat
  name : Nat
  bitPos : Nat
  codesCrc : Word
  carried : Word
  giveUp : Bool
deriving DecidableEq, Repr

/-- A span that carries dose 0 (R128, R165): page, first line and column, last line and the column after its last code there, ledger
cause. -/
structure Blank where
  page : Nat
  first : Int
  col : Nat
  last : Int
  stop : Nat
  cause : Nat
deriving DecidableEq, Repr

/-- A decoded line that waits for its blocks (R161): image line, page, codes. -/
structure LineBuf where
  y : Int
  page : Nat
  codes : List Nat
deriving DecidableEq, Repr

/-- A segment's definition, posting position, page synchronisation and stream context (spec 06, 07, 10). -/
structure SegSt where
  first : Nat := 0
  width : Nat := 0
  -- CAD_MARK (R224)
  src : Nat := 0
  u : Nat := 0
  win : Nat := 0
  slew : Nat := 0
  missLimit : Nat := 0
  pageLen : Nat := 0
  -- posting (R118)
  postPage : Nat := 0
  postLines : Nat := 0
  endPage : Option Nat := none
  posts : List Post := []
  -- decoding
  page : Nat := 0
  pageStart : Int := 0
  shiftAcc : Int := 0
  y : Int := 0
  /-- pages given up: the page, its first line without data, and whether the blank policy gave it up (R128, R165) -/
  gave : List (Nat × Int × Bool) := []
  /-- a line in underrun for which the policy halts the job (R128) -/
  under : Option Int := none
  started : Bool := false
  /-- where decoding begins at `JOB_START`: page, its first job line, the job line to decode next, the
  decoder state there and that at the start of its block (R131) -/
  home : Nat × Int × Int × DecSt × DecSt := (0, 0, 0, {}, {})
  dec : DecSt := {}
  /-- state at the current block's first code (R170) -/
  blockStart : DecSt := {}
  ends : List BlockEnd := []
  lines : List LineBuf := []
  blanks : List Blank := []
  /-- lines that missed their release deadline, by port, with whether an injection held them back (R163); those for
  which `DECODE_LATE` has acted -/
  late : List ((Nat × Int) × Bool) := []
  lateSeen : List (Nat × Int) := []
  /-- ports and image lines that the one record of a halt tells of (R163, R166) -/
  halted : List (Nat × Int) := []
  /-- fetch buffer: bursts by page and address, and those whose read failed (R160, R167) -/
  fetched : List ((Nat × Nat) × List Byte) := []
  fetchErr : List (Nat × Nat) := []
  snapSlot : Nat := 0
  snapGen : Nat := 0
  -- marks (R225 to R228)
  ye : Option Int := none
  accepted : Option Int := none
  /-- an injection suppresses the mark source until the miss limit (R429) -/
  suppressed : Bool := false
  miss : Nat := 0
  /-- page whose end is fixed next; shifts of fixed page ends, by page (R225, R226) -/
  fixPage : Nat := 0
  deltas : List (Nat × Int) := []
  /-- uncompensable lines by page and port: first fire line, count, chain time of its fired start or 0 before it, and
  whether the page's last line has passed step 3 (R192) -/
  lost : List ((Nat × Nat) × (Int × Nat × Nat × Bool)) := []
deriving DecidableEq, Repr

/-- A block fault record (R169). -/
structure FaultRec where
  done : Bool
  name : Nat
  seg : Nat
  slot : Nat
  page : Nat
  bitPos : Nat
  addr : Nat
  line : Nat
  /-- what the re-decoder needs: segment width, page length, the posts of the page (R168) -/
  w : Nat
  pageLen : Nat
  posts : List Post
deriving DecidableEq, Repr

/-- A raw post in the compressor (R172): segment context, page and its first page line, source codes, lines done and in
all, bytes written, ring space reserved from `addr`, the command that waits for its response. -/
structure RawPost where
  ctx : Nat
  page : Nat
  line : Nat
  codes : List Nat
  done : Nat
  lines : Nat
  out : List Byte
  addr : Nat
  reserved : Nat
  mode : Nat
  cmd : Cmd
deriving DecidableEq, Repr

/-- A segment's posts and posting position in the ring's post index, which survives an orderly reset (R131). -/
structure Kept where
  posts : List Post
  postPage : Nat
  postLines : Nat
  endPage : Option Nat
deriving DecidableEq, Repr

/-- A repeat library entry (R123). -/
structure LibEntry where
  width : Nat
  lines : Nat
  streamLen : Nat
  stored : Nat
  addr : Nat
deriving DecidableEq, Repr

/-- A queued DRAM write (R319): burst address and 64 data bytes, or 80 stored bytes of a raw write (R354). -/
structure QWrite where
  addr : Nat
  req : Nat
  data : List Byte
deriving DecidableEq, Repr

/-- A poison table entry (R335, R340). -/
structure Poison where
  addr : Nat
  cause : Nat
  req : Nat
  owner : List Byte
deriving DecidableEq, Repr

/-- A repeat-correction tracker entry (R343, R344). -/
structure Track where
  addr : Nat
  count : Nat
  rewritten : Bool
deriving DecidableEq, Repr

/-- A command that the controller has issued to a DIMM channel (R327): its instant, requester and burst, and what it writes. -/
structure Issued where
  at_ : Nat
  req : Nat
  addr : Nat
  data : Option (List Byte)
deriving DecidableEq, Repr

/-- The DRAM controller and its code (spec 14, 15) besides their registers. -/
structure Dram where
  queues : List (Nat × List QWrite)
  trackers : List (Nat × List (Nat × Nat))
  quiet : List (Nat × Nat)
  crossed : List Nat
  /-- refresh debt by 4*rank + bank index, and the instant up to which it has been counted (R321) -/
  debt : List (Nat × (Nat × Nat))
  lastAlert : List (Nat × Nat)
  poison : List (Nat × Poison)
  track : List (Nat × Track)
  scrub : Nat
  passEnd : Nat
  lateRaised : Bool
  secondRaised : List Nat
  /-- reads that wait, oldest first, with their instants; the requester whose turn is next in each class; when a requester was last
  admitted to a DIMM channel, by 2*requester + channel (R318, R324) -/
  reads : List (ReadReq × Nat)
  turns : List (Nat × Nat)
  admitted : List (Nat × Nat)
  /-- when the present refresh window of each DIMM channel began, and that of the throttle levels; the latest MR4 read of each DIMM channel
  (R321, R322, R324) -/
  windowAt : List (Nat × Nat)
  levelAt : Nat
  mr4At : List (Nat × Nat)
  /-- by 2*channel + subchannel: the latest re-measurement, until when requests are held for one, when the latest request was queued or
  served, and the DQS delay in force in ps (R326) -/
  dqsAt : List (Nat × Nat)
  dqsHold : List (Nat × Nat)
  used : List (Nat × Nat)
  delay : List (Nat × Nat)
  /-- the commands issued in the latest 64 cycles, oldest first (R327) -/
  issued : List Issued
deriving DecidableEq, Repr

/-- A DMA descriptor (R357). -/
structure Desc where
  src : Nat
  dst : Nat
  len : Nat
  ctl : Word
  next : Nat
deriving DecidableEq, Repr

/-- A DMA channel besides its registers (R360 to R370). -/
structure DmaSt where
  at_ : Nat := 0
  cur : Option Desc := none
  moved : Nat := 0
  hold : List Byte := []
  crc : DWord := 0
  crcSel : Option Nat := none
  prevTag : Option Nat := none
  tries : Nat := 0
  /-- since when the access in progress is under way (R366) -/
  since : Nat := 0
  /-- bytes of a descending copy that its check has read again (R363) -/
  checked : Nat := 0
  /-- the chain's last descriptor is moved and its write-back is due (R364, R366) -/
  writeBack : Bool := false
deriving DecidableEq, Repr

/-- An axis besides its registers (R392 to R404). `group` names the coordinated move by its master axis. -/
structure AxisSt where
  configured : Bool := false
  moving : Bool := false
  homing : Bool := false
  group : Nat := 0
  total : Nat := 0
  left : Nat := 0
  acc : Nat := 0
  up : Bool := true
  /-- level of DIR: low until a move first drives it (R29, R393) -/
  dirUp : Bool := false
  phase : Nat := 0
  phaseSteps : Nat := 0
  release : Option Nat := none
  chatters : Nat := 0
  edgesN : List Nat := []
  edgesP : List Nat := []
  lastStep : Nat := 0
  /-- rise of the latest pulse on STEP -/
  pulse : Option Nat := none
  /-- instant from which the move, or the phase of homing, may step (R393, R394) -/
  startAt : Nat := 0
  /-- steps of the slow approach within the longest debounce, latest first (R398, R401) -/
  recent : List Nat := []
deriving DecidableEq, Repr

/-- A BIST slice in progress (R418): group, instance, step of the table that it has reached, the instant of that step, whether it runs for
`BIST_RUN` (R422). -/
structure Slice where
  g : Nat
  inst : Nat
  step : Nat
  since : Nat
  asked : Bool
deriving DecidableEq, Repr

/-- The armed injection (R427): detector, instance, count. -/
structure Inject where
  id : Nat
  inst : Nat
  count : Nat
deriving DecidableEq, Repr

/-- A tracer record (R438). -/
structure Trace where
  ch : Nat
  port : Nat
  complete : Bool
  abandoned : Bool
  y : Int
  /-- fire line of the line at the port; instant at which the record was taken -/
  f : Int
  t0 : Nat
  stamps : List (Nat × Nat)
deriving DecidableEq, Repr

/-- A member as the root knows it (R293 to R307): state code, hop count path, latency in 1/16 ns (R304), instant of its latest
answer, and the end of its kickstand. -/
structure Member where
  id : Nat
  uid : Nat
  proto : Nat
  mode : Nat
  path : List Nat
  latency : Nat
  /-- the delay of its link towards the root in 1/16 ns (R101, R287) -/
  hop : Nat := 0
  heard : Nat
  kickEnded : Option Nat
  /-- the latest JOIN of the member that the root acted on (R307) -/
  joinAt : Option Nat := none
deriving DecidableEq, Repr

/-- A responder to PROBE, or the root itself (R293): flags of its response, the ID it held, and a path to it. -/
structure FabNode where
  uid : Nat
  proto : Nat
  flags : Nat
  cur : Nat
  path : List Nat
deriving DecidableEq, Repr

/-- A TC1 read in flight (R289). -/
structure FarRead where
  tag : Nat
  member : Nat
  addr : Nat
  len : Nat
  /-- retries left (R281, R366) -/
  tries : Nat
  got : List (Nat × Byte)
  bad : Bool
  t0 : Nat
deriving DecidableEq, Repr

/-- A proxy operation that this member sent and that is not finished (R290). -/
structure ProxyOp where
  tag : Nat
  op : Nat
  dest : Nat
  ch : Nat
  words : List Word
  tries : Nat
  t0 : Nat
  sentAt : Nat
  isE : Bool
  resp : List Word
  done : List Word := []
deriving DecidableEq, Repr

/-- What the proxy remembers of the last POST accepted from a member (R290). -/
structure LastPost where
  src : Nat
  tag : Nat
  resp : Option (List Word)
  done : Option (List Word)
deriving DecidableEq, Repr

/-- The chain fabric (spec 13) besides its registers. -/
structure Fab where
  /-- responders and links that a discovery in progress has found (R294, R295) -/
  found : List FabNode := []
  foundLinks : List ((Nat × Nat) × (Nat × Nat)) := []
  goodSync : Nat
  parentPort : Option Nat
  /-- this member's path from the root, from its directed MGMT packets -/
  path : List Nat
  /-- TSYNC requests under way, by port: SEQ and t1; latest SEQ (R297) -/
  tsync : List (Nat × (Nat × Nat))
  tsyncSeq : Nat
  /-- what is left of a slew: ticks, and 2^-56 ns for each (R298) -/
  slew : Nat × Int
  /-- latest ALIGN by port; members in reset behind a port in kickstand (R283, R309) -/
  aligns : List (Nat × Nat)
  /-- consecutive ALIGNs received, by port, and the ASEQ that continues them (R283, R284) -/
  alignRun : List (Nat × (Nat × Nat))
  /-- when each port's latest TSYNC exchange began, and the root's latest round of HEARTBEATs (R297, R306) -/
  tsyncAt : List (Nat × Nat)
  beatAt : Option Nat
  kickOf : List (Nat × Nat)
  lastTag : List (Nat × Nat)
  ownTag : Nat
  msgTag : Nat
  /-- ports by which directed requests arrived, by TAG and path (log entry 29) -/
  back : List ((Nat × List Byte) × Nat)
  reads : List FarRead
  readTag : Nat
  /-- POSTs held while channel 8 is FULL: source, tag, words (R290) -/
  proxyQ : List (Nat × Nat × List Word)
  lastPosts : List LastPost
  ops : List ProxyOp
  proxyMember : Nat
  members : List Member
  nodes : List FabNode
  /-- links between (unique ID, port) pairs that the root has learnt -/
  links : List ((Nat × Nat) × (Nat × Nat))
  /-- what the root has sent each member: ROUTE entries and ASSIGN body, by unique ID -/
  plan : List (Nat × (List Nat × List Byte))
  joinAt : Option Nat
  recAt : Option Nat
  timeCap : List (Nat × Nat)
  edgeIn : List ((Nat × Nat × Int) × List Nat)
  /-- last line whose EDGE packet left, by channel and side (R302) -/
  edgeSent : List ((Nat × Nat) × Int)
  /-- STATE fields of the columns across a member boundary that an EDGE packet used, by channel, side and line (R187) -/
  edgeUsed : List ((Nat × Nat × Int) × List Nat)
  far : List ((Nat × Nat) × Byte)
deriving DecidableEq, Repr

/-- The host port besides its registers (R276 to R282): the words of the MSI-X table by index, the vectors pending under a mask, the offset and
length of the request logged last as Unsupported Request, and what the host sets when it enumerates the function. -/
structure Pcie where
  table : List (Nat × Word)
  pending : List Nat
  logged : Option (Nat × Nat)
  /-- the AER header log: the four words of the TLP concerned (R282) -/
  header : List Word := []
  /-- the link is up from this instant on, and the host has enumerated the function (R276, R280; log entry 137) -/
  upAt : Nat := 0
  readyAt : Nat := 0
  /-- base addresses by BAR (R277) -/
  bars : List (Nat × Nat) := []
  /-- maximum payload and read request sizes in bytes, the completion timeout's code in Device Control 2, ASPM L1 enabled (R276, R281) -/
  payload : Nat := 128
  readReq : Nat := 512
  timeout : Nat := 0
  aspmL1 : Bool := false
  /-- DMA channels whose completion interrupt holds `IRQ_N` low while MSI-X is disabled (R279; log entry 138) -/
  irqs : List Nat := []
deriving DecidableEq, Repr

/-- The ridge partition (spec 17) besides its registers. -/
structure Rdg where
  hbAt : Nat
  expiredAt : Option Nat
  recordCrc : Word
  proto : Nat
  /-- the 64 KiB of ridge memory: the ridge payload that boot copied there (R63, R376; log entry 149) -/
  mem : List Host.Cell := []
deriving DecidableEq, Repr

/-- The whole block. -/
structure State where
  /-- commands that wait, first in first out -/
  pending : List Instr
  /-- device time in ps (log entry 2) -/
  now : Nat
  /-- chain time in units of 2^-56 ns, without wrap (R296) -/
  chain : Nat
  /-- what the latest command sent or answered (log entry 4) -/
  out : List Output
  /-- MODEL FIELD: how many free values have been drawn (log entry 5) -/
  freeCount : Nat
  regs : List (RegId × BitVec 32)
  dev : DevState
  job : Option Job
  fw : Fw
  boot : Boot
  otp : Otp
  straps : Straps
  /-- programmings of flash and OTP of the latest instant that had any, newest first: a power failure then may leave them undone (R60, R69) -/
  programs : List Program
  /-- MFP ball input levels; the instant until which `ESTOP_N` is low after its filter -/
  mfpIn : BitVec 24
  /-- tracer outputs, and until when each is high (R439) -/
  tracerUntil : List (Nat × Nat)
  estopUntil : Nat
  msixOn : Bool
  /-- sessions that ended in the latest cycle that ended one: master, member for the proxy, instant (R87, R89) -/
  ended : List (Nat × Nat × Nat)
  pcie : Pcie
  /-- DRAM data bytes, boot flash bytes, check-byte differences, staging buffer, host memory (log entries 6, 7) -/
  mem : List Host.Cell
  chk : List Host.Cell
  flash : List Host.Cell
  stage : List Host.Cell
  hostMem : List Host.Cell
  capacity : Nat
  /-- rates whose lane PLL is locked (R265) -/
  lanePll : List Nat
  tx : Tx
  /-- CTLE peaking and the five DFE taps of each adapted lane (R268, R270) -/
  laneEq : List (Nat × List Nat)
  /-- the checker of a lane (R271): since when it runs, the bits of its own generator that an injection inverted, and how many errors it has
  counted -/
  laneChk : List (Nat × (Nat × List Nat × Nat))
  cad : Cad
  ports : List (Nat × HeadPort)
  ledger : Ledger
  chans : List (Nat × ChanSt)
  segs : List (Nat × SegSt)
  /-- stagger buffer: key 72*port + slot, value image line, drop codes by port jet and the instant of their writing (R195, R247) -/
  stagger : List (Nat × (Int × List (Nat × Nat) × Nat))
  /-- fault record queues by channel (R169) -/
  faults : List (Nat × List FaultRec)
  /-- where each hub's re-decoder stands after its latest block: segment, page, decoder state (R168) -/
  redec : List (Nat × (Nat × Nat × DecSt))
  /-- the latest scan of each table, by 4*channel + table, from boot step 10 on, and whether a later one is on record as late (R353, R375) -/
  scans : List (Nat × (Nat × Bool))
  raws : List RawPost
  lib : List (Nat × LibEntry)
  /-- ring post indices kept in DRAM across an orderly reset, by segment key (R131) -/
  kept : List (Nat × Kept)
  dram : Dram
  dma : List (Nat × DmaSt)
  crcPoly : List (Nat × Nat)
  rdg : Rdg
  axes : List (Nat × AxisSt)
  /-- latest 16 conversions of each sense input, newest first (R406); reference conversions by path -/
  conv : List (Nat × List Nat)
  refConv : List (Nat × List Nat)
  /-- scan slot that the next conversion may take, counted from device time 0 (R405) -/
  convSlot : Nat
  dlyMeas : List (Nat × Nat)
  snsFlags : List Nat
  /-- sense configuration as the latest width computation took it (R415) -/
  snsCfg : List (RegId × BitVec 32)
  /-- tracker steps that wait for a line boundary: field, value plus 1, instant -/
  sensePend : List (Nat × (Nat × Nat))
  commitAt : Option Nat
  slices : List Slice
  spareUsed : List Nat
  /-- slices that `BIST_RUN` still owes; failures that its slices found, as (group, instance, word address), first found first; instances
  that the periodic schedule has tested in its present run -/
  bistPlan : List (Nat × Nat)
  bistResult : List (Nat × Nat × Nat)
  bistDone : List (Nat × Nat)
  /-- when the schedule may start its next slice (R419) -/
  bistAt : Nat
  /-- context records of each detector: first and last (R423) -/
  ctxRec : List (Nat × (List Byte × List Byte))
  errEvent : List (Nat × Nat)
  inject : Option Inject
  counters : List (Nat × Nat)
  pmcCaps : List (Nat × Nat)
  lfsr : List (Nat × Nat)
  traceK : List (Nat × Nat)
  traces : List (Nat × Trace)
  winsel : List (Nat × Word)
  fab : Fab
deriving DecidableEq, Repr

/-- The machine at power-on with its rails good and internal reset not yet released (R49, R56, R57): every register
at its reset value, device state BOOT, no image running, empty memories; values the spec leaves open are those of
log entry 3. -/
def State.reset : State :=
  { pending := [], now := 0, chain := 0, out := [], freeCount := 0, regs := [], dev := .boot, job := none,
    fw := { running := false, rotation := 0, opens := [], respQ := [], deferred := none, resetPending := none,
            events := [], lost := 0, eseq := 0, mask := 0 },
    boot := { inReset := true, orderly := none, powered := true, releaseAfter := 50000000, clockHold := false, dramKept := false,
              cslot := 0, rslot := 0, ctlHeader := [], rdgHeader := [], ridgeInRom := true,
              kickstand := true },
    otp := { lc := .test, lcNext := none, uid := 0, idKey := true, keys := [] },
    straps := { rootN := false, i2ca := 0, boot := 0, testEn := false },
    programs := [], mfpIn := 0, tracerUntil := [], estopUntil := 0, msixOn := false, ended := [],
    pcie := { table := [], pending := [], logged := none },
    mem := [], chk := [], flash := [], stage := [], hostMem := [], capacity := 0x1000000000, lanePll := [], tx := {}, laneEq := [], laneChk := [],
    cad := { pos := 0, hw := 0, zpos := 0, selected := none, locked := false, everLocked := false, lockFrom := 0, fault := false,
             a := false, b := false, lastDir := 0, changes := 0, lastIllegal := none, tc := 0, intervals := [],
             fw := .track, eMax := 0, held := none, followFrom := 0, past := [], p0 := 0, fbase := 0, line := 0,
             prevStart := none, periods := [], starts := 0, warn := false, still := false, prevFired := none,
             cur := none, prev := none, older := [], rcfg := none, markPos := 0, markSeq := 0, recCount := 0, recChanged := false, rcd := none, caps := [] },
    ports := [],
    ledger := { runs := [], onchip := [], overflow := 0, moved := 0, seq := 0, fresh := 0, freshSince := none, threshold := 0,
                was := none },
    chans := [], segs := [], stagger := [], faults := [], redec := [], scans := [], raws := [], lib := [], kept := [],
    dram := { queues := [], trackers := [], quiet := [], crossed := [], debt := [], lastAlert := [],
              poison := [], track := [], scrub := 0, passEnd := 0, lateRaised := false, secondRaised := [], reads := [], turns := [],
              admitted := [], windowAt := [], levelAt := 0, mr4At := [], dqsAt := [], dqsHold := [],
              used := [], delay := [], issued := [] },
    dma := [], crcPoly := [],
    rdg := { hbAt := 0, expiredAt := none, recordCrc := 0, proto := 0 },
    axes := [], conv := [], refConv := [], convSlot := 0, dlyMeas := [], snsFlags := [], snsCfg := [], sensePend := [], commitAt := none,
    slices := [], spareUsed := [], bistPlan := [], bistResult := [], bistDone := [], bistAt := 0, ctxRec := [], errEvent := [], inject := none,
    counters := [], pmcCaps := [], lfsr := [], traceK := [], traces := [], winsel := [],
    fab := { goodSync := 0, parentPort := none, path := [], tsync := [], tsyncSeq := 0, slew := (0, 0), aligns := [], alignRun := [],
             tsyncAt := [], beatAt := none, kickOf := [],
             lastTag := [], ownTag := 0, msgTag := 0, back := [], reads := [], readTag := 0, proxyQ := [], lastPosts := [], ops := [],
             proxyMember := 0, members := [], nodes := [], links := [], plan := [], joinAt := none, recAt := none, timeCap := [],
             edgeIn := [], edgeSent := [], edgeUsed := [], far := [] } }

end Sys2Proof.Machine
end

