-- ==== Sys2Proof/Machine/Ops.lean ====
section
/-!
DEFINITION. The named operations that every meaning is written over: sparse maps, byte memories, the register store
and its fields, device time and chain time, outputs, free values, and the wrapper that runs a command's effect.
-/
namespace Sys2Proof.Machine

/-- The least of a list of numbers; 0 of none. -/
def listMin (l : List Nat) : Nat := l.tail.foldl min (l.headD 0)

/-! Sparse maps: an association list that lists no key twice and no value equal to the default. -/

/-- The value at key `k`; `d` where the map lists none. -/
def mapGet {α β : Type} [DecidableEq α] (d : β) : List (α × β) → α → β
  | [], _ => d
  | (k', v) :: m, k => if k' = k then v else mapGet d m k

/-- Insertion before the first greater key. -/
def mapInsert {α β : Type} (lt : α → α → Bool) (k : α) (v : β) : List (α × β) → List (α × β)
  | [] => [(k, v)]
  | (k', v') :: m => if lt k k' then (k, v) :: (k', v') :: m else (k', v') :: mapInsert lt k v m

/-- The map with `v` at `k`; writing the default removes the entry. -/
def mapSet {α β : Type} [DecidableEq α] [DecidableEq β] (lt : α → α → Bool) (d : β) (m : List (α × β)) (k : α) (v : β) :
    List (α × β) :=
  if v = d then m.filter (fun e => decide (e.1 ≠ k)) else mapInsert lt k v (m.filter (fun e => decide (e.1 ≠ k)))

/-- The order of natural keys. -/
def natLt (a b : Nat) : Bool := decide (a < b)

/-- A map of natural keys. -/
abbrev nset {β : Type} [DecidableEq β] (d : β) (m : List (Nat × β)) (k : Nat) (v : β) : List (Nat × β) := mapSet natLt d m k v

/-! Byte memories. -/

/-- Canonical form: addresses strictly rise and no entry equals what an unlisted address reads as. -/
abbrev Memory.wf (d : Byte) (m : List Host.Cell) : Prop :=
  List.Pairwise (fun a b : Host.Cell => a.1 < b.1) m ∧ ∀ c ∈ m, c.2 ≠ d

/-- One byte. -/
def Memory.read (d : Byte) (m : List Host.Cell) (a : Nat) : Byte := mapGet d m a

/-- One byte written. -/
def Memory.write (d : Byte) (m : List Host.Cell) (a : Nat) (b : Byte) : List Host.Cell := mapSet natLt d m a b

/-- `n` bytes from `a` upwards. -/
def Memory.readN (d : Byte) (m : List Host.Cell) (a n : Nat) : List Byte :=
  (List.range n).map fun i => Memory.read d m (a + i)

/-- Bytes written from `a` upwards. -/
def Memory.writeN (d : Byte) (m : List Host.Cell) (a : Nat) : List Byte → List Host.Cell
  | [] => m
  | b :: bs => Memory.writeN d (Memory.write d m a b) (a + 1) bs

/-! Bytes and words (R2: little-endian). -/

/-- The number that bytes hold, lowest first. -/
def leNat : List Byte → Nat
  | [] => 0
  | b :: bs => b.toNat + 256 * leNat bs

/-- `n` bytes of a number, lowest first. -/
def leBytes : Nat → Nat → List Byte
  | 0, _ => []
  | n + 1, v => BitVec.ofNat 8 v :: leBytes n (v / 256)

/-- The four bytes of a word. -/
def wordBytes (w : Word) : List Byte := leBytes 4 w.toNat

/-- Words of a byte string of whole words. -/
def bytesWords : List Byte → List Word
  | a :: b :: c :: d :: r => BitVec.ofNat 32 (leNat [a, b, c, d]) :: bytesWords r
  | _ => []

/-- Low and high half of a 64-bit value (R101). -/
def lo32 (v : Nat) : Nat := v % 2 ^ 32
def hi32 (v : Nat) : Nat := v / 2 ^ 32 % 2 ^ 32

/-- Two's complement of an integer in `n` bits. -/
def wrapInt (n : Nat) (v : Int) : Nat := (v % (2 ^ n : Int)).toNat

/-- The integer that an `n`-bit two's complement field holds. -/
def signed (n : Nat) (v : Nat) : Int := if v % 2 ^ n < 2 ^ (n - 1) then ((v % 2 ^ n : Nat) : Int) else ((v % 2 ^ n : Nat) : Int) - 2 ^ n

/-- Bit `n` of a number. -/
def bitOf (v n : Nat) : Bool := v / 2 ^ n % 2 = 1

/-- Bits `lo` to `lo + w - 1` of a number. -/
def bitsOf (v lo w : Nat) : Nat := v / 2 ^ lo % 2 ^ w

/-- A flag as a number. -/
def b2n (b : Bool) : Nat := if b then 1 else 0

/-- Addition that stays at a ceiling. -/
def satAdd (ceil a b : Nat) : Nat := min ceil (a + b)

/-- The status of the first test that fails. -/
def firstFail {α : Type} : List (Bool × α) → Option α
  | [] => none
  | (b, a) :: r => if b then some a else firstFail r

/-! The register store. -/

/-- The order of registers: by kind, then by index. -/
def RegId.lt (a b : RegId) : Bool :=
  decide (a.k.ctorIdx < b.k.ctorIdx ∨ a.k.ctorIdx = b.k.ctorIdx ∧ (a.i < b.i ∨ a.i = b.i ∧ a.j < b.j))

/-- What the register store holds for a register. -/
def State.reg (s : State) (r : RegId) : Word := mapGet (regReset r) s.regs r

/-- The register store with a register replaced. -/
def State.setReg (s : State) (r : RegId) (v : Word) : State :=
  { s with regs := mapSet RegId.lt (regReset r) s.regs r v }

/-- A field of a word. -/
def fieldOf (x : Word) (lo w : Nat) : Nat := x.toNat / 2 ^ lo % 2 ^ w

/-- A word with a field replaced; bits of `v` beyond the field are dropped. -/
def fieldSet (x : Word) (lo w v : Nat) : Word :=
  BitVec.ofNat 32 (x.toNat - fieldOf x lo w * 2 ^ lo + v % 2 ^ w * 2 ^ lo)

/-- Field `f` of the register of its kind with indices `i`, `j`. -/
def State.get (s : State) (f : Fld) (i j : Nat := 0) : Nat := fieldOf (s.reg ⟨f.k, i, j⟩) f.lo f.w

/-- Field `f` replaced. -/
def State.put (s : State) (f : Fld) (v : Nat) (i j : Nat := 0) : State :=
  s.setReg ⟨f.k, i, j⟩ (fieldSet (s.reg ⟨f.k, i, j⟩) f.lo f.w v)

/-- A one-bit field. -/
def State.flag (s : State) (f : Fld) (i j : Nat := 0) : Bool := s.get f i j = 1

/-- A field raised by `n`, staying at all ones (the saturating counts of the register tables). -/
def State.bump (s : State) (f : Fld) (i j : Nat := 0) (n : Nat := 1) : State :=
  s.put f (satAdd (2 ^ f.w - 1) (s.get f i j) n) i j

/-- A field raised by `n` modulo its width. -/
def State.bumpWrap (s : State) (f : Fld) (i j : Nat := 0) (n : Nat := 1) : State := s.put f (s.get f i j + n) i j

/-! Performance counters (R430 to R434). A counter is kept without wrap: its value is the remainder modulo 2^48, and its bit in
`PMC_OVF` is set while the quotient is not 0. -/

/-- Counters whose selection counts an event of an instance; the odd counter of a pair counts nothing of its own (R432). -/
def State.counting (s : State) (ev inst : Nat) : List Nat :=
  (s.regs.filterMap fun e =>
    if e.1.k = .pmcSel ∧ fieldOf e.2 0 16 = ev ∧ (fieldOf e.2 16 8 = inst ∨ fieldOf e.2 16 8 = 0xFF) then some e.1.i else none).filter
    fun n => n % 2 = 0 || !s.flag R.pmcSel_PAIR (n - 1)

/-- A counter after more occurrences; the wrap of a paired even counter carries into the next and sets no `PMC_OVF` bit, one set before
standing (R432). -/
def addCount (s : State) (n amount : Nat) (cs : List (Nat × Nat)) : List (Nat × Nat) :=
  let old := mapGet 0 cs n
  if n % 2 = 0 ∧ s.flag R.pmcSel_PAIR n = true then
    let v := old % 2 ^ 48 + amount
    nset 0 (nset 0 cs n (old / 2 ^ 48 * 2 ^ 48 + v % 2 ^ 48)) (n + 1) (mapGet 0 cs (n + 1) + v / 2 ^ 48)
  else nset 0 cs n (old + amount)

/-- The counters after `amount` occurrences of an event; frozen counters do not change (R434). -/
def tallied (s : State) (ev inst amount : Nat) (cs : List (Nat × Nat)) : List (Nat × Nat) :=
  (s.counting ev inst).foldl (fun cs n => if s.flag R.pmcCtrl_FREEZE then cs else addCount s n amount cs) cs

/-- Occurrences of an event of the catalogue (R433). -/
def State.tally (s : State) (ev inst : Nat) (amount : Nat := 1) : State := { s with counters := tallied s ev inst amount s.counters }

/-! Time (R296; log entry 2). -/

/-- Cadence ticks of 2.5 ns since power-on (R202). -/
def State.tick (s : State) : Nat := s.now / 2500

/-- The rate correction of R296 in units of 2^-40. -/
def State.rho (s : State) : Int := signed 32 (s.reg ⟨.fabRate, 0, 0⟩).toNat

/-- Chain time, 64 bits with 16 fractional bits of a nanosecond (R296). -/
def State.chainTime (s : State) : Nat := s.chain / 2 ^ 40 % 2 ^ 64

/-- What `n` cadence ticks add to chain time: each 2.5 ns * (1 + rho) (R296). -/
def chainStep (rho : Int) (n : Nat) : Nat := n * 163840 * ((2 ^ 40 : Int) + rho).toNat

/-- The freewheel withholds lines: ABSORB or REVERSED (R215, R232). -/
def State.withholds (s : State) : Bool :=
  let fw := if s.get R.cadCtrl_ROLE = 2 then (match s.cad.rcd with | some r => r.fw | none => .track) else if s.dev = .printing then s.cad.fw else .track
  decide (fw = .absorb ∨ fw = .reversed)

/-- The state at instant `t`: device time never falls, chain time advances by the ticks between and what is left of a slew
(R298), cycles are counted, and the outputs of the command before are gone. -/
def atTime (t : Nat) (s : State) : State :=
  let n := max s.now t / 2500 - s.now / 2500
  let (left, per) := s.fab.slew
  { s with now := max s.now t, chain := s.chain + (chainStep s.rho n + (min n left : Nat) * per).toNat, out := [],
           counters := tallied s 0x0404 0 (if s.withholds then n else 0) (tallied s 0x0001 0 (max s.now t / 1000 - s.now / 1000) s.counters),
           fab := { s.fab with slew := (left - n, per) } }

/-- The chain time of an instant `u` of device time not after now, at the present rate. -/
def State.chainAt (s : State) (u : Nat) : Nat := (s.chain - chainStep s.rho (s.now / 2500 - u / 2500)) / 2 ^ 40 % 2 ^ 64

/-! Outputs and free values. -/

/-- What the command sends or answers. -/
def State.emit (s : State) (o : Output) : State := { s with out := s.out ++ [o] }

/-- The index of the next free value (log entry 5). -/
def State.drawn (s : State) : State := { s with freeCount := s.freeCount + 1 }

/-! Binding of pannier channels (R73). -/

/-- Channel `n` is bound (R73). -/
def State.bound (s : State) (n : Nat) : Bool :=
  decide (1 ≤ s.get R.pnrBind_SEND n ∧ s.get R.pnrBind_SEND n ≤ 5 ∧ 1 ≤ s.get R.pnrBind_RECV n ∧ s.get R.pnrBind_RECV n ≤ 5
    ∧ s.get R.pnrBind_SEND n ≠ s.get R.pnrBind_RECV n)

/-- Master `m` is the sender, or the receiver, of a bound channel. -/
def State.isSender (s : State) (m : Master) (n : Nat) : Bool := s.bound n && decide (s.get R.pnrBind_SEND n = m.num)
def State.isReceiver (s : State) (m : Master) (n : Nat) : Bool := s.bound n && decide (s.get R.pnrBind_RECV n = m.num)

/-- The session of master `m`, for the proxy that of a member, has ended in this cycle (R87, R89). -/
def State.sessionOver (s : State) (m : Master) (member : Nat := 0) : Bool :=
  s.ended.any fun e => decide (e.1 = m.num ∧ e.2.1 = member ∧ e.2.2 / 1000 = s.now / 1000)

/-! Running a command. -/

/-- `GLB_DEVSTATE` follows the device state; JOB is the low half of the job ID in force, or 0 (R98). -/
def showState (s : State) : State :=
  (s.put R.glbDevstate_STATE s.dev.code).put R.glbDevstate_JOB (match s.job with | some j => j.id.toNat % 65536 | none => 0)

/-- The level of `HPEN<p>` (R377). -/
def hpen (s : State) (p : Nat) : Bool :=
  bitOf (s.get R.rdgHpen_GRANT) p && s.flag R.rdgLock_LOCK && s.flag R.rdgPstat_ENABLE p && !s.flag R.rdgStatus_SAFE
    && !s.flag R.rdgPstat_TRIP p

/-- No strobe is high at a port whose `HPEN` is low: the gate acts in the cycle in which `HPEN` falls (R255, R377). -/
def gateStrobes (s : State) : State :=
  { s with ports := s.ports.map fun e =>
      if hpen s e.1 then e else (e.1, { e.2 with strobes := e.2.strobes.map fun x => (x.1, { x.2 with high := false }) }) }

/-- Step 6 of an orderly entry: internal reset is asserted 530 us after the trigger (510 us for step 5 and 20 us; R50, log entry 71). -/
abbrev orderlyAssert := 530000000

/-- Internal reset is asserted: in a hard entry from its source, in an orderly one from step 6 (R50, R55). -/
def State.asserted (s : State) : Bool :=
  s.boot.inReset || (match s.boot.orderly with | some t0 => decide (t0 + orderlyAssert ≤ s.now) | none => false)

/-- Step 5 of an orderly entry: 510 us after the trigger the fabric ports enter kickstand mode and the PCIe link goes down (R50, log entry 71). -/
abbrev orderlyLinks := 510000000

/-- The links are shut by an orderly entry in progress (R50). -/
def State.shut (s : State) : Bool := match s.boot.orderly with | some t0 => decide (t0 + orderlyLinks ≤ s.now) | none => false

/-- The fabric ports are in kickstand mode: from step 5 of an orderly entry, or from a hard one, until the firmware takes them over (R50, R55,
R308). -/
def State.kicking (s : State) : Bool := (s.boot.kickstand && decide (s.boot.kickFrom ≤ s.now)) || s.shut

/-! Units. -/

def State.port (s : State) (p : Nat) : HeadPort := mapGet {} s.ports p
def State.setPort (s : State) (p : Nat) (h : HeadPort) : State := { s with ports := nset {} s.ports p h }
def State.chan (s : State) (c : Nat) : ChanSt := mapGet {} s.chans c
def State.setChan (s : State) (c : Nat) (h : ChanSt) : State := { s with chans := nset {} s.chans c h }
/-- Key of segment `g` of channel `c`. -/
def segKey (c g : Nat) : Nat := 128 * c + g
def State.seg (s : State) (c g : Nat) : SegSt := mapGet {} s.segs (segKey c g)
def State.setSeg (s : State) (c g : Nat) (h : SegSt) : State := { s with segs := nset {} s.segs (segKey c g) h }
def State.dmaCh (s : State) (n : Nat) : DmaSt := mapGet {} s.dma n
def State.setDma (s : State) (n : Nat) (h : DmaSt) : State := { s with dma := nset {} s.dma n h }
def State.axis (s : State) (a : Nat) : AxisSt := mapGet {} s.axes a
def State.setAxis (s : State) (a : Nat) (h : AxisSt) : State := { s with axes := nset {} s.axes a h }
def State.setCad (s : State) (c : Cad) : State := { s with cad := c }
def State.setFw (s : State) (f : Fw) : State := { s with fw := f }
def State.setJob (s : State) (j : Option Job) : State := { s with job := j }
def State.setFab (s : State) (f : Fab) : State := { s with fab := f }
def State.setDram (s : State) (d : Dram) : State := { s with dram := d }
def State.setRdg (s : State) (r : Rdg) : State := { s with rdg := r }
def State.setBoot (s : State) (b : Boot) : State := { s with boot := b }
def State.setLedger (s : State) (l : Ledger) : State := { s with ledger := l }
def State.strobe (s : State) (p k : Nat) : Strobe := mapGet {} (s.port p).strobes k
def State.setStrobe (s : State) (p k : Nat) (x : Strobe) : State :=
  s.setPort p { s.port p with strobes := nset {} (s.port p).strobes k x }

/-- The level that the board applies to a multi-function ball, as a command tells it (R42; log entry 57). -/
def State.tellBall (n : Nat) (up : Bool) (s : State) : State :=
  { s with mfpIn := if up then s.mfpIn ||| 1#24 <<< n else s.mfpIn &&& ~~~ (1#24 <<< n) }

/-- A step for each element, in order. -/
def forEach {α : Type} (l : List α) (s : State) (f : α → State → State) : State := l.foldl (fun s a => f a s) s

/-- Numbers below `n` whose bit is set in the mask. -/
def maskList (n m : Nat) : List Nat := (List.range n).filter (bitOf m)

end Sys2Proof.Machine
end

