-- ==== Sys2Proof/Machine/Crc.lean ====
section
/-!
DEFINITION. The checks the spec computes: the message check CRC-16 (R91) and CRC-32C, the end check of the stream
format (R155), of frames (R238), packets (R285) and loaded tables (R105).
-/
namespace Sys2Proof.Machine

/-- Eight shifts of a CRC register of `w` bits, most significant bit first. -/
def crcShiftL (w poly : Nat) : Nat → Nat → Nat
  | 0, r => r
  | n + 1, r => crcShiftL w poly n (if bitOf r (w - 1) then (2 * r % 2 ^ w) ^^^ poly else 2 * r % 2 ^ w)

/-- Eight shifts of a reflected CRC register. -/
def crcShiftR (poly : Nat) : Nat → Nat → Nat
  | 0, r => r
  | n + 1, r => crcShiftR poly n (if r % 2 = 1 then (r / 2) ^^^ poly else r / 2)

/-- One byte into a register that takes the most significant bit first. -/
def crcByteL (w poly r : Nat) (b : Byte) : Nat := crcShiftL w poly 8 (r ^^^ (b.toNat * 2 ^ (w - 8)))

/-- One byte into a reflected register. -/
def crcByteR (poly r : Nat) (b : Byte) : Nat := crcShiftR poly 8 (r ^^^ b.toNat)

/-- R91: polynomial 0x1021, initial value 0xFFFF, no reflection, final XOR 0. -/
def crc16 (bs : List Byte) : Nat := bs.foldl (crcByteL 16 0x1021) 0xFFFF

/-- The CRC-32C register after more bytes, before the final XOR. -/
def crc32cUpdate (r : Word) (bs : List Byte) : Word := BitVec.ofNat 32 (bs.foldl (crcByteR 0x82F63B78) r.toNat)

/-- CRC-32C: initial value all ones, reflected, final XOR all ones. -/
def crc32c (bs : List Byte) : Word := ~~~ crc32cUpdate 0xFFFFFFFF bs

/-- The bytes of message words, each word in little-endian order (R91). -/
def messageBytes (ws : List Word) : List Byte := ws.flatMap wordBytes

/-- The message check of words 0 to LEN - 2 (R91). -/
def messageCheck (ws : List Word) : Word := BitVec.ofNat 32 (crc16 (messageBytes ws))

/-- A message: its words padded with zeros to at least 7 and at most 15, and the check as its last word (R90, R94). -/
def sealMessage (ws : List Word) : List Word :=
  let body := (ws ++ List.replicate (7 - ws.length) 0).take 15
  body ++ [messageCheck body]

end Sys2Proof.Machine
end

