-- ==== Sys2Proof/Machine/Blocks.lean ====
section
/-!
DEFINITION. What device lanes carry: 66-bit blocks and their scrambler (R236, R266), the blocks of head link frames (R237, R238,
R242), block lock (R267), and the PRBS patterns with their checker (R271).
-/
namespace Sys2Proof.Machine

/-! Blocks (R236). -/

/-- Payload bits of eight bytes: byte 0 first, each least significant bit first (R266). -/
def blockBody (bytes : List Byte) : BitVec 64 := BitVec.ofNat 64 (leNat (bytes.take 8))

/-- The eight payload bytes of a block. -/
def blockBytes (b : Block) : List Byte := leBytes 8 b.body.toNat

/-- A data block: first bit 0, second 1. -/
def dataBlock (bytes : List Byte) : Block := { head := 0b01, body := blockBody bytes }

/-- A control block: first bit 1, second 0; byte 0 is its type and bytes not given are 0. -/
def controlBlock (type : Byte) (bytes : List Byte) : Block := { head := 0b10, body := blockBody (type :: bytes) }

def idleBlock : Block := controlBlock 0x1E []
def alignBlock (aseq : Nat) (sender : Byte) : Block := controlBlock 0x4B (0x5A :: leBytes 2 aseq ++ [sender])
def startBlock (start : List Byte) : Block := controlBlock 0x78 start
def endBlock (crc : Word) : Block := controlBlock 0x87 (leBytes 4 crc.toNat)

/-- What a received block is: a type that R236 does not list is unknown, and so is a sync header that is neither. -/
inductive BlockKind where
  | data | idle | align | start | fin | bad
deriving DecidableEq, Repr

def blockKind (b : Block) : BlockKind :=
  if b.head = 0b01 then .data
  else if b.head = 0b10 then
    match b.body.toNat % 256 with
    | 0x1E => .idle
    | 0x4B => .align
    | 0x78 => .start
    | 0x87 => .fin
    | _ => .bad
  else .bad

/-- Frame data in blocks of eight bytes; `n` blocks. -/
def dataBlocks : Nat → List Byte → List Block
  | 0, _ => []
  | n + 1, bs => dataBlock bs :: dataBlocks n (bs.drop 8)

/-- A frame: START, its data and END, back to back; the check covers START bytes 1 to 7 and the data (R237, R238). -/
def frameBlocks (start data : List Byte) : List Block :=
  startBlock start :: dataBlocks (data.length / 8) data ++ [endBlock (crc32c (start ++ data))]

/-- The duration of a 66-bit block in ps at a lane rate (R265). -/
def blockPs (rate : Nat) : Nat := if rate = 0 then 6400 else if rate = 1 then 5120 else 2560

/-! The scrambler (R266): *s_n* = *d_n* ⊕ *s_n*−39 ⊕ *s_n*−58. `h` holds the 58 bits sent before, the latest on top. -/

/-- The latest 58 bits sent, once 64 more have been. -/
def lastSent (w : BitVec 64) : BitVec 58 := (w >>> 6).setWidth 58

def scramble (h : BitVec 58) (d : BitVec 64) : BitVec 64 :=
  let x := d ^^^ (h.setWidth 64 >>> 19) ^^^ h.setWidth 64
  let early := (x.setWidth 39).setWidth 64
  x ^^^ (early <<< 39) ^^^ (early <<< 58)

def descramble (h : BitVec 58) (w : BitVec 64) : BitVec 64 := w ^^^ ((w ++ h) >>> 19).setWidth 64 ^^^ (w ++ h).setWidth 64

/-- Blocks as the lane carries them: sync headers are not scrambled. -/
def onLane : BitVec 58 → List Block → List Block
  | _, [] => []
  | h, b :: r => let w := scramble h b.body; { b with body := w } :: onLane (lastSent w) r

/-- Blocks as the receiver recovers them. -/
def offLane : BitVec 58 → List Block → List Block
  | _, [] => []
  | h, b :: r => { b with body := descramble h b.body } :: offLane (lastSent b.body) r

/-! Injection into what a lane sends (R274): 1 one payload bit, 2 a burst of `len` payload bits, 3 the first bit of the sync header. -/

def damageBlock (kind len : Nat) (b : Block) : Block :=
  if kind = 3 then { b with head := b.head ^^^ 0b10 } else { b with body := b.body ^^^ BitVec.ofNat 64 (2 ^ (if kind = 2 then len else 1) - 1) }

/-! Block lock (R267). -/

def validHead (h : BitVec 2) : Bool := decide (h = 0b01 ∨ h = 0b10)
/-- 64 consecutive valid sync headers. -/
def gainsLock (heads : List (BitVec 2)) : Bool := decide (heads.length = 64) && heads.all validHead
/-- 16 invalid sync headers in a window of 64 blocks. -/
def losesLock (heads : List (BitVec 2)) : Bool := decide (heads.length ≤ 64 ∧ 16 ≤ (heads.filter fun h => !validHead h).length)

/-! PRBS (R271). -/

/-- Exponents of a pattern's polynomial. -/
def prbsTaps (pattern : Nat) : Nat × Nat :=
  match pattern with | 0 => (7, 6) | 1 => (9, 5) | 2 => (15, 14) | 3 => (23, 18) | _ => (31, 28)

/-- The next bit of a pattern's sequence after the bits `seen`, latest first. -/
def prbsNext (pattern : Nat) (seen : List Bool) : Bool :=
  let (a, b) := prbsTaps pattern
  xor (seen.getD (a - 1) false) (seen.getD (b - 1) false)

/-- The checker: the bit since which no bit has differed, the bits that differed in the last 64 while it is synchronised, its count. -/
structure Checker where
  sync : Bool
  good : Nat
  recent : List Nat
  count : Nat
deriving DecidableEq, Repr

/-- The bit `n` differs from the sequence. A checker that has had 64 correct bits in a row counts it, and loses synchronisation at 16
within 64. -/
def Checker.differs (c : Checker) (n : Nat) : Checker :=
  let sync := c.sync || decide (c.good + 64 ≤ n)
  if sync = false then { c with good := n + 1 }
  else
    let recent := n :: (if c.sync then c.recent else []).filter fun m => decide (n < m + 64)
    if 16 ≤ recent.length then { sync := false, good := n + 1, recent := [], count := c.count + 1 }
    else { sync := true, good := n + 1, recent := recent, count := c.count + 1 }

/-- A run of `total` bits of which those listed, in rising order, differ: the count, and whether the checker is synchronised at the end. -/
def prbsRun (errors : List Nat) (total : Nat) : Nat × Bool :=
  let c := (errors.filter fun n => decide (n < total)).foldl Checker.differs { sync := false, good := 0, recent := [], count := 0 }
  (c.count, c.sync || decide (c.good + 64 ≤ total))

end Sys2Proof.Machine
end

