-- ==== Sys2Proof/Machine/Runway.lean ====
section
/-!
DEFINITION. The runway of a segment (R118, R121, R125): its posts, which of them have joined, and the lines to come.
-/
namespace Sys2Proof.Machine

/-- Image line at which the next page of a segment begins (R110, R225, R226). -/
def SegSt.pageEnd (g : SegSt) : Int := g.pageStart + g.pageLen + (g.deltas.lookup g.page).getD 0

/-- The post of a page that covers a page line, with the page line at which it begins, among those that satisfy a test (R118). -/
def SegSt.postWhere (ok : Post → Bool) (g : SegSt) (pg l : Nat) : Option (Nat × Post) := go 0 g.posts
where
  /-- the posts from page line `at_` on -/
  go (at_ : Nat) : List Post → Option (Nat × Post)
    | [] => none
    | p :: r =>
      if p.lib.isSome then (if p.page ≤ pg ∧ pg < p.page + p.pages ∧ l < p.lines then (if ok p then some (0, p) else none) else go at_ r)
      else if p.page = pg then (if l < at_ + p.lines then (if ok p then some (at_, p) else none) else go (at_ + p.lines) r)
      else go at_ r

/-- The post's lines have joined the runway (R121). -/
def Post.isIn (p : Post) : Bool := p.waits.isNone

/-- They had joined before the core cycle of an instant (R127). -/
def Post.inBefore (t : Nat) (p : Post) : Bool := p.isIn && decide (p.joined / 1000 < t / 1000)

/-- The post that covers a page line and has joined. -/
def SegSt.postAt (g : SegSt) (pg l : Nat) : Option (Nat × Post) := g.postWhere Post.isIn pg l

/-- Lines posted to a page that have joined. -/
def SegSt.postedIn (g : SegSt) (pg : Nat) : Nat :=
  ((g.posts.filter Post.isIn).map fun p => if p.lib.isSome then (if p.page ≤ pg ∧ pg < p.page + p.pages then p.lines else 0)
    else if p.page = pg then p.lines else 0).sum

/-- Lines posted to pages beyond a page that have joined. -/
def SegSt.postedBeyond (g : SegSt) (pg : Nat) : Nat :=
  ((g.posts.filter Post.isIn).map fun p => if p.lib.isSome then (p.page + p.pages - max p.page (pg + 1)) * p.lines
    else if pg < p.page then p.lines else 0).sum

/-- The first line without data of a page that has been given up (R128, R165). -/
def SegSt.gaveFrom (g : SegSt) (pg : Nat) : Option Int := (g.gave.find? fun e => decide (e.1 = pg)).map fun e => e.2.1

/-- Lines of the present page still to be decoded from posted data: none beyond a mark's cut or where the page is given up. -/
def SegSt.leftHere (g : SegSt) : Nat :=
  let left := g.postedIn g.page - g.dec.line
  if g.started ∧ g.pageEnd ≤ g.y then 0
  else match g.gaveFrom g.page with
    | some u => min left (u - g.y).toNat
    | none => left

/-- The runway of a segment (R125). -/
def SegSt.runway (g : SegSt) : Nat := g.leftHere + g.postedBeyond g.page

/-- The page that holds the next line the segment will decode. -/
def SegSt.nextPage (g : SegSt) : Nat :=
  let cut : Bool := decide (g.started = true ∧ g.pageEnd ≤ g.y) || (match g.gaveFrom g.page with | some u => decide (u ≤ g.y) | none => false)
  if cut then g.page + 1 else g.page

/-- Posts that wait for a response join as it is posted (R121). -/
def SegSt.join (q : Queue) (w : Word) (now : Nat) (g : SegSt) : SegSt :=
  { g with posts := g.posts.map fun p => if p.waits = some (q, w) then { p with waits := none, joined := now } else p }

/-- The response of a queue with word 0 `w` is posted: the lines that wait for it join, and word 2 reports the runway then (R121). -/
def joinPosts (q : Queue) (ws : List Word) (s : State) : List Word × State :=
  match s.segs.find? fun e => e.2.posts.any fun p => decide (p.waits = some (q, ws.headD 0)) with
  | none => (ws, s)
  | some e =>
    let g := e.2.join q (ws.headD 0) s.now
    (ws.set 2 (BitVec.ofNat 32 (min 0xFFFFFFFF g.runway)), { s with segs := s.segs.map fun x => if x.1 = e.1 then (x.1, g) else x })

end Sys2Proof.Machine
end

