-- ==== Sys2Proof/Machine/Events.lean ====
section
/-!
DEFINITION. Bells and posting on pannier channels by the device's own masters (R78, R80, R82, R83), events (R96),
responses (R94), completion of E commands (R95) and changes of device state (R98).
-/
namespace Sys2Proof.Machine

/-- A word of the MSI-X table: four words a vector, the fourth with the mask in bit 0, which is 1 until the host clears it (R277; log entry 74). -/
def State.msixWord (s : State) (i : Nat) : Word := mapGet (if i % 4 = 3 then 1 else 0) s.pcie.table i

/-- The vector is masked in the MSI-X table. -/
def State.msixMasked (s : State) (v : Nat) : Bool := (s.msixWord (4 * v + 3)).toNat % 2 = 1

/-- MSI-X is enabled: by the host once it has enumerated the function (R280). -/
def State.msix (s : State) : Bool := s.msixOn && decide (s.pcie.readyAt ≤ s.now)

/-- The MSI-X vector `v`, sent only while MSI-X is enabled (R83, R424); a masked one becomes pending (R277). -/
def sendMsix (v : Nat) (s : State) : State :=
  if s.msix = false then s
  else if s.msixMasked v then { s with pcie := { s.pcie with pending := if s.pcie.pending.contains v then s.pcie.pending else s.pcie.pending ++ [v] } }
  else s.emit (.msix v)

/-- Bell bit `b` of master `m` is set; the pair of bit and enable becoming 1 and 1 interrupts the host (R82, R83). -/
def ringBell (m b : Nat) (s : State) : State :=
  let old := (s.reg ⟨.pnrBell, m, 0⟩).toNat
  let s' := s.setReg ⟨.pnrBell, m, 0⟩ (BitVec.ofNat 32 (old ||| 2 ^ b))
  if m = 1 ∧ bitOf old b = false ∧ bitOf (s.reg ⟨.pnrBellen, 1, 0⟩).toNat b = true then sendMsix b s' else s'

/-- The post of a message on channel `n` (R78). -/
def postMessage (n : Nat) (s : State) : State :=
  let s := s.put R.pnrStatus_FULL 1 n
  let s := s.bumpWrap R.pnrStatus_PSEQ n
  let s := s.put R.pnrEpoch_STAMP (s.get R.pnrEpoch_EPOCH n) n
  let s := s.put R.pnrStatus_WFULL 0 n
  let s := s.put R.pnrTake_LEN (s.get R.pnrCtrl_LEN n) n
  ringBell (s.get R.pnrBind_RECV n) n s

/-- Message words written into channel `n` from word `i`. -/
def writeWords (n : Nat) : Nat → List Word → State → State
  | _, [], s => s
  | i, w :: ws, s => writeWords n (i + 1) ws (s.setReg ⟨.pnrMsg, n, i⟩ w)

/-- The device's own master posts sealed words on a channel that is not FULL. -/
def postWords (n : Nat) (ws : List Word) (s : State) : State :=
  postMessage n ((writeWords n 0 ws s).put R.pnrCtrl_LEN ws.length n)

/-- Word 0 of an event with its sequence number in bits [15:8] (R96). -/
def eventWord0 (code seq : Nat) : Word := BitVec.ofNat 32 (code * 65536 + seq % 256 * 256)

/-- The events held (their LEN and check: log entry 72): a queue of (channel, words with sequence 0). The next one is posted when its channel is free;
each event posted takes the next sequence number (R96, R103). -/
def pumpEvents (s : State) : State :=
  match s.fw.events with
  | [] => s
  | ws :: rest =>
    if s.flag R.pnrStatus_FULL 2 || !s.isSender .control 2 then s
    else
      let code := (ws.headD 0).toNat / 65536
      let s' := postWords 2 (sealMessage (eventWord0 code s.fw.eseq :: ws.drop 1)) s
      { s' with fw := { s'.fw with events := rest, eseq := (s.fw.eseq + 1) % 256 } }

/-- `EVENTS_LOST` carries the count as soon as there is room (R96). -/
def reportLost (s : State) : State :=
  if 0 < s.fw.lost ∧ s.fw.events.length < 64 then
    let ct := s.chainTime
    { s with fw := { s.fw with lost := 0, events := s.fw.events ++
      [[eventWord0 0x0F3F 0, BitVec.ofNat 32 (min 65535 s.fw.lost), BitVec.ofNat 32 (lo32 ct), BitVec.ofNat 32 (hi32 ct)]] } }
  else s

/-- Post what channel 2 can take, then let `EVENTS_LOST` follow. -/
def pumpChannel2 (s : State) : State := pumpEvents (reportLost (pumpEvents s))

/-- Whether `EVENT_MASK` suppresses the code: bit `n` suppresses 0x0F01 + n, but not `STATE_CHANGE`, `COMMAND_DONE`
and `EVENTS_LOST` (R96). -/
def suppressed (mask : Word) (code : Nat) : Bool :=
  decide (code ≠ 0x0F01 ∧ code ≠ 0x0F02 ∧ code ≠ 0x0F3F) && bitOf mask.toNat (code - 0x0F01)

/-- The words of an event that arises now (R96). -/
def eventWords (code subject : Nat) (ws : List Nat) (s : State) : List Word :=
  [eventWord0 code 0, BitVec.ofNat 32 subject, BitVec.ofNat 32 (lo32 s.chainTime), BitVec.ofNat 32 (hi32 s.chainTime)]
    ++ ws.map (BitVec.ofNat 32)

/-- An event arises: it is suppressed, held for channel 2, or counted as lost while 64 are held (R96). An event
arises only while the control firmware runs. -/
def event (code subject : Nat) (ws : List Nat) (s : State) : State :=
  if s.fw.running = false ∨ suppressed s.fw.mask code = true then s
  else if 64 ≤ s.fw.events.length then { s with fw := { s.fw with lost := s.fw.lost + 1 } }
  else pumpChannel2 { s with fw := { s.fw with events := s.fw.events ++ [eventWords code subject ws s] } }

/-- Source queue codes of R94. -/
def queueCode : Queue → Nat
  | .q0 => 0 | .q3 => 1 | .q8 => 2 | .ridge => 0

/-- The channel on which commands of the queue arrive (R93, R389). -/
def queueChannel : Queue → Nat
  | .q0 => 0 | .q3 => 3 | .q8 => 8 | .ridge => 4

/-- The channel on which their responses go (R93, R389). -/
def replyChannel : Queue → Nat
  | .q0 => 1 | .q3 => 1 | .q8 => 9 | .ridge => 5

/-- The master that answers on a channel: the ridge on channel 5, else the control core (R71, R93, R389). -/
def answerer (n : Nat) : Master := if n = 5 then .ridge else .control

/-- The response held first for channel `n` is posted when the channel is free and its master is the sender (R74; log entry 73); a `COMMAND_DONE` on channel 9 takes an
event sequence number then (R93, R96, R103). -/
def pumpReplies (n : Nat) (s : State) : State :=
  if s.flag R.pnrStatus_FULL n || !s.isSender (answerer n) n then s
  else match s.fw.respQ.find? (fun e => replyChannel e.1 = n) with
    | none => s
    | some e =>
      let isDone := decide ((e.2.headD 0).toNat / 65536 = 0x0F02)
      let j := joinPosts e.1 e.2 s
      let ws := if isDone then eventWord0 0x0F02 s.fw.eseq :: e.2.drop 1 else j.1
      let s' := postWords n (sealMessage ws) j.2
      { s' with fw := { s'.fw with respQ := s'.fw.respQ.erase e,
                                   eseq := if isDone then (s.fw.eseq + 1) % 256 else s.fw.eseq } }

/-- Words 0 and 1 of a response (R94). -/
def responseHead (op : Nat) (c : Cmd) (status detail : Nat) (s : State) : List Word :=
  [BitVec.ofNat 32 (op * 65536 + c.seq.toNat * 256 + queueCode c.q),
   BitVec.ofNat 32 (detail % 65536 * 65536 + s.dev.code * 256 + status)]

/-- The response to a command: held for its channel and posted when that is free (R93, R94). -/
def respond (op : Nat) (c : Cmd) (status detail : Nat) (ws : List Nat) (s : State) : State :=
  pumpReplies (replyChannel c.q)
    { s with fw := { s.fw with respQ := s.fw.respQ ++ [(c.q, responseHead op c status detail s ++ ws.map (BitVec.ofNat 32))] } }

/-- Subject of a `COMMAND_DONE` (R96). -/
def doneSubject (op : Nat) (c : Cmd) : Nat := op * 65536 + c.seq.toNat * 256 + queueCode c.q

/-- `COMMAND_DONE`: on channel 2, or on channel 9 for a command of channel 8 (R95, R103). -/
def postDone (op : Nat) (c : Cmd) (status detail : Nat) (ws : List Nat) (s : State) : State :=
  if c.q = .q8 then
    pumpReplies 9 { s with fw := { s.fw with respQ := s.fw.respQ ++
      [(.q8, eventWords 0x0F02 (doneSubject op c) ((detail % 65536 * 65536 + status) :: ws) s)] } }
  else event 0x0F02 (doneSubject op c) ((detail % 65536 * 65536 + status) :: ws) s

/-- The open E command of a queue (R95). -/
def openOf (q : Queue) (s : State) : Option OpenCmd := s.fw.opens.find? (fun o => o.cmd.q = q)

/-- The open E command with the opcode. -/
def openOp (op : Nat) (s : State) : Option OpenCmd := s.fw.opens.find? (fun o => o.op = op)

/-- An open E command ends: it leaves the open list and `COMMAND_DONE` reports it (R95). -/
def finish (o : OpenCmd) (status detail : Nat) (ws : List Nat) (s : State) : State :=
  postDone o.op o.cmd status detail ws { s with fw := { s.fw with opens := s.fw.opens.erase o } }

/-- A change of device state posts `STATE_CHANGE` with its cause (R96, R98). -/
def setDev (d : DevState) (cause : Nat) (s : State) : State :=
  if s.dev = d then showState s
  else event 0x0F01 d.code [s.dev.code, cause] (showState { s with dev := d })

end Sys2Proof.Machine
end

