-- ==== Sys2Proof/Machine/Streams.lean ====
section
/-!
DEFINITION. What the device's lanes transmit (R237, R242, R266, R274, R284, R287): the block streams of the head links and fabric ports, scrambled from
one block to the next, with IDLE and ALIGN blocks between frames, injections, and the packets that wait at a port.
-/
namespace Sys2Proof.Machine

/-- The rate code of a device lane: head lanes from `HP_CONFIG`, fabric lanes from their port (R265, R283). -/
def State.laneRate (s : State) (l : Nat) : Nat :=
  if l < 16 then s.get R.hptPcfg_RATE l else s.get R.fabPctrl_RATE ((l - 16) / 2)

/-- The lane is enabled: its head link is requested up, or its fabric port is enabled (R244, R268, R283). -/
def State.laneOn (s : State) (l : Nat) : Bool := if l < 16 then s.flag R.hptPcfg_UP l else s.flag R.fabPctrl_EN ((l - 16) / 2)

/-- The fabric port and lane of a device lane from 16 on (R264). -/
def fabLane (l : Nat) : Nat × Nat := ((l - 16) / 2, (l - 16) % 2)

/-! Streams. A link is numbered by its head port, a fabric port *q* by 16 + *q*. -/

/-- The lanes of a link (R264). -/
def linkLanes (k : Nat) : List Nat := if k < 16 then [k] else [2 * k - 16, 2 * k - 15]

/-- The link of a lane. -/
def linkOf (l : Nat) : Nat := if l < 16 then l else 16 + (fabLane l).1

/-- The time from one block of a link's stream to the next. -/
def State.slotPs (s : State) (k : Nat) : Nat := blockPs (s.laneRate ((linkLanes k).headD 0)) / (linkLanes k).length

/-- The link sends no coded blocks: a lane of it is off, or carries PRBS or retransmitted bits instead (R271, R272). -/
def State.streamPaused (s : State) (k : Nat) : Bool :=
  (linkLanes k).any fun l => !s.laneOn l || s.flag R.lnsCtrl_GENEN l || decide (s.get R.lnsCtrl_LOOP l = 2)

/-- ALIGN blocks of its own between packets: not at a port in kickstand, which passes those that it receives on (R308). -/
def State.ownAligns (s : State) (k : Nat) : Bool := decide (k < 16) || !s.kicking

/-- The stream of a link; one that has sent nothing begins now. -/
def State.streamIn (s : State) (x : Tx) (k : Nat) : Stream := (x.streams.lookup k).getD { at_ := s.now, count := 0, since := 0, aseq := 0 }

def Tx.setStream (x : Tx) (k : Nat) (y : Stream) : Tx := { x with streams := mapInsert natLt k y (x.streams.filter fun e => decide (e.1 ≠ k)) }

/-- A scrambler's state after lane power-up: any non-zero value (R266). -/
def freeStart (n : Nat) : BitVec 58 := if Config.freeScrambler n = 0 then 1 else Config.freeScrambler n

def Tx.setBits (x : Tx) (l : Nat) (h : BitVec 58) : Tx := { x with bits := mapInsert natLt l h (x.bits.filter fun e => decide (e.1 ≠ l)) }

/-- The scrambler's state of a lane. -/
def State.bitsIn (s : State) (x : Tx) (l : Nat) : BitVec 58 := (x.bits.lookup l).getD (freeStart s.freeCount)

/-- Blocks that have gone out, with their lanes, and what the transmitters hold then. -/
abbrev Sent := List (Nat × Block) × Tx

/-- The link's next block goes on its lane, scrambled; injections written to the lane before it act on it (R266, R274, R284). -/
def State.putBlock (s : State) (k : Nat) (a : Sent) (b : Block) : Sent :=
  let y := s.streamIn a.2 k
  let l := (linkLanes k).getD (y.count % (linkLanes k).length) 0
  let w := scramble (s.bitsIn a.2 l) b.body
  let hits := a.2.inj.filter fun e => decide (e.1 = l ∧ e.2.1 ≤ y.at_)
  let sent := hits.foldl (fun b e => damageBlock e.2.2.1 e.2.2.2 b) { b with body := w }
  let x := { a.2 with inj := a.2.inj.filter fun e => !decide (e.1 = l ∧ e.2.1 ≤ y.at_) }.setBits l (lastSent w)
  (a.1 ++ [(l, sent)], x.setStream k { y with at_ := y.at_ + s.slotPs k, count := y.count + 1, since := y.since + 1 })

/-- An ALIGN block of a fabric port (R284). -/
def fabAlign (aseq id port lane : Nat) : Block :=
  controlBlock 0x4B (0x5A :: leBytes 2 aseq ++ [BitVec.ofNat 8 id, BitVec.ofNat 8 (port + 4 * lane)])

/-- The link's ALIGN block, or a fabric port's pair, one on each lane: ASEQ rises with each (R242, R284). -/
def State.putAligns (s : State) (k : Nat) (a : Sent) : Sent :=
  (linkLanes k).foldl (fun a _ =>
    let y := s.streamIn a.2 k
    let r := s.putBlock k a (if k < 16 then alignBlock y.aseq (BitVec.ofNat 8 k) else fabAlign y.aseq (s.get R.fabId_ID) (k - 16) (y.count % 2))
    (r.1, r.2.setStream k { s.streamIn r.2 k with since := 0, aseq := (y.aseq + 1) % 65536 })) a

/-- The scrambler's state after `n` IDLE blocks. -/
def idleBits : Nat → BitVec 58 → BitVec 58
  | 0, h => h
  | n + 1, h => idleBits n (lastSent (scramble h idleBlock.body))

/-- `n` IDLE blocks go out, in turn on the lanes; an injection that falls on one is spent. -/
def State.putIdle (s : State) (k n : Nat) (x : Tx) : Tx :=
  let y := s.streamIn x k
  let len := (linkLanes k).length
  let x := (linkLanes k).zipIdx.foldl (fun (x : Tx) e =>
    let first := (e.2 + len - y.count % len) % len
    let m := (n + len - 1 - first) / len
    let spent (u : Nat) : Bool := decide (0 < m ∧ u ≤ y.at_ + (first + (m - 1) * len) * s.slotPs k)
    { x with inj := x.inj.filter fun i => !(decide (i.1 = e.1) && spent i.2.1) }.setBits e.1 (idleBits m (s.bitsIn x e.1))) x
  x.setStream k { y with at_ := y.at_ + n * s.slotPs k, count := y.count + n, since := y.since + n }

/-- ALIGN blocks that go out between frames or packets. -/
def State.sendAligns (s : State) (k : Nat) (r : Tx × List Output) : Tx × List Output :=
  let a := s.putAligns k ([], r.1)
  (a.2, r.2 ++ [.aligns k a.1])

/-- The link sends IDLE blocks up to an instant, and ALIGN blocks so that no 4,096 blocks pass without one (R237, R242, R284). `fuel` bounds the
ALIGN blocks. -/
def State.idleTo (s : State) : Nat → Nat → Nat → Tx × List Output → Tx × List Output
  | 0, _, _, r => r
  | fuel + 1, k, till, r =>
    let y := s.streamIn r.1 k
    let n := (till - y.at_ + s.slotPs k - 1) / s.slotPs k
    let room := 4096 - (linkLanes k).length - y.since
    if n = 0 then r
    else if s.streamPaused k then (r.1.setStream k { y with at_ := till }, r.2)
    else if n ≤ room ∨ s.ownAligns k = false then (s.putIdle k n r.1, r.2)
    else s.idleTo fuel k till (s.sendAligns k (s.putIdle k room r.1, r.2))

/-- The stream of a link up to an instant. -/
def State.upTo (s : State) (k till : Nat) (r : Tx × List Output) : Tx × List Output :=
  s.idleTo ((till - (s.streamIn r.1 k).at_) / (4000 * s.slotPs k) + 2) k till r

/-- Room for blocks that no other may interrupt: an ALIGN goes out first where one falls due among them (R237, R242, R284). -/
def State.makeRoom (s : State) (k n : Nat) (r : Tx × List Output) : Tx × List Output :=
  if 4096 - (linkLanes k).length < (s.streamIn r.1 k).since + n ∧ s.ownAligns k = true then s.sendAligns k r else r

/-- The blocks of a lane among those that went out. -/
def onLaneOf (l : Nat) (out : List (Nat × Block)) : List Block := (out.filter fun e => decide (e.1 = l)).map (·.2)

/-- What the transmitters hold and what went out becomes of the state. -/
def State.transmit (s : State) (f : Tx × List Output → Tx × List Output) : State :=
  { s with tx := (f (s.tx, [])).1, out := s.out ++ (f (s.tx, [])).2 }

/-- The stream of a link up to now, before something else becomes of it; what it sends between frames shows only then (log entry 144). -/
def catchUp (k : Nat) (s : State) : State := s.transmit (s.upTo k s.now)

/-- A link begins to send on a lane, at bring-up step 1 (R266, R268). -/
def startStream (l : Nat) (s : State) : State :=
  { s.drawn with tx := (s.tx.setBits l (freeStart s.freeCount)).setStream (linkOf l) { at_ := s.now, count := 0, since := 0, aseq := 0 } }

/-! Packets that wait at a port (R284, R285, R287). -/

/-- START block bytes 1 to 7 of a packet (R285). -/
def pktHeader (p : Pkt) : List Byte :=
  [BitVec.ofNat 8 (p.ty.toNat + 64 * p.cls.toNat), p.dest, p.src, p.ttl, p.length] ++ leBytes 2 p.tag.toNat

/-- A packet's blocks enter the stream of port `q`. -/
def State.streamPacket (s : State) (q : Nat) (p : Pkt) (r : Tx × List Output) : Tx × List Output :=
  let bs := frameBlocks (pktHeader p) p.payload
  let r := s.makeRoom (16 + q) bs.length r
  let a := bs.foldl (s.putBlock (16 + q)) ([], r.1)
  (a.2, r.2 ++ [.packet q p (onLaneOf (16 + 2 * q) a.1) (onLaneOf (17 + 2 * q) a.1)])

/-- The one of the waiting packets that goes next: TC0 first; of TC1 and TC2 the class that did not go last (R287). -/
def nextPacket (last : Nat) (w : List Waiting) : Option Waiting :=
  let tc (f : Nat → Bool) : Option Waiting := w.find? fun e => f e.pkt.cls.toNat
  let a := tc (· == 1)
  let b := tc (fun c => decide (1 < c))
  match tc (· == 0) with
  | some e => some e
  | none => if last = 1 then b.or a else a.or b

/-- The packets of port `q` that can begin by now go out, each at the earliest instant at which it waits and the port is free. `fuel` bounds
them. -/
def State.pumpPort (s : State) (q : Nat) : Nat → Tx × List Output → Tx × List Output
  | 0, r => r
  | fuel + 1, r =>
    let at_ := (s.streamIn r.1 (16 + q)).at_
    let mine := r.1.queue.filter fun e => decide (e.port = q ∧ e.since ≤ s.now)
    match mine with
    | [] => r
    | e :: _ =>
      if s.now + s.slotPs (16 + q) ≤ at_ then r
      else
        let r := if e.since ≤ at_ then r else s.upTo (16 + q) e.since r
        let at_ := (s.streamIn r.1 (16 + q)).at_
        match nextPacket (mapGet 0 r.1.turn q) (mine.filter fun e => decide (e.since ≤ at_)) with
        | none => r
        | some w =>
          let turn := if w.pkt.cls = 0 then r.1.turn else nset 0 r.1.turn q (min 2 w.pkt.cls.toNat)
          s.pumpPort q fuel (s.streamPacket q w.pkt ({ r.1 with queue := r.1.queue.erase w, turn := turn }, r.2))

/-- Every port sends what it can by now. -/
def pumpPorts (s : State) : State :=
  s.transmit fun r => (List.range 4).foldl (fun r q => s.pumpPort q s.tx.queue.length r) r

/-- A packet waits at a port, from now or from `after` ps later. -/
def queuePacket (q : Nat) (p : Pkt) (s : State) (after : Nat := 0) : State :=
  { s with tx := { s.tx with queue := s.tx.queue ++ [{ port := q, since := s.now + after, pkt := p }] } }

end Sys2Proof.Machine
end

