-- ==== Sys2Proof/Machine/Live.lean ====
section
/-!
DEFINITION. Running a command: the instant at which it reaches the device, and what its end shows and sends (R26, R98, R255, R287).
-/
namespace Sys2Proof.Machine

/-- The outcome of a command that always completes. -/
abbrev Result := Host.Outcome State Fault Refusal

/-- The end of a command that began in `s0`: packets go out, what the device shows of its state follows it, and neither the queue nor the time is
an effect of a command. -/
def conclude (s0 s : State) : State :=
  let s := gateStrobes (showState (pumpPorts s))
  { s with pending := s0.pending, now := s0.now }

/-- A command that reaches the device at `t`. While internal reset is asserted nothing but the reset logic, the ridge's and the
kickstand path's hardware acts (R26, R29, R57). -/
def live (t : Nat) (s : State) (f : State → State) : Result :=
  .next (conclude (atTime t s) (if (atTime t s).asserted then atTime t s else f (atTime t s)))

/-- A register write by a master: a host write is 4 bytes of posted writes (R430). -/
def liveWrite (m : Master) (t : Nat) (s : State) (f : State → State) : Result :=
  live t s fun s => f (if m = .host then s.tally 0x0601 0 4 else s)

/-- A register read by a master: a host read is answered with 4 bytes (R430). -/
def liveRead (m : Master) (t : Nat) (s : State) (f : State → State) : Result :=
  live t s fun s => f (if m = .host then s.tally 0x0602 0 4 else s)

/-- A command whose effect does not need the device out of reset. -/
def always (t : Nat) (s : State) (f : State → State) : Result := .next (conclude (atTime t s) (f (atTime t s)))

end Sys2Proof.Machine
end

