-- ==== Sys2Proof/Machine/Place.lean ====
section
/-!
DEFINITION. Where the web is: count period and interpolation (R211, R212), the effective position (R215, R232, R233), the fire line
of a position (R209) and the present fire line (R209, R210).
-/
namespace Sys2Proof.Machine

/-- The member is a follower. -/
def State.follows (s : State) : Bool := decide (s.get R.cadCtrl_ROLE = 2)

/-- The freewheel state: TRACK outside PRINTING; a follower applies its master's (R215, R232). -/
def State.fwNow (s : State) : FwState :=
  if s.follows then (match s.cad.rcd with | some r => r.fw | none => .track)
  else if s.dev = .printing then s.cad.fw else .track

/-- *T_c* in ticks with 8 fractional bits; none with no interval since the last change of direction (R211). -/
def Cad.tc8 (c : Cad) : Option Nat :=
  if c.intervals = [] then none else some (256 * c.intervals.sum / c.intervals.length)

/-- The position of the web stands still: no count for long, or the master reports so (R212, R231). -/
def State.stands (s : State) : Bool :=
  if s.follows then (match s.cad.rcd with | some r => decide (r.period = 0) | none => true) else s.cad.still

/-- What *E* follows now. -/
def State.gauge (s : State) : Gauge :=
  { pos := s.cad.pos, dir := s.cad.lastDir, tc := s.cad.tc, period := s.cad.tc8, still := s.cad.still, hw := s.cad.hw, fw := s.fwNow,
    far := s.follows, rcd := s.cad.rcd, held := s.cad.held, floor := if s.dev = .printing then some s.cad.eMax else none }

/-- The fraction of a count at tick `u`, in 2^-16 (R212). -/
def Gauge.frac (g : Gauge) (u : Nat) : Nat :=
  match g.period with
  | none => 0
  | some t =>
    if g.still then 0
    else if t = 0 then (if u ≤ g.tc then 0 else 65535)
    else min 65535 ((u - g.tc) * 2 ^ 24 / t)

/-- The interpolated position *P_i* at tick `u`, in 2^-16 counts. -/
def Gauge.piAt (g : Gauge) (u : Nat) : Int := g.pos * 65536 + g.dir * (g.frac u : Int)

/-- The master's position as a follower reckons it at chain time `ct` (R232). -/
def CadRec.pf (r : CadRec) (ct : Nat) : Int :=
  if r.period = 0 then r.pos * 65536
  else r.pos * 65536 + (if r.down then -1 else 1) * Int.fdiv (signed 64 (wrapInt 64 ((ct : Int) - r.tc)) * 512) (5 * r.period)

/-- The effective position *E* at tick `u`, chain time `ct`, in 2^-16 counts (R215, R232, R233). -/
def Gauge.e (g : Gauge) (u ct : Nat) : Int :=
  if g.far then
    match g.held, g.rcd with
    | some h, _ => h
    | none, none => 0
    | none, some r =>
      let e := if r.fw = .forward then max (r.hw * 65536) (r.pf ct) else r.hw * 65536
      match g.floor with | some f => max e f | none => e
  else match g.fw with
    | .track => g.piAt u
    | .forward => max (g.hw * 65536) (g.piAt u)
    | _ => g.hw * 65536

/-- What *E* followed at tick `u`. -/
def State.gaugeAt (s : State) (u : Nat) : Gauge :=
  match s.cad.past.reverse.find? fun e => decide (u < e.1) with | some e => e.2 | none => s.gauge

/-- *E* at a tick not after now. -/
def State.eAt (s : State) (u : Nat) : Int := (s.gaugeAt u).e u (s.chainAt (u * 2500))

/-- *E* now. -/
def State.e (s : State) : Int := s.gauge.e s.tick (s.chainAt (s.tick * 2500))

/-- What *E* has followed until now is kept for 16,384 ticks, longer than the latest strobe of a line is late (R218, R223). -/
def keepPast (s : State) : State :=
  s.setCad { s.cad with past := (s.tick, s.gauge) :: s.cad.past.filter fun e => decide (s.tick < e.1 + 16384) }

/-- Pitch, *P*0 and *F*_base in force. -/
def State.pitch (s : State) : Nat × Int × Int :=
  if s.follows then s.cad.rcfg.getD (0x100000, 0, 0) else (s.get R.cadPitch_K, s.cad.p0, s.cad.fbase)

/-- *F* of an effective position (R209). -/
def State.fireOf (s : State) (e : Int) : Int :=
  let (k, p0, fb) := s.pitch
  fb + Int.fdiv ((e - p0 * 65536) * 16) k

/-- Present fire line *F* (R209); outside PRINTING it falls with the web, between counts too (R210). -/
def State.fire (s : State) : Int :=
  if s.cad.everLocked = false then 0
  else if s.dev = .printing then s.cad.line
  else min s.cad.line (s.fireOf s.e)

/-- The line that starts next follows *F* down outside PRINTING (R210). -/
def fallLine (s : State) : State := if s.cad.everLocked then s.setCad { s.cad with line := s.fire } else s

end Sys2Proof.Machine
end

