-- ==== Sys2Proof/Machine/Errors.lean ====
section
/-!
DEFINITION. The error collector: counts, context records and routes (R423 to R426), and the armed injection (R427).
What a FATAL raise further does is `fatal` in Safe.lean.
-/
namespace Sys2Proof.Machine

/-- The register of a detector's host pending bit. -/
def hostPend (id : Nat) : RegId := ⟨.errHostpend, id / 32, 0⟩

/-- A context record of 32 bytes (R423). -/
def contextRecord (id inst : Nat) (addr : Option Nat) (status count : Nat) (inj : Bool) (s : State) : List Byte :=
  leBytes 8 s.chainTime ++ leBytes 2 id ++ leBytes 1 inst ++ leBytes 1 (b2n inj + 2 * b2n addr.isSome)
    ++ leBytes 4 count ++ leBytes 8 (match addr with | some a => a | none => wrapInt 64 s.fire)
    ++ leBytes 4 status ++ leBytes 4 0

/-- Whether a detector's raises are routed nowhere (R424): FATAL and SAFETY detectors cannot be masked. -/
def masked (id : Nat) (s : State) : Bool := decide (detClass id < 2) && s.flag R.errCfg_MASK id

/-- A detector's route bits (R424): always all three for FATAL and SAFETY. -/
def routeOf (id : Nat) (s : State) : Nat := if detClass id < 2 then s.get R.errCfg_ROUTE id else 7

/-- The host route: the pending bit is set, and its change from 0 to 1 sends vector 40 (R424). -/
def routeHost (id : Nat) (s : State) : State :=
  let old := (s.reg (hostPend id)).toNat
  let s' := s.setReg (hostPend id) (BitVec.ofNat 32 (old ||| 2 ^ (id % 32)))
  if bitOf old (id % 32) then s' else sendMsix 40 s'

/-- The control route: the `ERROR` event, at most once per detector in any 10 ms (R424; log entry 9). -/
def routeControl (id : Nat) (s : State) : State :=
  let last := mapGet 0 s.errEvent id
  if last = 0 ∨ last - 1 + 10000000000 ≤ s.now then
    event 0x0F06 id [detClass id, s.get R.errCount_COUNT id] { s with errEvent := nset 0 s.errEvent id (s.now + 1) }
  else s

/-- A raise is counted and recorded: the last record always, the first while the count is 0 (R423). -/
def recordRaise (id inst : Nat) (addr : Option Nat) (status : Nat) (inj : Bool) (s : State) : State :=
  let n := s.get R.errCount_COUNT id
  let r := contextRecord id inst addr status (satAdd (2 ^ 32 - 1) n 1) inj s
  let old := mapGet ([], []) s.ctxRec id
  let s := s.bump R.errCount_COUNT id
  { s with ctxRec := nset ([], []) s.ctxRec id (if n = 0 then r else old.1, r) }

/-- A raise: recorded, then routed to host and control unless masked (R423, R424). -/
def raise (id inst : Nat) (addr : Option Nat := none) (status : Nat := 0) (inj : Bool := false) (s : State) : State :=
  let s := recordRaise id inst addr status inj s
  if masked id s then s
  else
    let r := routeOf id s
    let s := if bitOf r 0 then routeHost id s else s
    if bitOf r 1 then routeControl id s else s

/-- Whether the armed injection is of this detector and instance and not of kind R (R427). -/
def armedFor (id inst : Nat) (s : State) : Bool :=
  match s.inject with
  | some i => decide (i.id = id ∧ i.inst = inst)
  | none => false

/-- The injection has acted and is disarmed (R427). -/
def disarm (s : State) : State :=
  { s with inject := none }.setReg ⟨.errInjstat, 0, 0⟩ 0

/-- A detector meets its failing condition, or its armed injection makes it so: the condition, whether it was
injected, and the state with a used injection disarmed (R427, kind S). -/
def meets (id inst : Nat) (cond : Bool) (s : State) : Bool × Bool × State :=
  if armedFor id inst s then (true, true, disarm s) else (cond, false, s)

/-- The AER header log takes the TLP concerned (R282; log entry 139). -/
def logHeader (s : State) : State :=
  { s with freeCount := s.freeCount + 4, pcie := { s.pcie with header := (List.range 4).map fun i => Config.freeWord (s.freeCount + i) } }

/-- A host write that R278 or R313 does not allow is discarded and logged as Unsupported Request, an AER uncorrectable error (R282; log entry 52). -/
def logUnsupported (off len : Nat) (s : State) : State := raise 27 0 none 0 false (logHeader { s with pcie := { s.pcie with logged := some (off, len) } })

end Sys2Proof.Machine
end

