-- ==== Sys2Proof/Machine/Rs.lean ====
section
/-!
DEFINITION. The DRAM code RS(80,64) over GF(2^8) (R329 to R332): encoding, syndromes, and the decoding of errors and
erasures with 2e + f at most 16. Symbol `n` of a stored word (64 data bytes, then 16 check bytes) is c_(79-n) (R330).
Polynomials are lists of coefficients, lowest first.
-/
namespace Sys2Proof.Machine

/-- Multiplication by the primitive element 0x02 (R329). -/
def gfDouble (a : Nat) : Nat := if 128 ≤ a then (2 * a) ^^^ 0x11D else 2 * a

/-- Product in GF(2^8) over the lowest `n` bits of the second factor. -/
def gfMulN : Nat → Nat → Nat → Nat
  | 0, _, _ => 0
  | n + 1, a, b => (if b % 2 = 1 then a else 0) ^^^ gfMulN n (gfDouble a) (b / 2)

/-- Product in GF(2^8). -/
def gfMul (a b : Nat) : Nat := gfMulN 8 a b

/-- Power of an element. -/
def gfPow (a : Nat) : Nat → Nat
  | 0 => 1
  | n + 1 => gfMul a (gfPow a n)

/-- The element's inverse, its 254th power. -/
def gfInv (a : Nat) : Nat :=
  let p := gfMul a a
  let p2 := gfMul p p
  let p3 := gfMul p2 p2
  let p4 := gfMul p3 p3
  let p5 := gfMul p4 p4
  let p6 := gfMul p5 p5
  let p7 := gfMul p6 p6
  gfMul p (gfMul p2 (gfMul p3 (gfMul p4 (gfMul p5 (gfMul p6 p7)))))

/-- alpha^n. -/
def gfAlpha (n : Nat) : Nat := gfPow 2 (n % 255)

/-- Sum of polynomials. -/
def polyAdd : List Nat → List Nat → List Nat
  | [], q => q
  | p, [] => p
  | a :: p, b :: q => (a ^^^ b) :: polyAdd p q

/-- A polynomial times an element. -/
def polyScale (k : Nat) (p : List Nat) : List Nat := p.map (gfMul k)

/-- Product of polynomials. -/
def polyMul : List Nat → List Nat → List Nat
  | [], _ => []
  | a :: p, q => polyAdd (polyScale a q) (0 :: polyMul p q)

/-- Value at `x`. -/
def polyEval (p : List Nat) (x : Nat) : Nat := p.foldr (fun c v => c ^^^ gfMul x v) 0

/-- Degree, with the zero polynomial at 0. -/
def polyDeg (p : List Nat) : Nat := (p.zipIdx.filter (fun e => decide (e.1 ≠ 0))).foldl (fun m e => max m e.2) 0

/-- Formal derivative: the coefficients of odd powers. -/
def polyDeriv (p : List Nat) : List Nat := (p.zipIdx.drop 1).map fun e => if e.2 % 2 = 1 then e.1 else 0

/-- g(x), the product of (x + alpha^i) for i from 0 to 15 (R329). -/
def rsGenerator : List Nat := (List.range 16).foldl (fun g i => polyMul g [gfAlpha i, 1]) [1]

/-- One data symbol into the remainder: highest coefficient first. -/
def rsShift (g : List Nat) (rem : List Nat) (d : Nat) : List Nat :=
  let f := d ^^^ rem.headD 0
  (rem.drop 1 ++ [0]).zipWith (· ^^^ ·) (polyScale f g)

/-- The 16 check bytes of 64 data bytes: the coefficients c_15 to c_0 of the remainder (R330). -/
def rsCheck (data : List Byte) : List Byte :=
  (data.foldl (fun rem d => rsShift (rsGenerator.take 16).reverse rem d.toNat) (List.replicate 16 0)).map (BitVec.ofNat 8)

/-- The syndromes S_0 to S_15 of a stored word of 80 bytes (R332). -/
def rsSyndromes (w : List Byte) : List Nat :=
  (List.range 16).map fun i => w.foldl (fun v b => gfMul (gfAlpha i) v ^^^ b.toNat) 0

/-- One step `r` (from f + 1 to 16) of the search for the shortest locator: locator, correction, length. -/
def rsLocStep (syn : List Nat) (f : Nat) (st : List Nat × List Nat × Nat) (r : Nat) : List Nat × List Nat × Nat :=
  let (lam, b, l) := st
  let d := (lam.zipIdx.map fun e => if e.2 < r then gfMul e.1 (syn.getD (r - 1 - e.2) 0) else 0).foldl (· ^^^ ·) 0
  if d = 0 then (lam, 0 :: b, l)
  else
    let lam' := polyAdd lam (polyScale d (0 :: b))
    if 2 * l ≤ r + f - 1 then (lam', polyScale (gfInv d) lam, r + f - l) else (lam', 0 :: b, l)

/-- The locator of errors and erasures. -/
def rsLocator (syn : List Nat) (erased : List Nat) : List Nat :=
  let gamma := erased.foldl (fun p k => polyMul p [1, gfAlpha k]) [1]
  let f := erased.length
  ((List.range (16 - f)).foldl (fun st i => rsLocStep syn f st (f + 1 + i)) (gamma, gamma, f)).1

/-- The error value at position `k` from the locator and evaluator. -/
def rsValue (lam om : List Nat) (k : Nat) : Nat :=
  let x := gfAlpha k
  let xi := gfInv x
  gfMul x (gfMul (polyEval om xi) (gfInv (polyEval (polyDeriv lam) xi)))

/-- Decoding (R332): none if the word is uncorrectable; else the corrected word. `erased` lists the positions marked
as erasures. -/
def rsDecode (w : List Byte) (erased : List Nat) : Option (List Byte) :=
  let syn := rsSyndromes w
  if syn.all (· = 0) then some w
  else
    let lam := rsLocator syn erased
    let deg := polyDeg lam
    let found := (List.range 80).filter fun k => decide (polyEval lam (gfInv (gfAlpha k)) = 0)
    let f := erased.length
    let om := (polyMul syn lam).take 16
    let fixed := w.zipIdx.map fun e =>
      if found.contains (79 - e.2) then BitVec.ofNat 8 (e.1.toNat ^^^ rsValue lam om (79 - e.2)) else e.1
    if found.length = deg ∧ 2 * (deg - f) + f ≤ 16 ∧ (rsSyndromes fixed).all (· = 0) = true then some fixed else none

/-- The device (0 to 9) of the subchannel that carries symbol `n` of a stored word (R331). -/
def symbolDevice (n : Nat) : Nat := n / 8

/-- Where bit `b` of symbol `k` of a stored word stands in a burst: its `DQ` pin of the subchannel and its beat, 0 to 15 (R331). -/
def symbolPlace (k b : Nat) : Nat × Nat := (4 * symbolDevice k + b % 4, 2 * (k % 8) + b / 4)

/-- The level of `DQ<pin>` in a beat of a burst that carries the word `w` (R331). -/
def dqLevel (w : List Byte) (pin beat : Nat) : Bool := (w.getD (8 * (pin / 4) + beat / 2) 0).getLsbD (4 * (beat % 2) + pin % 4)

/-- The positions of a device's symbols (R330, R331). -/
def devicePositions (n : Nat) : List Nat := (List.range 8).map fun j => 79 - (8 * n + j)

end Sys2Proof.Machine
end

