-- ==== Sys2Proof/Machine/DramCore.lean ====
section
/-!
DEFINITION. The DRAM controller's accesses (spec 14 and 15): address mapping (R314), the regions (R113), the write
queue (R319, R320), row disturbance (R322 to R324), decoding of reads (R332 to R335), the poison table (R335 to
R338), the repeat-correction tracker (R343, R344), erasures (R349) and narrow writes (R341, R342).
-/
namespace Sys2Proof.Machine

/-- The burst that holds an address. -/
def burstOf (a : Nat) : Nat := a - a % 64

/-- DIMM channel, subchannel, bank group, bank, rank and row of an address by geometry (R314). -/
structure DramLoc where
  c : Nat
  sub : Nat
  bg : Nat
  bank : Nat
  rank : Nat
  row : Nat
  /-- burst within the row, column bits C10 to C4 -/
  col : Nat
deriving DecidableEq, Repr

/-- The mapping of R314; geometry 2 is G2, others map as G1 and G3 do. -/
def dramLoc (geom a : Nat) : DramLoc :=
  let row := if geom = 2 then bitsOf a 21 16 else if geom = 3 then bitsOf a 20 17 else bitsOf a 20 16
  { c := bitsOf a 6 1, sub := bitsOf a 7 1, bg := bitsOf a 8 3 ^^^ row % 8, bank := bitsOf a 11 2,
    rank := if geom = 2 then bitsOf a 20 1 else 0, row := row, col := bitsOf a 13 7 }

/-- The mapping in force. -/
def State.loc (s : State) (a : Nat) : DramLoc := dramLoc (s.get R.dmcCfg_GEOM) a

/-- Number of a bank of a rank of a subchannel. -/
def bankKey (l : DramLoc) : Nat := ((l.c * 2 + l.sub) * 2 + l.rank) * 32 + l.bg * 4 + l.bank

/-- Whether DRAM is usable (R313). -/
def State.trained (s : State) : Bool := s.flag R.dmcCfg_TRAINED

/-! Regions (R113). -/

/-- 128 GiB installed? -/
def State.big (s : State) : Bool := decide (s.capacity = 0x2000000000)

/-- Base, size of one copy and copy count of the regions, in table order (R113). -/
def State.regions (s : State) : List (Nat × Nat × Nat) :=
  let mib := 0x100000
  let g := s.big
  [(0x0, 16 * mib, 1), (0x1000000, mib, 4), (0x1400000, 4 * mib, 1), (0x1800000, 8 * mib, 1), (0x2000000, 32 * mib, 1),
   (0x4000000, 16 * mib, 1), (0x5000000, 48 * mib, 1), (0x8000000, 1024 * mib, 1),
   (0x48000000, (if g then 16384 else 8192) * mib, 4),
   (if g then 0x1048000000 else 0x848000000, (if g then 64368 else 31600) * mib, 1),
   (if g then 0x1FFF000000 else 0xFFF000000, 16 * mib, 1)]

/-- Base of region `n`. -/
def State.regionBase (s : State) (n : Nat) : Nat := (s.regions.getD n (0, 0, 0)).1

/-- Size of one job ring. -/
def State.ringSize (s : State) : Nat := (s.regions.getD 8 (0, 0, 0)).2.1

/-- Base of the ring of channel `c`. -/
def State.ringBase (s : State) (c : Nat) : Nat := s.regionBase 8 + c * s.ringSize

/-- The region of an address: number, base of its copy, copy. -/
def State.regionOf (s : State) (a : Nat) : Option (Nat × Nat × Nat) :=
  ((s.regions.zipIdx).find? fun e => decide (e.1.1 ≤ a ∧ a < e.1.1 + e.1.2.1 * e.1.2.2)).map fun e =>
    (e.2, e.1.1 + (a - e.1.1) / e.1.2.1 * e.1.2.1, (a - e.1.1) / e.1.2.1)

/-- Whether an address lies in the controller reserved region (R113, R315). -/
def State.reservedAddr (s : State) (a : Nat) : Bool :=
  decide (s.regionBase 10 ≤ a ∧ a < s.regionBase 10 + 0x1000000)

/-! Stored words. -/

/-- The 80 bytes a burst stores: 64 data bytes and the check bytes, which are the encoded ones but for the listed
differences (log entry 6). -/
def State.stored (s : State) (a : Nat) : List Byte :=
  let data := Memory.readN 0 s.mem (burstOf a) 64
  data ++ ((rsCheck data).zipIdx.map fun e => e.1 ^^^ Memory.read 0 s.chk (burstOf a / 4 + e.2))

/-- A write reaches the DIMM: 64 data bytes with their check bytes, or the 80 bytes of a raw write (R354). -/
def storeBurst (a : Nat) (bs : List Byte) (s : State) : State :=
  let data := bs.take 64
  let diff := if bs.length = 80 then (bs.drop 64).zipWith (· ^^^ ·) (rsCheck data) else List.replicate 16 0
  { s with mem := Memory.writeN 0 s.mem a data, chk := Memory.writeN 0 s.chk (a / 4) diff }

/-! Row disturbance. -/

/-- The tracker of a bank after an activation of a row: the row's entry rises, or the row takes a free entry, or it
replaces the entry with the lowest count and takes that count plus 1 (R322). -/
def trackRow (rows : List (Nat × Nat)) (row : Nat) : List (Nat × Nat) × Nat :=
  match rows.find? (fun e => e.1 = row) with
  | some e => (rows.map (fun x => if x.1 = row then (row, e.2 + 1) else x), e.2 + 1)
  | none =>
    if rows.length < 16 then (rows ++ [(row, 1)], 1)
    else
      let low := rows.foldl (fun m e => min m e.2) (rows.headD (0, 0)).2
      let i := rows.findIdx (fun e => e.2 = low)
      (rows.set i (row, low + 1), low + 1)

/-- The field of a requester's throttle level (R324). -/
def levelField (req : Nat) : Fld := ⟨.dmcThrottle, 3 * req, 3⟩

/-- A row's count reached the threshold (R323): the crossing is recorded, the row restarts at 0, and the requester's
throttle level rises, at most to 4. -/
def rowCrossing (req : Nat) (l : DramLoc) (s : State) : State :=
  let s := s.bump R.dmcRhstat_COUNT
  let s := ((((s.put R.dmcRhstat_LASTREQ req).put R.dmcRhstat_CHAN l.c).put R.dmcRhstat_SUB l.sub).put R.dmcRhstat_RANK
    l.rank).put R.dmcRhstat_BANK (l.bg * 4 + l.bank)
  let s := s.put (levelField req) (min 4 (s.get (levelField req) + 1))
  let s := s.tally 0x0206 l.c
  let s := { s with dram := { s.dram with crossed := req :: s.dram.crossed.erase req,
                                          quiet := nset 0 s.dram.quiet req 0 } }
  raise 34 l.c none (s.reg ⟨.dmcRhstat, 0, 0⟩).toNat false s

/-- The controller cycle in ps at the speed in force: an eighth of the data rate's (R324, R327). -/
def State.dramCycle (s : State) : Nat := match s.get R.dmcCfg_SPEED with | 3 => 1250 | 2 => 1428 | _ => 1666

/-- Number of the subchannel of a location. -/
def subKey (l : DramLoc) : Nat := 2 * l.c + l.sub

/-- A request for a burst is queued or served: its subchannel is not idle (R326). -/
def noteUse (a : Nat) (s : State) : State := { s with dram := { s.dram with used := nset 0 s.dram.used (subKey (s.loc a)) s.now } }

/-- An activation for a requester's access to a burst (R317, R322, R323). -/
def activate (req a : Nat) (s : State) : State :=
  let l := s.loc a
  let s := s.tally 0x0204 l.c
  let (rows, n) := trackRow (mapGet [] s.dram.trackers (bankKey l)) l.row
  if s.get R.dmcRhcfg_THRESH ≤ n then
    rowCrossing req l { s with dram := { s.dram with
      trackers := nset [] s.dram.trackers (bankKey l) (rows.map fun e => if e.1 = l.row then (e.1, 0) else e) } }
  else { s with dram := { s.dram with trackers := nset [] s.dram.trackers (bankKey l) rows } }

/-- An access of the controller to a DIMM: an activate and a read, or a write of `data`, kept for 64 cycles (R317, R327). -/
def issue (req a : Nat) (data : Option (List Byte)) (s : State) : State :=
  let s := activate req a (noteUse a s)
  let recent := s.dram.issued.filter fun e => decide (s.now ≤ e.at_ + 64 * s.dramCycle)
  let s := { s with dram := { s.dram with issued := recent ++ [{ at_ := s.now, req := req, addr := a, data := data }] } }
  match data with
  | some bs => storeBurst a bs s
  | none => s

/-! Poison. -/

/-- The poison entry of a burst. -/
def State.poisonOf (s : State) (a : Nat) : Option (Nat × Poison) := s.dram.poison.find? (fun e => e.2.addr = burstOf a)

/-- The post of a job ring burst: segment key and post; posts kept over an orderly reset are posts of the ring (R131). -/
def State.postOf (s : State) (a : Nat) : Option (Nat × Post) :=
  ((s.segs.map fun e => (e.1, e.2.posts)) ++ (s.kept.filter fun e => decide (e.1 ∉ s.segs.map (·.1))).map fun e => (e.1, e.2.posts)).flatMap
    (fun e => e.2.map fun p => (e.1, p)) |>.find? fun e =>
    decide (e.2.lib = none ∧ e.2.addr ≤ a ∧ a < e.2.addr + e.2.ring)

/-- The owner record of a burst (R336). -/
def State.ownerRecord (s : State) (a : Nat) : List Byte :=
  let all := 0xFFFFFFFF
  match s.regionOf a with
  | some (8, base, c) =>
    match s.postOf a with
    | some (k, p) => leBytes 1 8 ++ leBytes 1 c ++ leBytes 1 (k % 128) ++ leBytes 1 (b2n p.raw) ++ leBytes 4 p.page
        ++ leBytes 4 p.index ++ leBytes 4 (a - p.addr)
    | none => leBytes 1 8 ++ leBytes 1 c ++ leBytes 1 0xFF ++ leBytes 1 2 ++ leBytes 4 all ++ leBytes 4 all
        ++ leBytes 4 (a - base)
  | some (9, base, _) =>
    match s.lib.find? (fun e => decide (e.2.addr ≤ a ∧ a < e.2.addr + 16 + e.2.stored)) with
    | some e => leBytes 1 9 ++ leBytes 1 0xFF ++ leBytes 1 0xFF ++ leBytes 1 0 ++ leBytes 4 e.1 ++ leBytes 4 all
        ++ leBytes 4 (a - e.2.addr)
    | none => leBytes 1 9 ++ leBytes 1 0xFF ++ leBytes 1 0xFF ++ leBytes 1 2 ++ leBytes 4 all ++ leBytes 4 all
        ++ leBytes 4 (a - base)
  | some (r, base, _) => leBytes 1 r ++ leBytes 1 0xFF ++ leBytes 1 0xFF ++ leBytes 1 2 ++ leBytes 4 all ++ leBytes 4 all
        ++ leBytes 4 (a - base)
  | none => leBytes 16 0

/-- `ECC_POISONSTAT.ENTRIES` shows the entries in use. -/
def showPoison (s : State) : State := s.put R.eccPoisonstat_ENTRIES s.dram.poison.length

/-- A burst enters the poison table at the lowest free index, unless it is there already or the table is full (R334,
R336, R337). Causes: 1 DEMAND, 2 SCRUB, 3 RMW (R340). -/
def poisonBurst (cause req a : Nat) (s : State) : State :=
  if (s.poisonOf a).isSome then s
  else if 256 ≤ s.dram.poison.length then raise 39 (s.loc a).c (some (burstOf a)) 0 false (s.bump R.eccPoisonstat_OVERFLOW)
  else
    let i := ((List.range 256).find? fun n => decide (n ∉ s.dram.poison.map (·.1))).getD 0
    let own := s.ownerRecord (burstOf a)
    let e : Poison := { addr := burstOf a, cause := cause, req := req, owner := own }
    let s := showPoison { s with dram := { s.dram with poison := mapInsert natLt i e s.dram.poison } }
    event 0x0F07 i ((bytesWords own).map BitVec.toNat ++ [lo32 (burstOf a), hi32 (burstOf a)]) s

/-! The repeat-correction tracker. -/

/-- `ECC_TRKSTAT.ENTRIES` shows the entries in use. -/
def showTracker (s : State) : State := s.put R.eccTrkstat_ENTRIES s.dram.track.length

/-- The tracker entry of a burst. -/
def State.trackOf (s : State) (a : Nat) : Option (Nat × Track) := s.dram.track.find? (fun e => e.2.addr = burstOf a)

/-- The tracker entry of a burst is removed. -/
def untrack (a : Nat) (s : State) : State :=
  showTracker { s with dram := { s.dram with track := s.dram.track.filter fun e => decide (e.2.addr ≠ burstOf a) } }

/-- The index a new tracker entry takes: the lowest free one, else that of the lowest count not marked REWRITTEN, the
lowest index on a tie (R343). -/
def trackSlot (t : List (Nat × Track)) : Option Nat :=
  match (List.range 64).find? fun n => decide (n ∉ t.map (·.1)) with
  | some n => some n
  | none =>
    let c := t.filter fun e => !e.2.rewritten
    match c with
    | [] => none
    | e :: r => some (r.foldl (fun m x => if x.2.count < m.2.count then x else m) e).1

/-! Erasures. -/

/-- The `ECC_ERASE` register and fields of a location: enable and device. -/
def eraseIndex (l : DramLoc) : Nat := 2 * l.c + l.rank
def eraseEn (sub : Nat) : Fld := if sub = 0 then R.eccErase_ENA else R.eccErase_ENB
def eraseDev (sub : Nat) : Fld := if sub = 0 then R.eccErase_DEVA else R.eccErase_DEVB

/-- Positions marked as erasures for a location (R332, R349). -/
def State.erasedAt (s : State) (l : DramLoc) : List Nat :=
  if s.flag (eraseEn l.sub) (eraseIndex l) then devicePositions (s.get (eraseDev l.sub) (eraseIndex l)) else []

/-- A device's COUNT reaches the threshold: it is erased if it is the first of its rank and subchannel, else it raises
`DRAM_SECOND_DEVICE` once per pass (R349). -/
def judgeDevice (l : DramLoc) (n : Nat) (s : State) : State :=
  let d := 10 * l.sub + n
  if s.get R.eccDev_COUNT (eraseIndex l) d < s.get R.eccCfg_ERTHRESH ∨ s.flag R.eccCfg_AUTOERASE = false then s
  else if s.flag (eraseEn l.sub) (eraseIndex l) then
    if s.get (eraseDev l.sub) (eraseIndex l) = n ∨ (eraseIndex l * 20 + d) ∈ s.dram.secondRaised then s
    else raise 44 l.c none 0 false
      { s with dram := { s.dram with secondRaised := (eraseIndex l * 20 + d) :: s.dram.secondRaised } }
  else
    let s := (s.put (eraseDev l.sub) n (eraseIndex l)).put (eraseEn l.sub) 1 (eraseIndex l)
    raise 43 l.c none (s.reg ⟨.eccErase, eraseIndex l, 0⟩).toNat false s

/-- A device's COUNT rises (R344, R346). -/
def countDevice (l : DramLoc) (n k : Nat) (s : State) : State :=
  judgeDevice l n (s.bump R.eccDev_COUNT (eraseIndex l) (10 * l.sub + n) k)

/-- Devices with corrected symbols between two stored words, with how many, lowest device first. -/
def damagedDevices (w w' : List Byte) : List (Nat × Nat) :=
  ((List.range 10).map fun n =>
    (n, ((w.zip w').zipIdx.filter fun e => decide (symbolDevice e.2 = n ∧ e.1.1 ≠ e.1.2)).length)).filter fun e => decide (0 < e.2)

/-- The tracker learns of a corrected read: a settlement of a REWRITTEN entry confirms a hard fault, else the count
rises (R343, R344). -/
def trackCorrected (a : Nat) (dev : List (Nat × Nat)) (s : State) : State :=
  match s.trackOf a with
  | some (i, e) =>
    if e.rewritten then
      let l := s.loc a
      let n := ((dev.drop 1).foldl (fun m x => if m.2 < x.2 then x else m) (dev.headD (0, 0))).1
      let s := s.bump R.eccDev_HARD (eraseIndex l) (10 * l.sub + n)
      let s := countDevice l n 16 s
      untrack a (raise 41 l.c (some (burstOf a)) 0 false s)
    else showTracker { s with dram := { s.dram with
        track := s.dram.track.map fun x => if x.1 = i then (i, { e with count := e.count + 1 }) else x } }
  | none =>
    match trackSlot s.dram.track with
    | none => s
    | some i => showTracker { s with dram := { s.dram with
        track := mapInsert natLt i { addr := burstOf a, count := 1, rewritten := false } (s.dram.track.filter fun x => decide (x.1 ≠ i)) } }

/-! Writes. -/

/-- The write queue of a DIMM channel, oldest first (R319). -/
def State.wq (s : State) (c : Nat) : List QWrite := mapGet [] s.dram.queues c

/-- The oldest write of a DIMM channel drains to the DIMM. -/
def drainOne (c : Nat) (s : State) : State :=
  match s.wq c with
  | [] => s
  | w :: r => issue w.req w.addr (some w.data) { s.tally 0x0202 c with dram := { s.dram with queues := nset [] s.dram.queues c r } }

/-- `n` writes drain. -/
def drainN : Nat → Nat → State → State
  | 0, _, s => s
  | n + 1, c, s => drainN n c (drainOne c s)

/-- A queue of HIGH entries drains down to LOW (R319). -/
def drainHigh (c : Nat) (s : State) : State :=
  if s.get R.dmcWq_HIGH ≤ (s.wq c).length then drainN ((s.wq c).length - s.get R.dmcWq_LOW) c s else s

/-- A write is accepted into the queue of its DIMM channel: a full queue first drains its oldest entry, and HIGH
entries drain down to LOW (R319). -/
def queueWrite (req a : Nat) (bs : List Byte) (s : State) : State :=
  let c := (s.loc a).c
  let s := noteUse a s
  let s := if 64 ≤ (s.wq c).length then drainOne c s else s
  drainHigh c { s with dram := { s.dram with queues := nset [] s.dram.queues c (s.wq c ++ [{ addr := burstOf a, req := req, data := bs }]) } }

/-- A write of a whole burst removes its poison and tracker entries as it is accepted (R338, R343). -/
def enqueue (req a : Nat) (bs : List Byte) (s : State) : State :=
  let s := queueWrite req a bs s
  untrack a (showPoison { s with dram := { s.dram with poison := s.dram.poison.filter fun e => decide (e.2.addr ≠ burstOf a) } })

/-- A tracker entry that has reached TRKTHRESH: the scrubber rewrites the burst with its corrected data and marks the entry
(R344; the scrubber's own rewrites remove no entry: log entry 33). -/
def rewriteTracked (a : Nat) (w : List Byte) (s : State) : State :=
  match s.trackOf a with
  | some (i, e) =>
    if e.rewritten ∨ e.count < s.get R.eccCfg_TRKTHRESH then s
    else
      let s := (queueWrite 6 a (w.take 64) s).bump R.eccTrkstat_REWRITES
      { s with dram := { s.dram with track := s.dram.track.map fun x => if x.1 = i then (i, { e with rewritten := true }) else x } }
  | none => s

/-! Reads. -/

/-- The latest queued write of a burst (R320). -/
def State.queued (s : State) (a : Nat) : Option QWrite := ((s.wq (s.loc a).c).filter fun w => decide (w.addr = burstOf a)).getLast?

/-- Bytes that an injection of kind D corrupts in a word (R427; log entry 10): `n` bytes of device 0 upwards. -/
def corruptWord (n : Nat) (w : List Byte) : List Byte := w.zipIdx.map fun e => if e.2 < n then e.1 ^^^ 0xFF else e.1

/-- The word a read receives, with an armed injection of detector 37 or 38 on the DIMM channel used (R427, R429):
the word, whether it was injected, the state. -/
def receiveWord (a : Nat) (s : State) : List Byte × Bool × State :=
  let c := (s.loc a).c
  let n := match s.inject with | some i => max 1 i.count | none => 1
  if armedFor 37 c s then (corruptWord (min 8 n) (s.stored a), true, disarm s)
  else if armedFor 38 c s then (corruptWord (max 9 (min 16 n)) (s.stored a), true, disarm s)
  else (s.stored a, false, s)

/-- A burst read decoded (R332 to R334): clean, corrected with the damaged devices, or none. -/
def decodeRead (a : Nat) (s : State) : Option (List Byte × List (Nat × Nat)) × Bool × State :=
  let (w, inj, s) := receiveWord a s
  let s := s.tally 0x0201 (s.loc a).c
  match rsDecode w (s.erasedAt (s.loc a)) with
  | none => (none, inj, s)
  | some w' => (some (w', damagedDevices w w'), inj, if w = w' then s else s.tally 0x0207 (s.loc a).c)

/-- A read of one burst by a requester, once chosen: 64 bytes, or none for a bus error (R320, R315, R332 to R335, R343, R344).
`cause` is the poison cause of an uncorrectable read. -/
def readChosen (req cause a : Nat) (s : State) : Option (List Byte) × State :=
  if s.trained = false then (none, s)
  else if s.reservedAddr a then (none, raise 33 (s.loc a).c (some a) 0 false s)
  else match s.queued a with
  | some w => (some (w.data.take 64), noteUse a s)
  | none =>
    if (s.poisonOf a).isSome then (none, s)
    else
      let (r, inj, s) := decodeRead a (issue req a none s)
      match r with
      | none =>
        let s := s.bump R.eccUncorr_COUNT
        let s := raise 38 (s.loc a).c (some (burstOf a)) 0 inj s
        (none, poisonBurst cause req a s)
      | some (w, []) =>
        let s := match s.trackOf a with | some (_, e) => if e.rewritten then untrack a s else s | none => s
        (some (w.take 64), s)
      | some (w, dev) =>
        let s := s.bump R.eccCorr_COUNT
        let s := raise 37 (s.loc a).c (some (burstOf a)) 0 inj s
        (some (w.take 64), rewriteTracked a w (trackCorrected a dev s))

/-! The choice among reads (R318, R320, R324). -/

/-- The class of a read that has waited since `u` (R318). -/
def readClass (r : ReadReq) (u now : Nat) : Nat :=
  let own := if r.req.val < 4 then (if r.redecode then 4 else 1) else if r.req.val < 6 then 3 else if r.req.val < 7 then 5 else 2
  if u + 20000000 < now then min own 2 else own

/-- When a requester is admitted to a DIMM channel next: once in 2^*t* cycles at throttle level *t* (R324). -/
def State.admitAt (s : State) (req d : Nat) : Nat :=
  match s.dram.admitted.lookup (2 * req + d) with
  | some u => max s.now (u + 2 ^ s.get (levelField req) * s.dramCycle)
  | none => s.now

/-- A requester's access is admitted. An access of another row of the table that comes sooner than the throttle admits it is taken as
admitted then, its delay being no part of the model: later accesses count from that instant (R324; log entry 142). -/
def takeTurn (req d : Nat) (s : State) : State :=
  { s with dram := { s.dram with admitted := nset 0 s.dram.admitted (2 * req + d) (s.admitAt req d) } }

/-- A subchannel's requests are held for a re-measurement (R326). -/
def State.dqsHeld (s : State) (l : DramLoc) : Bool := decide (s.now < mapGet 0 s.dram.dqsHold (subKey l))

/-- Reads of one requester, of a re-decoder apart from the others, complete in the order in which they were made (R318, R320; log entry
141). -/
def sameStream (r r' : ReadReq) : Bool := decide (r.req = r'.req ∧ r.redecode = r'.redecode)

/-- The oldest waiting read of each stream. -/
def State.firstReads (s : State) : List (ReadReq × Nat) :=
  s.dram.reads.foldl (fun acc e => if acc.any (fun x => sameStream x.1 e.1) then acc else acc ++ [e]) []

/-- Reads of a DIMM channel that may be chosen now, with their class, oldest first. -/
def State.choices (s : State) (d : Nat) : List (Nat × ReadReq × Nat) :=
  (s.firstReads.filter fun e =>
    decide ((s.loc e.1.addr).c = d ∧ s.admitAt e.1.req d ≤ s.now) && !s.dqsHeld (s.loc e.1.addr)).map fun e => (readClass e.1 e.2 s.now, e)

/-- The read that a DIMM channel serves next: the lowest class; within it the requester after the one served last, in ascending number;
its oldest read (R318; log entry 90). -/
def State.nextRead (s : State) (d : Nat) : Option (Nat × ReadReq × Nat) :=
  let all := s.choices d
  match all.map (·.1) with
  | [] => none
  | c :: cs =>
    let best := cs.foldl min c
    let mine := all.filter fun e => decide (e.1 = best)
    let reqs := mine.map fun e => e.2.1.req.val
    let after := reqs.filter fun r => decide (mapGet 0 s.dram.turns best ≤ r)
    let req := listMin (if after = [] then reqs else after)
    mine.find? fun e => decide (e.2.1.req.val = req)

/-- A waiting read leaves the choice, which turns to the requester after it in its class. -/
def claimTurn (c : Nat) (e : ReadReq × Nat) (s : State) : State :=
  takeTurn e.1.req (s.loc e.1.addr).c
    { s with dram := { s.dram with reads := s.dram.reads.erase e, turns := nset 0 s.dram.turns c (e.1.req + 1) } }

/-- The read chosen among those that wait is served and answered. -/
def answerRead (c : Nat) (e : ReadReq × Nat) (s : State) : State :=
  let r := readChosen e.1.req 1 (burstOf e.1.addr) (claimTurn c e s)
  r.2.emit (.burst e.1.req r.1)

/-- The reads that go before a read `e` are served, then it is taken itself: an older read of its stream on its own DIMM channel, and on
each channel whatever R318 chooses first. `fuel` bounds the reads. -/
def serveBefore : Nat → ReadReq × Nat → State → State
  | 0, e, s => claimTurn (readClass e.1 e.2 s.now) e s
  | fuel + 1, e, s =>
    match s.firstReads.find? fun x => sameStream x.1 e.1 with
    | none => s
    | some o =>
      match s.nextRead (s.loc o.1.addr).c with
      | some (c, x) => if x = e then claimTurn c e s else serveBefore fuel e (answerRead c x s)
      | none => if o = e then claimTurn (readClass e.1 e.2 s.now) e s else serveBefore fuel e (answerRead (readClass o.1 o.2 s.now) o s)

/-- An engine's read of a burst takes its place among the reads that wait (R318); with none waiting it is served at once. -/
def awaitTurn (redec : Bool) (req a : Nat) (s : State) : State :=
  if s.dram.reads = [] then takeTurn req (s.loc a).c s
  else
    let e : ReadReq × Nat := ({ req := Fin.ofNat 8 req, redecode := redec, addr := a }, s.now)
    serveBefore s.dram.reads.length e { s with dram := { s.dram with reads := s.dram.reads ++ [e] } }

/-- A read of one burst by an engine. -/
def readBurst (req cause a : Nat) (s : State) (redec : Bool := false) : Option (List Byte) × State :=
  readChosen req cause a (if s.trained then awaitTurn redec req a s else s)

/-- The waiting reads of a requester complete before a write that it makes after them (R320). `fuel` bounds them. -/
def serveOwn : Nat → Nat → State → State
  | 0, _, s => s
  | fuel + 1, req, s =>
    match s.dram.reads.find? fun e => decide (e.1.req.val = req) with
    | none => s
    | some e => serveOwn fuel req (answerRead (readClass e.1 e.2 s.now) e s)

/-- Bursts that a range of `n` bytes from `a` touches. -/
def burstsOf (a n : Nat) : List Nat := if n = 0 then [] else (List.range ((a + n - 1) / 64 - a / 64 + 1)).map fun i => burstOf a + 64 * i

/-- `n` bytes from `a` read by a requester; none if any burst ends as a bus error. -/
def dramRead (req a n : Nat) (s : State) : Option (List Byte) × State :=
  let r := (burstsOf a n).foldl (fun (acc : Option (List Byte) × State) b =>
    let x := readBurst req 1 b acc.2
    (match acc.1, x.1 with | some l, some d => some (l ++ d) | _, _ => none, x.2)) (some [], s)
  (r.1.map fun l => (l.drop (a % 64)).take n, r.2)

/-- A write of part of a burst: merged into a queued write, or a read-modify-write; an uncorrectable or poisoned burst
discards it (R341, R342). -/
def narrowBurst (req b off : Nat) (bs : List Byte) (s : State) : State :=
  let merge (d : List Byte) := d.take off ++ bs ++ d.drop (off + bs.length)
  match s.queued b with
  | some w =>
    let c := (s.loc b).c
    let q := s.wq c
    let i := q.length - 1 - (q.reverse.findIdx fun x => decide (x.addr = burstOf b))
    untrack b { s with dram := { s.dram with queues := nset [] s.dram.queues c (q.set i { w with data := merge (w.data.take 64) }) } }
  | none =>
    if (s.poisonOf b).isSome then raise 40 (s.loc b).c (some (burstOf b)) 0 false s
    else
      let (r, inj, s) := decodeRead b (issue req b none (awaitTurn false req b (s.tally 0x0203 (s.loc b).c)))
      match r with
      | none =>
        let s := s.bump R.eccUncorr_COUNT
        let s := raise 38 (s.loc b).c (some (burstOf b)) 0 inj s
        poisonBurst 3 req b (raise 40 (s.loc b).c (some (burstOf b)) 0 false s)
      | some (w, dev) =>
        let s := if dev = [] then s else trackCorrected b dev (raise 37 (s.loc b).c (some (burstOf b)) 0 inj (s.bump R.eccCorr_COUNT))
        enqueue req b (merge (w.take 64)) s

/-- A write of one burst's part by a requester (R315, R319, R341). -/
def writeBurst (req b off : Nat) (bs : List Byte) (s : State) : State :=
  if s.trained = false then s
  else if s.reservedAddr b then raise 33 (s.loc b).c (some b) 0 false s
  else
    let s := serveOwn s.dram.reads.length req s
    if off = 0 ∧ bs.length = 64 then enqueue req b bs (takeTurn req (s.loc b).c s) else narrowBurst req b off bs s

/-- The pieces of a write by burst: burst, offset, bytes. `fuel` bounds the pieces. -/
def splitWrite : Nat → Nat → List Byte → List (Nat × Nat × List Byte)
  | 0, _, _ => []
  | _, _, [] => []
  | fuel + 1, a, bs => (burstOf a, a % 64, bs.take (64 - a % 64)) :: splitWrite fuel (burstOf a + 64) (bs.drop (64 - a % 64))

/-- Bytes written from `a` upwards by a requester. -/
def dramWrite (req a : Nat) (bs : List Byte) (s : State) : State :=
  forEach (splitWrite (bs.length / 64 + 2) a bs) s fun e s => writeBurst req e.1 e.2.1 e.2.2 s

/-- A byte of DRAM as a read that the code does not fail would return it: queued data first, else the stored byte. -/
def State.dramByte (s : State) (a : Nat) : Byte :=
  match s.queued a with
  | some w => w.data.getD (a % 64) 0
  | none => Memory.read 0 s.mem a

end Sys2Proof.Machine
end

