-- ==== Sys2Proof/Machine/Trace.lean ====
section
/-!
DEFINITION. The tracer's records (R437 to R439): which lines are tagged, and the stamps of a traced line.
-/
namespace Sys2Proof.Machine

/-- A record awaits `TRACE_READ`. -/
def Trace.finished (r : Trace) : Bool := r.complete || r.abandoned

/-- Records that await `TRACE_READ` show. -/
def showTraces (s : State) : State := s.put R.pmcTrcstat_FINISHED (s.traces.filter fun e => e.2.finished).length

/-- A tracer ball pulses for 20 ns while ball group 5 is owned as FUNCTION (R439). -/
def tracePulse (n : Nat) (s : State) : State :=
  if fieldOf (s.reg ⟨.glbClaim0, 0, 0⟩) 20 4 = 2 then { s.emit (.tracerPulse n) with tracerUntil := nset 0 s.tracerUntil n (s.now + 20000) } else s

/-- Records changed where they are unfinished and match. -/
def mapTraces (sel : Trace → Bool) (f : Trace → Trace) (s : State) : State :=
  if (s.traces.any fun e => sel e.2 && !e.2.finished) then
    showTraces { s with traces := s.traces.map fun e => if sel e.2 && !e.2.finished then (e.1, f e.2) else e }
  else s

/-- Stamp `slot` of a record. -/
def Trace.stamp (slot ct : Nat) (r : Trace) : Trace := { r with stamps := (slot, ct) :: r.stamps.filter fun e => decide (e.1 ≠ slot) }

/-- A stage of an image line at the hub of a port: 0 decode start, at its first spoke, 1 decode end, at its last one, 2 assembly,
3 stagger write. -/
def traceImage (p : Nat) (y : Int) (slot : Nat) (s : State) : State :=
  let seen (r : Trace) : Bool := decide (slot = 0) && r.stamps.any fun e => decide (e.1 = 0)
  let sel (r : Trace) : Bool := decide (r.port = p ∧ r.y = y) && !seen r
  let s' := mapTraces sel (Trace.stamp slot s.chainTime) s
  if slot = 0 ∧ (s.traces.any fun e => sel e.2 && !e.2.finished) = true then tracePulse 0 s' else s'

/-- A stage of a fire line at a port: 4 frame sent, 5 start of scan. -/
def traceFire (p : Nat) (f : Int) (slot : Nat) (s : State) : State :=
  let sel (r : Trace) : Bool := decide (r.port = p ∧ r.f = f)
  let s' := mapTraces sel (Trace.stamp slot s.chainTime) s
  if slot = 4 ∧ (s.traces.any fun e => sel e.2 && !e.2.finished) = true then tracePulse 1 s' else s'

/-- A strobe of a traced line rises; the record is complete after the last of the port's strobes `ks`. -/
def traceStrobe (p k : Nat) (ks : List Nat) (f : Int) (s : State) : State :=
  let sel (r : Trace) : Bool := decide (r.port = p ∧ r.f = f)
  let first := s.traces.any fun e => sel e.2 && !e.2.finished && !(e.2.stamps.any fun x => decide (6 ≤ x.1))
  let put (r : Trace) : Trace :=
    let r := r.stamp (6 + k) s.chainTime
    { r with complete := ks.all fun j => r.stamps.any fun x => decide (x.1 = 6 + j) }
  let s' := mapTraces sel put s
  if first then tracePulse 2 s' else s'

/-- The port ledgers fire lines: their records are abandoned (R438). -/
def traceLedgered (p : Nat) (f : Int) (count : Nat) (s : State) : State :=
  mapTraces (fun r => decide (r.port = p ∧ f ≤ r.f ∧ r.f < f + count)) (fun r => { r with abandoned := true }) s

/-- A Galois step of the 24-bit register (R437; log entry 34). -/
def lfsrStep (v : Nat) : Nat := if v % 2 = 1 then (v / 2) ^^^ 0xE10000 else v / 2

/-- A decode instant of a channel: the register advances, and a tagged line takes a free record of the 16. -/
def traceDecode (ch p : Nat) (y f : Int) (s : State) : State :=
  let k := mapGet 0 s.traceK ch
  let v := lfsrStep (mapGet 1 s.lfsr ch)
  let s := { s with lfsr := nset 1 s.lfsr ch v }
  if k = 0 ∨ v % 2 ^ k ≠ 0 then s
  else match (List.range 16).find? fun i => !(s.traces.any fun e => decide (e.1 = i)) with
  | none => s.bump R.pmcTrcstat_MISSED
  | some i => { s with traces := s.traces ++ [(i, { ch := ch, port := p, complete := false, abandoned := false, y := y, f := f, t0 := s.now, stamps := [] })] }

end Sys2Proof.Machine
end

