-- ==== Sys2Proof/Machine/Ledger.lean ====
section
/-!
DEFINITION. The defect ledger (R18, R19, R259 to R263): runs of consecutive lines, their records, the ring, the
on-chip store and the overflow area.
-/
namespace Sys2Proof.Machine

/-- Whether a cause concerns the whole port (R259). -/
def portCause (cause : Nat) : Bool := decide (cause ∉ [2, 3, 6, 9])

/-- The 32 bytes of a record (R261). -/
def ledgerBytes (r : Run) (limit : Bool) (member seq : Nat) : List Byte :=
  leBytes 1 0x4C ++ leBytes 1 r.cause ++ leBytes 1 r.ch ++ leBytes 1 r.port ++ leBytes 1 r.seg ++ leBytes 1 member
    ++ leBytes 2 (b2n r.part + 2 * b2n limit) ++ leBytes 8 r.ct ++ leBytes 8 (wrapInt 64 r.first) ++ leBytes 4 r.count
    ++ leBytes 4 seq

/-- Ring size in records and base address of the ring. -/
def State.ringSlots (s : State) : Nat := s.get R.hptLdsize_SIZE
def State.ledgerBase (s : State) : Nat := 32 * s.get R.hptLdbase_ADDR

/-- The ring has no free record: (WR + 1) mod size = RD (R263); a ring not set has none. -/
def State.ringFull (s : State) : Bool :=
  decide (s.ringSlots < 2 ∨ (s.get R.hptLdwr_WR + 1) % s.ringSlots = s.get R.hptLdrd_RD)

/-- The overflow area: the last 1 MiB of the ledger region (R114). -/
def State.overflowBase (s : State) : Nat := s.regionBase 4 + 31 * 0x100000

/-- `HPT_LDSIZE.FULL` and `PENDING` show the ring and the on-chip store. -/
def showLedger (s : State) : State :=
  (s.put R.hptLdsize_FULL (b2n s.ringFull)).put R.hptLdsize_PENDING s.ledger.onchip.length

/-- `LEDGER_NEW` is posted when the records written since the last one reach the threshold, unless that is 0 (R263). -/
def ledgerNew (s : State) : State :=
  { event 0x0F05 (s.get R.hptLdwr_WR) [s.ledger.fresh] s with
    ledger := { s.ledger with fresh := 0, freshSince := none } }

/-- A record enters the ring: written at base + 32*WR, then WR advances (R263). -/
def ringWrite (bs : List Byte) (s : State) : State :=
  let wr := s.get R.hptLdwr_WR
  let s := dramWrite ((bs.getD 3 0).toNat / 4) (s.ledgerBase + 32 * wr) bs s
  let s := s.put R.hptLdwr_WR ((wr + 1) % s.ringSlots)
  let s := { s with ledger := { s.ledger with fresh := s.ledger.fresh + 1,
                                              freshSince := match s.ledger.freshSince with | some t => some t | none => some s.now } }
  if s.ledger.threshold ≠ 0 ∧ s.ledger.threshold ≤ s.ledger.fresh then ledgerNew s else s

/-- The halt that the records to be written make: the earliest of their lines (R128, R166). -/
def Job.rehalt (j : Job) : Job :=
  match j.haltRecs with
  | [] => { j with haltAt := none }
  | r :: rest =>
    let b := rest.foldl (fun b x => if x.2.2.2.2 < b.2.2.2.2 then x else b) r
    { j with haltAt := some (b.2.2.2.2, b.2.2.1) }

/-- A halt of the job is decided for line `f` with a ledger cause (R128, R166, R218, R228; 5 for R19); the earliest
line decided stands. -/
def haltAtLine (f : Int) (cause : Nat) (s : State) : State :=
  match s.job with
  | none => s
  | some j =>
    match j.haltAt with
    | some (g, _) => if g ≤ f then s else s.setJob (some { j with haltAt := some (f, cause) })
    | none => s.setJob (some { j with haltAt := some (f, cause) })

/-- The overflow area holds up to 32,768 records (R114). -/
abbrev overflowRoom := 32768

/-- PRINTING stops at the next line boundary for the ledger (R19). -/
def stopForLedger (s : State) : State :=
  match s.job with
  | some j => if s.dev = .printing ∧ j.ledgerPause = false then
      haltAtLine (s.cad.line + 1) 5 (s.setJob (some { j with ledgerPause := true })) else s
  | none => s

/-- A closed record: into the ring if it has a free record and none waits, else held on chip, at most 64, with
`LEDGER_FULL`, else written to the overflow area; a full on-chip store stops firing at the next line boundary
(R19). A full overflow area takes no record: `closeRun` (log entry 87). -/
def pushRecord (bs : List Byte) (s : State) : State :=
  let l := s.ledger
  if s.ringFull = false ∧ l.onchip = [] ∧ l.overflow = 0 then showLedger (ringWrite bs s)
  else if l.onchip.length < 64 ∧ l.overflow = 0 then
    let s := { s with ledger := { l with onchip := l.onchip ++ [bs] } }
    let s := if l.onchip = [] then event 0x0F04 1 [] s else s
    let s := if l.onchip.length + 1 = 64 then stopForLedger s else s
    showLedger s
  else
    let s := dramWrite ((bs.getD 3 0).toNat / 4) (s.overflowBase + 32 * l.overflow) bs s
    showLedger (stopForLedger { s with ledger := { s.ledger with overflow := l.overflow + 1 } })

/-- The record at a place of the overflow area, by a checked read: none where the read fails (R21) or the place is unused (R114). -/
def overflowRead (i : Nat) (s : State) : Option (List Byte) × State :=
  let r := dramRead 7 (s.overflowBase + 32 * i) 32 s
  (r.1.bind fun bs => if (bs.headD 0).toNat = 0 then none else some bs, r.2)

/-- Records held move into the ring in the order in which they closed, those on chip first, then those of the overflow
area, each zeroed as it is moved (R19). `fuel` bounds the moves. -/
def drainLedger : Nat → State → State
  | 0, s => showLedger s
  | fuel + 1, s =>
    if s.ringFull then showLedger s
    else match s.ledger.onchip with
    | bs :: rest => drainLedger fuel (ringWrite bs { s with ledger := { s.ledger with onchip := rest } })
    | [] =>
      let l := s.ledger
      if l.overflow ≤ l.moved then showLedger (s.setLedger { l with overflow := 0, moved := 0 })
      else
        let r := overflowRead l.moved s
        let s := match r.1 with
          | some bs => dramWrite 7 (s.overflowBase + 32 * l.moved) (List.replicate 32 0) (ringWrite bs r.2)
          | none => r.2
        drainLedger fuel (s.setLedger { s.ledger with moved := l.moved + 1 })

/-- The most moves that a drain may have to make. -/
def State.ledgerHeld (s : State) : Nat := s.ledger.onchip.length + (s.ledger.overflow - s.ledger.moved) + 2

/-- No place is left for a closed record: the ring, the on-chip store and the overflow area are full. -/
def State.ledgerStuck (s : State) : Bool :=
  (s.ringFull || decide (s.ledger.onchip ≠ [] ∨ 0 < s.ledger.overflow)) && decide (64 ≤ s.ledger.onchip.length ∨ 0 < s.ledger.overflow)
    && decide (overflowRoom ≤ s.ledger.overflow)

/-- A run closes: its record takes the next SEQ and enters the ledger (R261, R262). R19 argues that the overflow area does not fill while
the device is PAUSED and says nothing of a long SAFE or FAULT; where it has filled, the run stays open until a place is free (log entry
87: DESIGN CHOICE). -/
def closeRun (r : Run) (limit : Bool) (s : State) : State :=
  if s.ledgerStuck then (if s.ledger.runs.contains r then s else s.setLedger { s.ledger with runs := s.ledger.runs ++ [r] })
  else
    let n := s.ledger.seq + 1
    pushRecord (ledgerBytes r limit (s.get R.fabId_ID) n) (s.setLedger { s.ledger with runs := s.ledger.runs.erase r, seq := n })

/-- Order in which records that close together are queued: channel, port, segment, cause (R262). -/
def runLe (a b : Run) : Bool :=
  decide (a.ch * 2 ^ 24 + a.port * 2 ^ 16 + a.seg * 2 ^ 8 + a.cause ≤ b.ch * 2 ^ 24 + b.port * 2 ^ 16 + b.seg * 2 ^ 8 + b.cause)

/-- Insertion of a run in that order. -/
def insertRun (r : Run) : List Run → List Run
  | [] => [r]
  | x :: l => if runLe r x then r :: x :: l else x :: insertRun r l

/-- A line has broken a run: a later run of the same channel, port, segment and cause is open (R262). -/
def State.superseded (s : State) (r : Run) : Bool :=
  s.ledger.runs.any fun x => decide (x.ch = r.ch ∧ x.port = r.port ∧ x.seg = r.seg ∧ x.cause = r.cause ∧ r.first < x.first) && !x.whole

/-- Runs in the order of R262. -/
def sortRuns (l : List Run) : List Run := l.foldr insertRun []

/-- Runs that satisfy a test close together. -/
def closeRuns (p : Run → Bool) (limit : Bool) (s : State) : State :=
  forEach (sortRuns (s.ledger.runs.filter p)) s fun r s => closeRun r limit s

/-- A line (a fire line, or an image line at its fire line `y + D_p + S`) is ledgered: it extends the run of its
channel, port, segment, cause and PARTIAL flag if it is that run's next line, else it breaks that run and opens
one (R18, R262): the broken run closes with the others of the cycle (`settleRuns`). No run opens while the device is PAUSED for a full
ledger (R19). -/
def ledgerLine (port seg cause : Nat) (part : Bool) (line : Int) (ct : Nat) (s : State) : State :=
  let ch := port / 4
  let same (r : Run) : Bool := decide (r.ch = ch ∧ r.port = port ∧ r.seg = seg ∧ r.cause = cause) && !r.whole
  let s := traceLedgered port line 1 s
  match s.ledger.runs.find? (fun r => same r && decide (r.part = part ∧ r.next = line)) with
  | some r =>
    let r' := { r with count := r.count + 1, next := line + 1 }
    let s := { s.tally 0x0304 port with ledger := { s.ledger with runs := s.ledger.runs.map fun x => if x = r then r' else x } }
    if r'.count = 0xFFFFFFFF then closeRun r' true s else s
  | none =>
    if s.dev = .paused ∧ (match s.job with | some j => j.ledgerPause | none => false) = true then s
    else if s.ledger.runs.any fun r => same r && decide (r.first ≤ line ∧ line < r.next ∧ r.part = part) then s
    else
      let s := s.tally 0x0304 port
      { s with ledger := { s.ledger with runs := s.ledger.runs ++
        [{ ch := ch, port := port, seg := seg, cause := cause, part := part, ct := ct, first := line, count := 1,
           next := line + 1, opened := s.now }] } }

/-- A record written whole (R128, R192, R222): no line extends it, and it closes with the runs of the cycle (R262). -/
def ledgerWhole (port seg cause : Nat) (part : Bool) (first : Int) (count ct : Nat) (s : State) : State :=
  let s := (traceLedgered port first count s).tally 0x0304 port count
  { s with ledger := { s.ledger with runs := s.ledger.runs ++ [{ ch := port / 4, port := port, seg := seg, cause := cause, part := part, ct := ct, first := first, count := count, next := first + count, opened := s.now, whole := true }] } }

/-- Runs that a line has broken, and records written whole, close in the order of R262. -/
def settleBroken (s : State) : State := closeRuns (fun r => r.whole || s.superseded r) false s

/-- A resume moves the fire line of the image lines to come (R221). -/
def shiftRuns (d : Int) (s : State) : State :=
  { s with traces := s.traces.map (fun e => (e.1, if e.2.finished then e.2 else { e.2 with f := e.2.f + d })),
           segs := s.segs.map (fun e => (e.1, { e.2 with lost := e.2.lost.map fun x => if x.2.2.2.1 = 0 then (x.1, x.2.1 + d, x.2.2) else x })),
           ledger := { s.ledger with runs := s.ledger.runs.map fun r => if portCause r.cause ∨ r.whole then r else { r with next := r.next + d } } }

end Sys2Proof.Machine
end

