-- ==== Sys2Proof/Machine/Safe.lean ====
section
/-!
DEFINITION. Head power (R377), the entry to the safe state (R386, R387), ends of motion commands (R402), FATAL errors
(R20, R98, R424) and what follows for the job (R98).
-/
namespace Sys2Proof.Machine

/-- Lines of which strobes may be high or still due, oldest first (R218). -/
def State.liveLines (s : State) : List LineFire := s.cad.older.reverse ++ [s.cad.prev, s.cad.cur].filterMap id

/-- Chain time of the fired start of a line. -/
def State.firedAt (s : State) (f : Int) : Nat :=
  match s.liveLines.find? fun l => decide (l.f = f) with | some l => l.ctFired | none => s.chainTime

/-- Strobes of a port that are high are forced low (R255, R387). A line whose pulse is cut is not fired as intended: it is recorded with
cause `SAFE_STATE`, in part, since some jets of it fired (R18; log entry 88: DEDUCED). -/
def dropStrobes (p : Nat) (s : State) : State :=
  let lined (s : State) : Bool := s.flag R.hptPstat_ARMED p && s.job.isSome
  settleBroken <| forEach ((s.port p).strobes.filter fun e => e.2.high) s fun e s =>
    let s := (s.setStrobe p e.1 { e.2 with high := false, fallAt := s.now }).emit (.strobeFall p e.1)
    match e.2.lastLine with
    | some f => if lined s then ledgerLine p 0xFF 8 true f (s.firedAt f) s else s
    | none => s

/-- Ports whose `HPEN` is low have no strobe high (R255, R377). -/
def settleHpen (s : State) : State := forEach (List.range 16) s fun p s => if hpen s p then s else dropStrobes p s

/-- The ridge's checks of θ begin on a port that is neither armed nor granted yet; its 5 ms run from there (R382). -/
def watchTheta (p : Nat) (s : State) : State :=
  if s.flag R.hptPstat_ARMED p || bitOf (s.get R.rdgHpen_GRANT) p then s else s.setPort p { s.port p with thetaAt := s.now }

/-- GRANT bits replaced (R377). -/
def setGrant (g : Nat) (s : State) : State := settleHpen ((forEach (maskList 16 g) s watchTheta).put R.rdgHpen_GRANT g)

/-- A port trips: TRIP is set and its GRANT bit clears in the same cycle (R377). -/
def tripPort (p : Nat) (s : State) : State :=
  let s := s.put R.rdgPstat_TRIP 1 p
  setGrant (s.get R.rdgHpen_GRANT - (if bitOf (s.get R.rdgHpen_GRANT) p then 2 ^ p else 0)) s

/-! Ends of motion commands. -/

/-- Axes that move with one of those named: the same coordinated move (R403). -/
def movingWith (l : List Nat) (s : State) : List Nat :=
  (List.range 8).filter fun a => (s.axis a).moving && l.any fun b => decide (a = b) || ((s.axis b).moving && decide ((s.axis a).group = (s.axis b).group))

/-- An axis stops with FAULT set and HOMED cleared; `fault` 0 leaves HOMED as it is (R402). -/
def stopAxis (fault a : Nat) (s : State) : State :=
  let s := s.setAxis a { s.axis a with moving := false, homing := false, phase := 0, left := 0, release := none, recent := [] }
  let s := s.put R.motAxStat_FAULT fault a
  let s := if fault = 0 then s else s.put R.motAxStat_HOMED 0 a
  s.put R.motAxStat_STATE (if (s.axis a).configured then 1 else 0) a

/-- The axes and every axis of their moves stop; the commands that moved them end with the status (R402, R403). -/
def endMotion (l : List Nat) (fault status : Nat) (s : State) : State :=
  let m := movingWith l s
  let opens := s.fw.opens.filter fun o => decide (o.op = 0x0902 ∨ o.op = 0x0903) && o.data.any fun a => m.contains a
  let s := forEach m s fun a s => stopAxis fault a s
  forEach opens s fun o s =>
    let longest := o.data.headD 0
    finish o status 0 (if o.op = 0x0902 then [s.get R.motAxPos_POS longest] else []) s

/-! The safe state. -/

/-- The safe state is entered, or a further cause is latched: strobes and `HPEN` fall, GRANT and the motion gate
clear, open motion commands end, and the entry raises `RIDGE_SAFE` (R386, R387, R402). -/
def latchSafe (bit : Nat) (s : State) : State :=
  let was := s.flag R.rdgStatus_SAFE
  let s := s.put R.rdgCause_CAUSE (s.get R.rdgCause_CAUSE ||| 2 ^ bit)
  let s := s.put R.rdgStatus_SAFE 1
  let s := setGrant 0 s
  let s := s.put R.rdgMoten_GATE 0
  let s := endMotion (List.range 8) 6 4 s
  if was then s else raise 55 0 none 0 false s

/-- What a stop of firing does to the job: a pending start or resume is cancelled, and lines not fired begin at the
next line (R98, R255). Halts whose line has not come stand for the resume (R166). -/
def interruptJob (s : State) : State :=
  match s.job with
  | none => s
  | some j => s.setJob (some { j.rehalt with startAt := none, resumeAt := none, pauseAt := none, abortAt := none,
                                             stoppedAt := if s.dev = .printing then s.cad.line + 1 else j.stoppedAt })

/-- The ridge informed of a FATAL error holds the safe state with cause FATAL, and the device enters FAULT from any
state but HELD (R98, R424). -/
def enterFault (s : State) : State :=
  let s := latchSafe 4 s
  if s.dev = .held then s else setDev .fault 3 (interruptJob s)

/-- A FATAL error of R20 waits for the line boundary. -/
def State.fatalWaits (s : State) : Bool := match s.job with | some j => j.fatal | none => false

/-- Entry to the safe state; READY, ARMED, PRINTING and PAUSED become SAFE with cause 2 (R98, R387). A FATAL error that waits for the
line boundary takes the device to FAULT at once. -/
def enterSafe (bit : Nat) (s : State) : State :=
  let s := latchSafe bit s
  let s := if s.dev = .ready ∨ s.dev = .armed ∨ s.dev = .printing ∨ s.dev = .paused then setDev .safe 2 (interruptJob s) else s
  if s.fatalWaits then enterFault s else s

/-- A FATAL error (R20, R98, R424): one in the SRAMs or tables of the firing path stops firing at the current line boundary, so that in
PRINTING the safe state and FAULT begin there (log entry 85: DEDUCED); any other acts at once. -/
def fatal (id inst : Nat) (addr : Option Nat := none) (status : Nat := 0) (inj : Bool := false) (s : State) : State :=
  let s := raise id inst addr status inj s
  match s.job with
  | some j => if (id = 46 ∨ id = 47) ∧ s.dev = .printing then s.setJob (some { j with fatal := true }) else enterFault s
  | none => enterFault s

/-- Ports armed. -/
def armedPorts (s : State) : List Nat := (List.range 16).filter fun p => s.flag R.hptPstat_ARMED p

/-- Every port is disarmed and its grant dropped (R98, R377). -/
def disarmPorts (s : State) : State :=
  forEach (List.range 16) (setGrant 0 s) fun p s => s.put R.hptPstat_ARMED 0 p

/-- The safe state ends if no cause stands: the ridge writes RELEASE and sets the motion gate; from SAFE the device
becomes PAUSED if the job had fired a line, else READY (R98, R388, R392). -/
def releaseSafe (s : State) : State :=
  if s.get R.rdgCause_CAUSE ≠ 0 then s
  else
    let s := (s.put R.rdgStatus_SAFE 0).put R.rdgMoten_GATE 1
    if s.dev = .safe then
      match s.job with
      | some j =>
        if j.fired then setDev .paused 2 (s.setJob (some { j with printing := false }))
        else setDev .ready 2 (disarmPorts (s.setJob (some { j with printing := false })))
      | none => setDev .ready 2 s
    else s

/-- A read of an on-chip SRAM of the firing path with two or more bit errors: `SRAM_UNCORRECTABLE` (R20, R352). -/
def sramRead (group inst : Nat) (s : State) : State :=
  if armedFor 46 group s then fatal 46 group none inst true (disarm s)
  else if armedFor 45 group s then raise 45 group none inst true (disarm s)
  else s

/-- SRAM groups that a command reads (R352, R418). -/
def reads (groups : List Nat) (s : State) : State := forEach groups s fun g s => sramRead g 0 s

/-- A command that reads SRAM groups on its way. -/
def liveReading (groups : List Nat) (t : Nat) (s : State) (f : State → State) : Result := live t s fun s => reads groups (f s)

end Sys2Proof.Machine
end

