-- ==== Sys2Proof/Machine/FabCore.lean ====
section
/-!
DEFINITION. Packets of the chain fabric (R285, R286), routing (R291, R292) and reads over TC1 (R289).
-/
namespace Sys2Proof.Machine

/-- Payload bytes filled up to whole data blocks of 8. -/
def padBlocks (bs : List Byte) : List Byte := bs ++ List.replicate ((8 - bs.length % 8) % 8) 0

/-- A packet of this member with its CRC-32C over header and data blocks (R238, R285). -/
def mkPkt (ty cls dest src tag : Nat) (body : List Byte) : Pkt :=
  let d := padBlocks body
  let p : Pkt := { ty := BitVec.ofNat 6 ty, cls := BitVec.ofNat 2 cls, dest := BitVec.ofNat 8 dest, src := BitVec.ofNat 8 src, ttl := 255,
                   length := BitVec.ofNat 8 (d.length / 8), tag := BitVec.ofNat 16 tag, payload := d, crc := 0 }
  { p with crc := crc32c (pktHeader p ++ d) }

/-- The check of a received packet (R286). -/
def pktCrcOk (p : Pkt) : Bool := decide (crc32c (pktHeader p ++ p.payload) = p.crc)

/-- Data blocks of a MGMT packet: 72 bytes and the body of its operation, request or response (R285, R293). -/
def mgmtBlocks (p : Pkt) : Nat :=
  let op := (p.payload.getD 0 0).toNat
  let response := decide ((p.payload.getD 3 0).toNat = 1)
  let body := match op with
    | 1 => if response then 22 else 0
    | 2 => if response then 0 else 12
    | 3 => if response then 0 else 2 + (p.payload.getD 73 0).toNat
    | 4 => if response then 1 else 0
    | 5 => 10
    | 6 => 1
    | 7 => 4
    | _ => 0
  9 + (body + 7) / 8

/-- Whether type, class and length fit (R285, R286). -/
def pktFormOk (p : Pkt) : Bool :=
  let n := p.payload.length
  decide (p.length.toNat = n / 8 ∧ n % 8 = 0 ∧ p.length.toNat ≤ 40) &&
  (match p.ty.toNat with
   | 0x01 => decide (p.cls = 0 ∧ (n = 56 ∨ n = 72))
   | 0x02 => decide (p.cls = 0 ∧ n = 216)
   | 0x03 => decide (p.cls = 0 ∧ n = 24)
   | 0x10 => decide (p.cls = 1 ∧ n = 16)
   | 0x11 => decide (p.cls = 1 ∧ 8 ≤ n ∧ n ≤ 264)
   | 0x20 => decide (p.cls = 2 ∧ n = 72)
   | 0x22 => decide (p.cls = 2 ∧ n = 8 * mgmtBlocks p)
   | 0x30 => decide (p.cls ≠ 3 ∧ n = 32)
   | _ => false)

/-- A payload field of `n` bytes at an offset. -/
def fieldAt (bs : List Byte) (off n : Nat) : Nat := leNat ((bs.drop off).take n)

/-- The member's own ID. -/
def State.memberId (s : State) : Nat := s.get R.fabId_ID

/-- Whether fabric port `q` is up. -/
def State.fabUp (s : State) (q : Nat) : Bool := s.flag R.fabPstat_UP q

/-- The port by which a unicast packet leaves: the primary port, or the alternate if that is a port that is down; none discards; 4 is
this member (R291). -/
def routePort (dest : Nat) (s : State) : Option Nat :=
  let pri := s.get R.fabRoute_PRI dest
  let alt := s.get R.fabRoute_ALT dest
  if dest = 0 ∨ 251 ≤ dest then none
  else if pri = 4 then some 4
  else if pri < 4 ∧ s.fabUp pri = true then some pri
  else if 4 ≤ pri then none
  else if alt = 4 then some 4
  else if alt < 4 ∧ s.fabUp alt = true then some alt
  else none

/-- A packet waits to leave by a port (R287), counted by its class (R433): TC1 by data blocks. -/
def sendPacket (q : Nat) (p : Pkt) (s : State) (after : Nat := 0) : State :=
  queuePacket q p (after := after) (match p.cls.toNat with
    | 0 => if p.ty = 0x30 then s else s.tally 0x0501 q
    | 1 => s.tally 0x0502 q p.length.toNat
    | _ => s.tally 0x0503 q)

/-- The destination is a member in reset behind a port in kickstand (R309). -/
def State.behindKick (s : State) (dest : Nat) : Bool := s.fab.kickOf.any fun e => decide (e.2 = dest) && s.flag R.fabPstat_KICK e.1

/-- A unicast packet leaves by its route; a packet that would leave by its port of arrival is discarded (R291), and one for a member in
reset (R309). -/
def sendUnicast (from_ : Option Nat) (p : Pkt) (s : State) : State :=
  if s.behindKick p.dest.toNat then s
  else match routePort p.dest.toNat s with
  | some q => if q < 4 ∧ from_ ≠ some q then sendPacket q p s else s
  | none => s

/-- Tree and standby ports that are up (R292). -/
def floodPorts (s : State) : List Nat := (List.range 4).filter fun q => s.fabUp q && decide (s.get R.fabPstat_ROLE q ≠ 0)

/-- A broadcast leaves by every tree and standby port but the one of arrival (R292). -/
def flood (from_ : Option Nat) (p : Pkt) (s : State) (after : Nat := 0) : State :=
  forEach ((floodPorts s).filter fun q => decide (from_ ≠ some q)) s fun q s => sendPacket q p s after

/-- A broadcast of this member takes its next TAG (R285, R292); it leaves `after` ps from now. -/
def broadcast (ty cls : Nat) (body : List Byte) (s : State) (after : Nat := 0) : State :=
  let tag := (s.fab.ownTag + 1) % 65536
  flood none (mkPkt ty cls 255 s.memberId tag body) (s.setFab { s.fab with ownTag := tag }) after

/-- The member follows TC0 traffic: it is LINE_LOCKED (R300, R310). -/
def State.lineLocked (s : State) : Bool := decide (s.get R.fabState_MODE = 2)

/-- The member halts with a chain: it is cadence master or follower (R230, R303). -/
def State.chained (s : State) : Bool := decide (s.get R.cadCtrl_ROLE = 1 ∨ s.get R.cadCtrl_ROLE = 2)

/-- A halt under R128, R166, R218 or R228 is decided for line `f`: outside a chain the job stops there; in a chain at the
chain line, which three HALT broadcasts 250 ns apart carry where the member is LINE_LOCKED (R300, R303). -/
def decideHalt (f : Int) (cause : Nat) (s : State) : State :=
  if s.chained = false then haltAtLine f cause s
  else
    let tmin := max 1 (s.get R.cadFirecfg_MINPER)
    let fc := max f (s.fire + ((s.get R.fabLookahead_NS + tmin - 1) / tmin : Nat))
    let id := match s.job with | some j => j.id.toNat | none => 0
    forEach (if s.lineLocked then [0, 1, 2] else []) (haltAtLine fc cause s) fun i s =>
      broadcast 0x03 0 (leBytes 8 ((s.chainTime + 250 * 65536 * i) % 2 ^ 64) ++ leBytes 8 (wrapInt 64 fc) ++ leBytes 4 id
        ++ leBytes 1 cause ++ leBytes 3 0) s (250000 * i)

/-- A packet directed to a member. -/
def sendTo (ty cls dest tag : Nat) (body : List Byte) (s : State) : State :=
  sendUnicast none (mkPkt ty cls dest s.memberId tag body) s

/-! TC1 reads (R289). -/

/-- What a source range gives. -/
inductive Fetched where
  | bytes (bs : List Byte)
  | error
  | wait
deriving DecidableEq, Repr

/-- What has arrived of a range of another member's DRAM. -/
def farRange (m a n : Nat) (s : State) : Fetched :=
  if s.fab.reads.any fun r => r.bad && decide (r.member = m ∧ r.addr < a + n ∧ a < r.addr + r.len) then .error
  else
    let got := (List.range n).map fun i => s.fab.far.lookup (m, a + i)
    if got.all Option.isSome then .bytes (got.map fun b => b.getD 0) else .wait

/-- Pieces of at most 4,096 bytes of a range. -/
def readPieces : Nat → Nat → Nat → List (Nat × Nat)
  | 0, _, _ => []
  | _, _, 0 => []
  | fuel + 1, a, n => (a, min n 4096) :: readPieces fuel (a + 4096) (n - 4096)

/-- A READ_REQ of a piece leaves with the next tag, with `tries` retries left. -/
def sendReadReq (m a n tries : Nat) (s : State) : State :=
  let tag := (s.fab.readTag + 1) % 65536
  let s := s.setFab { s.fab with readTag := tag, reads := s.fab.reads ++
    [{ tag := tag, member := m, addr := a, len := n, tries := tries, got := [], bad := false, t0 := s.now }] }
  sendTo 0x10 1 m tag (leBytes 8 a ++ leBytes 4 n ++ leBytes 4 0) s

/-- A read that has ended as a bus error: what came of it is discarded, and it is made again unchanged while retries are left (R281, R289,
R366). -/
def failFar (tag : Nat) (s : State) : State :=
  match s.fab.reads.find? fun r => decide (r.tag = tag) with
  | none => s
  | some r =>
    if r.tries = 0 then s.setFab { s.fab with reads := s.fab.reads.map fun x => if x.tag = tag then { x with bad := true } else x }
    else sendReadReq r.member r.addr r.len (r.tries - 1) (s.setFab { s.fab with reads := s.fab.reads.filter fun x => decide (x.tag ≠ tag) })

/-- READ_REQs for a range of another member's DRAM leave, as far as the 64 read tags go (R289). A firmware transfer retries as its channel of
the DMA engine does (R281, R355, R366): the spec does not say which of channels 0 to 6 carries it, and the model takes the RETRY of
channel 0 (DESIGN CHOICE, log entry 124). A channel of `DMA_RUN` counts its own retries: `tries` is then 0. -/
def requestFar (m a n : Nat) (s : State) (tries : Nat := s.get R.dmaCtrl_RETRY 0) : State :=
  forEach (readPieces (n / 4096 + 1) a n) s fun e s =>
    if 64 ≤ s.fab.reads.length ∨ (s.fab.reads.any fun r => decide (r.member = m ∧ r.addr = e.1 ∧ r.len = e.2)) = true
        ∨ farRange m e.1 e.2 s ≠ .wait then s
    else sendReadReq m e.1 e.2 tries s

/-- Bytes of a range of another member are done with. -/
def dropFar (m a n : Nat) (s : State) : State :=
  s.setFab { s.fab with
    far := s.fab.far.filter fun e => !decide (e.1.1 = m ∧ a ≤ e.1.2 ∧ e.1.2 < a + n),
    reads := s.fab.reads.filter fun r => !(r.bad && decide (r.member = m ∧ r.addr < a + n ∧ a < r.addr + r.len)) }

end Sys2Proof.Machine
end

