-- ==== Sys2Proof/Machine/Operands.lean ====
section
/-!
DEFINITION. Operands of commands: 64-bit addresses in the spaces of R117 and R465, staging areas and their locks
(R104), and moving bytes from a source and to a destination.
-/
namespace Sys2Proof.Machine

/-- Words `n` and `n + 1` of a command, low half first (R101). -/
def cmdDword (c : Cmd) (n : Nat) : Nat := (c.w n).toNat + 2 ^ 32 * (c.w (n + 1)).toNat

/-- A word of a command as a number. -/
def cmdNat (c : Cmd) (n : Nat) : Nat := (c.w n).toNat

/-- Address space of an address: bits [63:62] (R117). -/
def addrSpace (a : Nat) : Nat := bitsOf a 62 2

/-- The address within its space: bits [39:0], or [61:0] of a host address. -/
def addrIn (a : Nat) : Nat := if addrSpace a = 2 then a % 2 ^ 62 else a % 2 ^ 40

/-- The member of a space 0b11 address: bits [61:54]. -/
def addrMember (a : Nat) : Nat := bitsOf a 54 8

/-- The member has a host link: its PCIe link is up and the function enumerated (R280, R465). -/
def State.hostLink (s : State) : Bool := s.flag R.lnsPciestat_UP && decide (s.pcie.readyAt ≤ s.now) && !s.shut

/-- A range of `n` bytes in a space of R117: zero bits, capacity, host link and extent (R465). -/
def rangeOk (a n : Nat) (s : State) : Bool :=
  match addrSpace a with
  | 0 => decide (bitsOf a 40 22 = 0 ∧ a % 2 ^ 40 + n ≤ s.capacity)
  | 2 => s.hostLink && decide (a % 2 ^ 62 + n ≤ 2 ^ 62)
  | 3 => decide (bitsOf a 40 14 = 0 ∧ a % 2 ^ 40 + n ≤ 2 ^ 40)
  | _ => false

/-- A source or token range: 0b00, 0b10 or 0b11 (R465). -/
def sourceOk (a n : Nat) (s : State) : Bool := rangeOk a n s

/-- A destination, first descriptor or response range: 0b00 or 0b10 (R465). -/
def destOk (a n : Nat) (s : State) : Bool := rangeOk a n s && decide (addrSpace a ≠ 3)

/-- The command needs DRAM that is not trained (R313). -/
def needsDram (a : Nat) (s : State) : Bool := decide (addrSpace a = 0) && !s.trained

/-! Staging areas (R104). -/

/-- The staging area that wholly holds a DRAM range, if one does. -/
def stagingArea (a n : Nat) (s : State) : Option Nat :=
  if addrSpace a ≠ 0 ∨ rangeOk a n s = false then none
  else (List.range 4).find? fun i =>
    decide (s.regionBase 1 + i * 0x100000 ≤ a ∧ a + n ≤ s.regionBase 1 + (i + 1) * 0x100000)

/-- The master that sends on a queue (R71). -/
def senderMaster : Queue → Nat
  | .q8 => 4
  | _ => 1

/-- The sender of a command owns the lock of staging area `i`; a remote sender is the member recorded (R104). -/
def ownsStaging (c : Cmd) (i : Nat) (s : State) : Bool :=
  decide (s.get R.pnrLock_OWNER (12 + i) = senderMaster c.q ∧ (c.q = .q8 → s.get R.pnrLock_MEMBER (12 + i) = c.member))

/-- The open command acts on a staging area (R95): its `data` ends with the area that it names plus 1, with 16 plus the mask of the areas
that its destination touches, or with 0. -/
def OpenCmd.onArea (o : OpenCmd) (i : Nat) : Bool :=
  match o.data.getLast? with | some v => decide (v = i + 1) || (decide (16 ≤ v) && bitOf v i) | none => false

/-- Another queue's open command holds the staging area (R95). -/
def areaHeld (c : Cmd) (i : Nat) (s : State) : Bool := s.fw.opens.any fun o => decide (o.cmd.q ≠ c.q) && o.onArea i

/-- Staging areas that a DRAM range touches. -/
def areasTouched (a n : Nat) (s : State) : List Nat :=
  if addrSpace a ≠ 0 then [] else (List.range 4).filter fun i =>
    decide (s.regionBase 1 + i * 0x100000 < a + n ∧ a < s.regionBase 1 + (i + 1) * 0x100000)

/-- A destination lies in an area that another queue's open command holds; what an open command records of its own (R95). -/
def destHeld (c : Cmd) (a n : Nat) (s : State) : Bool := (areasTouched a n s).any fun i => areaHeld c i s
def destMark (a n : Nat) (s : State) : Nat := match areasTouched a n s with | [] => 0 | l => 16 + (l.map (2 ^ ·)).sum

/-- The tests of a staging address: outside one area BAD_ARGUMENT, lock not owned CONFLICT (R104). -/
def stagingFail (c : Cmd) (a n : Nat) (s : State) : Option Nat :=
  match stagingArea a n s with
  | none => some 3
  | some i => if ownsStaging c i s = false ∨ areaHeld c i s = true then some 6 else none

/-! Moving bytes. -/

/-- Bytes of host memory: an address that the environment does not give, or a link that is down, ends as a bus error (R280, R281; log
entry 7). -/
def hostRead (a n : Nat) (s : State) : Option (List Byte) :=
  if s.hostLink = false then none
  else ((List.range n).map fun i => s.hostMem.lookup (a + i)).foldr (fun b l => match b, l with | some b, some l => some (b :: l) | _, _ => none)
    (some [])

/-- `n` bytes from a source address for a requester (R117). -/
def fetch (req a n : Nat) (s : State) : Fetched × State :=
  match addrSpace a with
  | 0 => let r := dramRead req (addrIn a) n s
         (match r.1 with | some bs => .bytes bs | none => .error, r.2)
  | 2 => (match hostRead (addrIn a) n s with | some bs => .bytes bs | none => .error, s)
  | 3 => (farRange (addrMember a) (addrIn a) n s, s)
  | _ => (.error, s)

/-- A range of another member's DRAM has been used up. -/
def doneWith (a n : Nat) (s : State) : State :=
  if addrSpace a = 3 then dropFar (addrMember a) (addrIn a) n s else s

/-- Bytes written to a destination (R465). A write to the host bus is posted: the bytes land in host memory while the link is up. -/
def deliver (req a : Nat) (bs : List Byte) (s : State) : State :=
  match addrSpace a with
  | 0 => dramWrite req (addrIn a) bs s
  | 2 => if s.hostLink = false then s else { s with hostMem := bs.zipIdx.foldl (fun m e =>
      mapInsert natLt (addrIn a + e.2) e.1 (m.filter fun x => decide (x.1 ≠ addrIn a + e.2))) s.hostMem }
  | _ => s

/-! DMA channels as they stop (R366, R367), and the control firmware's own transfers (R355). -/

/-- The status of a channel: state, halt cause, direction, descriptor access. -/
def setDmaStat (n state cause dir desc : Nat) (s : State) : State :=
  (((s.put R.dmaStat_STATE state n).put R.dmaStat_CAUSE cause n).put R.dmaStat_DIR dir n).put R.dmaStat_DESC desc n

/-- The failing address shows. -/
def setFail (n a : Nat) (s : State) : State := (s.put R.dmaFaillo_ADDR (lo32 a) n).put R.dmaFailhi_ADDR (hi32 a) n

/-- The completion interrupt of a channel: to the control core, or to the host as MSI-X vector 32 + *n*, or by `IRQ_N` while MSI-X is
disabled (R279, R356, R360). -/
def dmaIrq (n : Nat) (s : State) : State :=
  if s.flag R.dmaCtrl_IRQDST n = false then s.emit (.dmaCoreIrq n)
  else if s.msix then sendMsix (32 + n) s
  else { s with pcie := { s.pcie with irqs := if s.pcie.irqs.contains n then s.pcie.irqs else s.pcie.irqs ++ [n] } }

/-- A channel halts (R367): every cause but ABORTED raises `DMA_HALT` and the completion interrupt. -/
def dmaHalt (n cause dir desc : Nat) (s : State) : State :=
  dmaIrq n (raise 49 n none cause false (setDmaStat n 2 cause dir desc s))

/-- An access fails for good: the address, then the halt (R366, R367). -/
def dmaFail (n cause a dir desc : Nat) (s : State) : State := dmaHalt n cause dir desc (setFail n a s)

/-- The first burst of a range whose read fails. -/
def failAddr : Nat → Nat → State → Nat
  | 0, at_, _ => at_
  | fuel + 1, at_, s =>
    let next := at_ - at_ % 64 + 64
    match (fetch 4 at_ (next - at_) s).1 with
    | .bytes _ => failAddr fuel next s
    | _ => at_

/-- A read repeated while it ends in a bus error; another member's data is asked for again as often by `requestFar` (R289, R366). -/
def refetch (a n : Nat) : Nat → State → Fetched × State
  | 0, s => fetch 4 a n s
  | k + 1, s =>
    match fetch 4 a n s with
    | (.error, s') => if addrSpace a = 3 then (.error, s') else refetch a n k s'
    | r => r

/-- The source of a firmware transfer, read by its DMA engine: `JOB_POST`, staging copies, flash images (R355). R355 gives the firmware
channels 0 to 6 and does not say which serves what: the model takes channel 0, whose registers show a transfer only where it halts (log entry
124: DESIGN CHOICE). -/
def dmaFetch (a n : Nat) (s : State) : Fetched × State :=
  match refetch a n (s.get R.dmaCtrl_RETRY 0) s with
  | (.error, s') => (.error, dmaFail 0 1 (failAddr (n / 64 + 1) a s) 0 0 s')
  | r => r

end Sys2Proof.Machine
end

