-- ==== Sys2Proof/Machine/Stream.lean ====
section
/-!
DEFINITION. The stream format (spec 07): code tables (R145 to R148), symbols (R136 to R144), the decoding procedure
(R153, R154), end checks (R155) and saved decoder states (R156, R157). A decoder is stepped one symbol at a time over
a view of memory that may lack a byte (not fetched yet) or hold a failed read.
-/
namespace Sys2Proof.Machine

/-- Fault names of R169. -/
abbrev fnHeader := 1
abbrev fnTable := 2
abbrev fnIllegal := 3
abbrev fnDist := 4
abbrev fnOverrun := 5
abbrev fnTruncated := 6
abbrev fnCheck := 7
abbrev fnNotReproduced := 8
abbrev fnRead := 9

/-- TYPE of a block whose rest is taken as dose 0 after a fault (R165). -/
abbrev tyZero := 4

/-! Code tables. -/

/-- A code: length, value (most significant bit first), symbol. -/
abbrev CodeTable := List (Nat × Nat × Nat)

/-- Canonical codes of a list of lengths (R145). -/
def canonical (lengths : List Nat) : CodeTable :=
  let count (l : Nat) : Nat := (lengths.filter fun x => decide (x = l ∧ x ≠ 0)).length
  let firsts := (List.range 15).foldl (fun (acc : List Nat × Nat) i =>
    let c := (acc.2 + count i) * 2
    (acc.1 ++ [c], c)) ([], 0)
  (lengths.zipIdx.foldl (fun (acc : CodeTable × List Nat) e =>
    if e.1 = 0 then acc
    else
      let c := acc.2.getD (e.1 - 1) 0
      ((e.1, c, e.2) :: acc.1, acc.2.set (e.1 - 1) (c + 1))) ([], firsts.1)).1

/-- Lengths of the static tables (R146). -/
def staticMain : List Nat :=
  List.replicate 16 5 ++ List.replicate 16 6 ++ List.replicate 28 7 ++ [6, 7, 7, 0]
def staticDist : List Nat := [4, 4] ++ List.replicate 28 5 ++ [0, 0]

/-- Σ 2^(15 − length) over symbols with a code (R148). -/
def kraft (l : List Nat) : Nat := ((l.filter (0 < ·)).map fun x => 2 ^ (15 - x)).sum

/-- Items 3 and 4 of R148: complete, or one code of length 1. -/
def completeOrSingle (l : List Nat) : Bool := decide (kraft l = 32768 ∨ l.filter (0 < ·) = [1])

/-- A dynamic block's 96 lengths are valid (R148). -/
def lengthsValid (l : List Nat) : Bool :=
  let m := l.take 64
  let d := (l.drop 64).take 32
  decide (m.getD 63 0 = 0 ∧ d.getD 30 0 = 0 ∧ d.getD 31 0 = 0 ∧ m.getD 62 0 ≠ 0) && completeOrSingle m
    && (completeOrSingle d || d.all (· = 0)) && (((m.drop 48).take 12).all (· = 0) || !d.all (· = 0))

/-- Table L: base and extra bits of a class (R143). -/
def tableL : List (Nat × Nat) :=
  [(1, 0), (2, 0), (3, 0), (4, 0), (5, 1), (7, 1), (9, 2), (13, 2), (17, 4), (33, 5), (65, 6), (129, 7), (257, 8),
   (513, 9), (1025, 10), (2049, 11)]
/-- Table B (R143). -/
def tableB : List (Nat × Nat) :=
  [(1, 1), (3, 1), (5, 2), (9, 3), (17, 4), (33, 5), (65, 6), (129, 7), (257, 8), (513, 9), (1025, 10), (2049, 11)]
/-- Distances (R144). -/
def tableD : List (Nat × Nat) :=
  [(1, 0), (2, 0), (3, 0), (4, 0), (5, 0), (6, 0), (7, 1), (9, 1), (11, 1), (13, 2), (17, 3), (25, 3), (33, 4), (49, 4),
   (65, 5), (97, 5), (129, 6), (193, 6), (257, 7), (385, 7), (513, 8), (769, 8), (1025, 9), (1537, 9), (2049, 10),
   (3073, 10), (4097, 11), (6145, 11), (8193, 12), (12289, 12)]

/-! Reading. -/

/-- A byte of memory as the decoder sees it: not fetched, failed, or there. -/
abbrev View := Nat → Option (Option Byte)

/-- What a read gives. -/
inductive Rd (α : Type) where
  | ok (v : α) (pos : Nat)
  | need (addr : Nat)
  | fail (name bitPos : Nat)
deriving Repr

def Rd.andThen {α β : Type} (r : Rd α) (f : α → Nat → Rd β) : Rd β :=
  match r with
  | .ok v p => f v p
  | .need a => .need a
  | .fail n p => .fail n p

/-- The bit at `pos` of a block's bit sequence (R135); one of the check bytes or beyond is TRUNCATED (R153). -/
def readBit (v : View) (base len pos : Nat) : Rd Bool :=
  if len ≤ 8 + pos / 8 + 4 then .fail fnTruncated pos
  else match v (base + 8 + pos / 8) with
  | none => .need (base + 8 + pos / 8)
  | some none => .fail fnRead 0
  | some (some b) => .ok (bitOf b.toNat (pos % 8)) (pos + 1)

/-- `n` bits, least significant first. -/
def readBits (v : View) (base len : Nat) : Nat → Nat → Rd Nat
  | 0, pos => .ok 0 pos
  | n + 1, pos => (readBit v base len pos).andThen fun b p => (readBits v base len n p).andThen fun r p => .ok (b2n b + 2 * r) p

/-- One code, most significant bit first; ILLEGAL_CODE at its first bit if 15 bits match none (R153). -/
def readCode (v : View) (base len : Nat) (t : CodeTable) (start : Nat) : Nat → Nat → Nat → Rd Nat
  | 0, _, _ => .fail fnIllegal start
  | n + 1, acc, pos => (readBit v base len pos).andThen fun b p =>
    match t.find? fun e => decide (e.1 = 15 - n ∧ e.2.1 = 2 * acc + b2n b) with
    | some e => .ok e.2.2 p
    | none => readCode v base len t start n (2 * acc + b2n b) p

/-- Four-bit code lengths of a dynamic block (R147). -/
def readLengths (v : View) (base len : Nat) : Nat → Nat → Rd (List Nat)
  | 0, pos => .ok [] pos
  | n + 1, pos => (readBits v base len 4 pos).andThen fun x p => (readLengths v base len n p).andThen fun r p => .ok (x :: r) p

/-! Emitting (R153). -/

/-- The end-check register after more codes: whole bytes, the lower column in the low nibble (R3, R155). -/
def crcCodes : Word × Option Nat → List Nat → Word × Option Nat
  | acc, [] => acc
  | (r, none), c :: cs => crcCodes (r, some c) cs
  | (r, some l), c :: cs => crcCodes (crc32cUpdate r [BitVec.ofNat 8 (l + 16 * c)], none) cs

/-- Codes emitted that stay within the line. -/
def DecSt.emit (d : DecSt) (w : Nat) (cs : List Nat) : DecSt :=
  let (crc, half) := crcCodes (d.runCrc, d.half) cs
  let cur := d.cur ++ cs
  let d := { d with runCrc := crc, half := half, remain := d.remain - cs.length, hist := cs.reverse ++ d.hist }
  if w ≤ cur.length then { d with prev := cur, cur := [], line := d.line + 1, col := 0, hist := d.hist.take 16384 }
  else { d with cur := cur, col := cur.length }

/-- Codes of a back-copy: each is `dist` places back at the moment it is emitted (R139). -/
def backCopy (dist : Nat) : Nat → List Nat → List Nat
  | 0, _ => []
  | n + 1, h => h.getD (dist - 1) 0 :: backCopy dist n (h.getD (dist - 1) 0 :: h)

/-- ⌈a / b⌉ -/
def ceilDiv (a b : Nat) : Nat := (a + b - 1) / b

/-- What one step of the decoder gives: it goes on with the cycles it took (R159), the block has ended cleanly, or it
needs a byte, or fails. -/
inductive StepR where
  | ok (d : DecSt) (cycles : Nat)
  | done (d : DecSt)
  | need (addr : Nat)
  | fail (name bitPos : Nat)
deriving Repr

def Rd.step {α : Type} (r : Rd α) (f : α → Nat → StepR) : StepR :=
  match r with
  | .ok v p => f v p
  | .need a => .need a
  | .fail n p => .fail n p

/-- The nibbles of a stored block from code index `i` on. -/
def readNibbles (v : View) (base : Nat) : Nat → Nat → Rd (List Nat)
  | 0, i => .ok [] i
  | n + 1, i =>
    match v (base + 8 + i / 2) with
    | none => .need (base + 8 + i / 2)
    | some none => .fail fnRead 0
    | some (some b) => (readNibbles v base n (i + 1)).andThen fun r p => .ok (bitsOf b.toNat (4 * (i % 2)) 4 :: r) p

/-- The main and distance tables of the current block. -/
def DecSt.tables (d : DecSt) : CodeTable × CodeTable :=
  if d.ty = 2 then (canonical (d.lengths.take 64), canonical (d.lengths.drop 64)) else (canonical staticMain, canonical staticDist)

/-- One symbol of a coded block of width `w` (R153). -/
def stepCoded (v : View) (w : Nat) (d : DecSt) : StepR :=
  let (mt, dt) := d.tables
  let at_ := d.bitPos
  let bits := readBits v d.blockAddr d.blockLen
  let fits (n : Nat) : Bool := decide (n ≤ d.remain ∧ n ≤ w - d.col)
  (readCode v d.blockAddr d.blockLen mt at_ 15 0 at_).step fun s p =>
    if d.remain = 0 ∧ s ≠ 62 then .fail fnOverrun at_
    else if s ≤ 15 then
      if fits 1 then .ok ({ d with bitPos := p }.emit w [s]) 1 else .fail fnOverrun at_
    else if s ≤ 47 then
      let cls := tableL.getD ((s - 16) % 16) (0, 0)
      (bits cls.2 p).step fun x p =>
        let n := cls.1 + x
        if fits n = false then .fail fnOverrun at_
        else
          let cs := if s ≤ 31 then List.replicate n (d.hist.headD 0)
            else (List.range n).map fun i => d.prev.getD (d.col + i) 0
          .ok ({ d with bitPos := p }.emit w cs) (ceilDiv n 8)
    else if s ≤ 59 then
      let cls := tableB.getD (s - 48) (0, 0)
      (bits cls.2 p).step fun x p =>
        let n := cls.1 + x
        (readCode v d.blockAddr d.blockLen dt p 15 0 p).step fun ds q =>
          let dd := tableD.getD ds (0, 0)
          (bits dd.2 q).step fun y q =>
            let dist := dd.1 + y
            if min 16384 d.hist.length < dist then .fail fnDist p
            else if fits n = false then .fail fnOverrun at_
            else .ok ({ d with bitPos := q }.emit w (backCopy dist n d.hist))
              (if dist = 1 ∨ 8 ≤ dist then ceilDiv n 8 else ceilDiv n dist)
    else if s = 60 then
      if fits (w - d.col) then .ok ({ d with bitPos := p }.emit w (List.replicate (w - d.col) 0)) (ceilDiv (w - d.col) 8)
      else .fail fnOverrun at_
    else if s = 61 then
      if d.col ≠ 0 then .fail fnIllegal at_
      else (bits 12 p).step fun x p =>
        if (x + 1) * w ≤ d.remain then .ok { d with bitPos := p, rep := (x + 1) * w } 0 else .fail fnOverrun at_
    else if d.remain ≠ 0 then .fail fnTruncated at_
    else
      let q := 8 * ceilDiv p 8
      if 8 + q / 8 = d.blockLen - 4 then .done { d with bitPos := q } else .fail fnHeader q

/-- One step of a block that has begun (R153): a symbol, a line of a repeat, or the codes of a stored block or of a
faulted span within the line. R159 gives no cycles for the zero codes of a faulted span: they cost what codes of a stored block do (log entry
97: DESIGN CHOICE). -/
def stepBlock (v : View) (w : Nat) (d : DecSt) : StepR :=
  let n := min d.remain (w - d.col)
  if 0 < d.rep then .ok ({ d with rep := d.rep - w }.emit w ((List.range w).map fun i => d.prev.getD i 0)) (ceilDiv w 8)
  else if d.ty = tyZero then
    if d.remain = 0 then .done d else .ok (d.emit w (List.replicate n 0)) (ceilDiv n 8)
  else if d.ty = 0 then
    if d.remain = 0 then .done d
    else (readNibbles v d.blockAddr n (d.bitPos / 4)).step fun cs i => .ok ({ d with bitPos := 4 * i }.emit w cs) (ceilDiv n 8)
  else if d.ty = 2 ∧ d.lengths = [] then
    (readLengths v d.blockAddr d.blockLen 96 0).step fun l p =>
      if lengthsValid l then .ok { d with lengths := l, bitPos := p } 0 else .fail fnTable 0
  else stepCoded v w d

/-! Block headers. -/

/-- Bytes as a number through a view. -/
def viewBytes (v : View) : Nat → Nat → Rd (List Byte)
  | 0, a => .ok [] a
  | n + 1, a =>
    match v a with
    | none => .need a
    | some none => .fail fnRead 0
    | some (some b) => (viewBytes v n (a + 1)).andThen fun r p => .ok (b :: r) p

/-- The block header conditions of R133, R150 and R154: the span must fit the lines of the post (up to page line
`endLine`) and of the page (`pageLen`), and LENGTH the post's bytes (up to address `endAddr`). -/
def headerOk (h : List Byte) (a w pageLen endLine endAddr line col : Nat) : Bool :=
  let kind := fieldAt h 1 1
  let span := fieldAt h 2 2
  let len := fieldAt h 4 4
  let start := line * w + col
  let stop := start + 64 * span
  decide (fieldAt h 0 1 = 0xAB ∧ kind % 4 ≠ 3 ∧ kind / 8 = 0 ∧ span ≠ 0 ∧ bitOf kind 2 = decide (start = 0)
    ∧ stop ≤ pageLen * w ∧ stop ≤ endLine * w ∧ a + len ≤ endAddr) &&
  (match kind % 4 with
   | 0 => decide (len = 12 + 32 * span ∧ (128 ≤ span ∨ stop = pageLen * w))
   | 1 => decide (13 ≤ len ∧ len ≤ 4194304)
   | _ => decide (61 ≤ len ∧ len ≤ 4194304))

/-- The next block begins at address `a` (R132): its header is read and tested; a post whose bytes end is TRUNCATED
(R154). Cycles of the block change: R159. -/
def beginBlock (v : View) (a w pageLen endLine endAddr : Nat) (d : DecSt) : StepR :=
  if endAddr < a + 8 then .fail fnTruncated 0xFFFFFFFF
  else (viewBytes v 8 a).step fun h _ =>
    if headerOk h a w pageLen endLine endAddr d.line d.col then
      let ty := fieldAt h 1 1 % 4
      .ok { d with inBlock := true, ty := ty, remain := 64 * fieldAt h 2 2, blockAddr := a, blockLen := fieldAt h 4 4, bitPos := 0,
                   bLine := d.line, rep := 0, runCrc := 0xFFFFFFFF, half := none, lengths := [] }
        (if ty = 0 then 2 else if ty = 1 then 4 else 26)
    else .fail fnHeader 0xFFFFFFFF

/-- The rest of a faulted span is taken as dose 0 (R165). -/
def DecSt.zeroed (d : DecSt) : DecSt := { d with ty := tyZero, rep := 0 }

/-- Between blocks: the position stands, the block's own state is cleared. -/
def DecSt.closed (d : DecSt) : DecSt :=
  { d with inBlock := false, ty := 0, remain := 0, bitPos := 0, rep := 0, runCrc := 0xFFFFFFFF, half := none, lengths := [] }

/-! Saved decoder states (R156, R157). -/

/-- Codes packed two per byte, the lower one in the low nibble (R3). -/
def packCodes : List Nat → List Byte
  | a :: b :: r => BitVec.ofNat 8 (a % 16 + 16 * (b % 16)) :: packCodes r
  | [a] => [BitVec.ofNat 8 (a % 16)]
  | [] => []

/-- The codes that bytes hold. -/
def unpackCodes (bs : List Byte) : List Nat := bs.flatMap fun b => [b.toNat % 16, b.toNat / 16]

/-- A list cut or filled with zeros to `n` elements. -/
def fillTo {α : Type} (z : α) (n : Nat) (l : List α) : List α := l.take n ++ List.replicate (n - l.length) z

/-- The 12,416 bytes of a saved state (R156). -/
def savedState (w : Nat) (d : DecSt) : List Byte :=
  let body := fillTo 0 48 (packCodes d.lengths) ++ leBytes 16 0 ++ fillTo 0 2048 (packCodes d.prev)
    ++ fillTo 0 2048 (packCodes d.cur) ++ packCodes (fillTo 0 16384 d.hist).reverse
  leBytes 4 0x44535631 ++ leBytes 2 1 ++ leBytes 2 (w / 64) ++ leBytes 4 d.line ++ leBytes 2 d.col
    ++ leBytes 2 (b2n d.inBlock + (if d.inBlock then 2 * d.ty else 0)) ++ leBytes 2 (min 16384 d.hist.length) ++ leBytes 2 0
    ++ leBytes 4 d.remain ++ leBytes 8 (if d.inBlock then d.blockAddr else 0) ++ leBytes 4 d.bitPos ++ wordBytes d.runCrc
    ++ leBytes 20 0 ++ wordBytes (crc32c body) ++ body

/-- The load rules (R157). -/
def savedOk (w pageLen : Nat) (bs : List Byte) : Bool :=
  let f := fieldAt bs
  let inb := f 0x0E 2 % 2
  decide (f 0 4 = 0x44535631 ∧ f 4 2 = 1 ∧ f 0x3C 4 = (crc32c ((bs.drop 0x40).take 0x3040)).toNat ∧ f 6 2 = w / 64
    ∧ f 8 4 < pageLen ∧ f 0x0C 2 < w ∧ f 0x10 2 ≤ 16384) &&
  (if inb = 0 then
      decide (f 0x0C 2 % 64 = 0 ∧ f 0x14 4 = 0 ∧ f 0x18 8 = 0 ∧ f 0x20 4 = 0 ∧ f 0x24 4 = 0xFFFFFFFF)
        && ((bs.drop 0x40).take 48).all (· = 0)
    else decide ((f 0x0E 2 / 2 % 4 = 1 ∨ f 0x0E 2 / 2 % 4 = 2) ∧ 1 ≤ f 0x14 4 ∧ f 0x14 4 ≤ 65535 * 64))

/-- The state that a saved state holds (R156); what it leaves to the header of a block is not in it. -/
def loadSaved (w : Nat) (bs : List Byte) : DecSt :=
  let f := fieldAt bs
  let col := f 0x0C 2
  let cur := (unpackCodes ((bs.drop 0x880).take 2048)).take col
  let d : DecSt := { line := f 8 4, col := col, prev := (unpackCodes ((bs.drop 0x80).take 2048)).take w, cur := cur,
                     hist := (unpackCodes ((bs.drop 0x1080).take 8192)).reverse.take (f 0x10 2) }
  if f 0x0E 2 % 2 = 0 then d
  else { d with inBlock := true, ty := f 0x0E 2 / 2 % 4, remain := f 0x14 4, blockAddr := f 0x18 8, bitPos := f 0x20 4,
                runCrc := BitVec.ofNat 32 (f 0x24 4), half := if f 0x14 4 % 2 = 1 then cur.getLast? else none,
                lengths := if f 0x0E 2 / 2 % 4 = 2 ∧ 0 < f 0x20 4 then unpackCodes ((bs.drop 0x40).take 48) else [] }

/-- A loaded state within a block of `span` times 64 codes and `len` bytes. -/
def DecSt.inSpan (w span len : Nat) (d : DecSt) : DecSt :=
  { d with blockLen := len, bLine := (d.line * w + d.col - (64 * span - d.remain)) / w }

end Sys2Proof.Machine
end

