-- ==== Sys2Proof/Machine/Compressor.lean ====
section
/-!
DEFINITION. How the compressor forms a block (R172 to R174): greedy matching inside one post, the three forms of R134 to R150, and
the choice among them.
-/
namespace Sys2Proof.Machine

/-- A symbol of a coded block with what it stands for (R136 to R141). -/
inductive Sym where
  | lit (c : Nat)
  | run (n : Nat)
  | up (n : Nat)
  | back (n dist : Nat)
  | zeros (n : Nat)
  | lines (n : Nat)
deriving DecidableEq, Repr

/-- Codes that a symbol covers at width `w`. -/
def Sym.len (w : Nat) : Sym → Nat
  | .lit _ => 1
  | .run n => n
  | .up n => n
  | .back n _ => n
  | .zeros n => n
  | .lines n => n * w

/-- Length of the common start of two lists. -/
def agree : List Nat → List Nat → Nat
  | a :: as, b :: bs => if a = b then 1 + agree as bs else 0
  | _, _ => 0

/-- The hash of the four codes that begin a list; none where fewer are left. -/
def hash4 : List Nat → Option Nat
  | a :: b :: c :: d :: _ => some (Config.compressorHash a b c d)
  | _ => none

/-- Distances of the back-copy candidates of R174: the previous line's, read as the segment width, then those of the four latest
positions with the same hash of four codes (log entry 18: DESIGN CHOICE). `before` is newest first and of the same post. -/
def backDistances (w : Nat) (before rest : List Nat) : List Nat :=
  let same (d : Nat) : Bool := (hash4 rest).isSome && decide (hash4 ((before.take d).reverse ++ rest) = hash4 rest)
  let near := ((List.range (min 16384 before.length)).map (· + 1)).filter same
  (if w ≤ before.length then [w] else []) ++ near.take 4

/-- The longest of some matches, the first of those that are as long: R174 does not say which is taken; the order here is symbol 60, run, up-copy,
the previous line's distance, then the latest hash positions, newest first (log entry 18: DESIGN CHOICE). -/
def longest (w : Nat) : List Sym → Option Sym
  | [] => none
  | x :: r => some (r.foldl (fun b y => if b.len w < y.len w then y else b) x)

/-- The symbol for the codes that come next (R174): at column 0 a repeat line; else the longest match of at least three codes; else a
literal. Symbol 60 stands for a rest of a line that is all 0 before any other match of that length (log entry 18: DESIGN CHOICE). -/
def nextSym (w col : Nat) (before rest : List Nat) : Sym :=
  let line := rest.take (w - col)
  let above := ((before.take w).reverse).take (w - col)
  let copies (k : Nat) : Bool := decide ((rest.drop (k * w)).take w = above)
  let reps := ((List.range (min 4096 (rest.length / w))).takeWhile copies).length
  if col = 0 ∧ w ≤ before.length ∧ 0 < reps then .lines reps
  else
    let zeros : List Sym := if line.all (· = 0) then [.zeros line.length] else []
    let run : List Sym := match before with | c :: _ => [.run (agree (List.replicate line.length c) line)] | [] => []
    let up : List Sym := if w ≤ before.length then [.up (agree above line)] else []
    let back := (backDistances w before rest).map fun d => Sym.back (agree (backCopy d line.length before) line) d
    match longest w ((zeros ++ run ++ up ++ back).filter fun x => decide (3 ≤ x.len w)) with
    | some x => x
    | none => .lit (rest.headD 0)

/-- The symbols of a block. -/
def symbols (w : Nat) : Nat → Nat → List Nat → List Nat → List Sym
  | 0, _, _, _ => []
  | _ + 1, _, _, [] => []
  | fuel + 1, col, before, rest =>
    let x := nextSym w col before rest
    let n := max 1 (x.len w)
    x :: symbols w fuel ((col + n) % w) ((rest.take n).reverse ++ before) (rest.drop n)

/-! Bits (R135). -/

/-- Bits as bytes, least significant bit first; the last byte is filled with zeros (R134). -/
def packBits : List Bool → List Byte
  | a :: b :: c :: d :: e :: f :: g :: h :: r =>
    BitVec.ofNat 8 (b2n a + 2 * b2n b + 4 * b2n c + 8 * b2n d + 16 * b2n e + 32 * b2n f + 64 * b2n g + 128 * b2n h) :: packBits r
  | [] => []
  | l => [BitVec.ofNat 8 ((l.zipIdx.map fun e => b2n e.1 * 2 ^ e.2).sum)]

/-- A code's bits, most significant first. -/
def codeBits (t : CodeTable) (sym : Nat) : List Bool :=
  match t.find? fun e => decide (e.2.2 = sym) with
  | some e => (List.range e.1).map fun i => bitOf e.2.1 (e.1 - 1 - i)
  | none => []

/-- The class of a table that holds a value, with its extra bits (R143, R144). -/
def classOf (t : List (Nat × Nat)) (v : Nat) : Nat × List Bool :=
  let i := (t.filter fun e => decide (e.1 ≤ v)).length - 1
  let e := t.getD i (1, 0)
  (i, (List.range e.2).map fun k => bitOf (v - e.1) k)

/-- A symbol's main symbol, its extra bits, and for a back-copy its distance symbol with extra bits. -/
def Sym.parts : Sym → Nat × List Bool × Option (Nat × List Bool)
  | .lit c => (c, [], none)
  | .run n => (16 + (classOf tableL n).1, (classOf tableL n).2, none)
  | .up n => (32 + (classOf tableL n).1, (classOf tableL n).2, none)
  | .back n d => (48 + (classOf tableB n).1, (classOf tableB n).2, some (classOf tableD d))
  | .zeros _ => (60, [], none)
  | .lines n => (61, (List.range 12).map fun k => bitOf (n - 1) k, none)

/-- The symbol stream with its end symbol. -/
def streamBits (mt dt : CodeTable) (l : List Sym) : List Bool :=
  l.flatMap (fun x =>
    let (m, extra, d) := x.parts
    codeBits mt m ++ extra ++ (match d with | some (k, e) => codeBits dt k ++ e | none => [])) ++ codeBits mt 62

/-! Tables (R173). -/

/-- Counts of the 64 main and 32 distance symbols of a block. -/
def symCounts (l : List Sym) : List Nat :=
  let ms := 62 :: l.map fun x => x.parts.1
  let ds := l.filterMap fun x => x.parts.2.2.map (·.1)
  (List.range 64).map (fun i => ms.count i) ++ (List.range 32).map fun i => ds.count i

/-- Lengths that serve any block: six bits for each main symbol but the end, five bits for it; five or four for each distance. -/
def plainLengths : List Nat := List.replicate 62 6 ++ [5, 0] ++ List.replicate 28 5 ++ [4, 4, 0, 0]

/-- The lengths of the dynamic table formed from the counts: R173 asks for lengths of at most 15 that satisfy R148 and says no more, so
they are free among those that give every symbol of the block a code; where the free lengths are no such lengths, `plainLengths`, which are,
stand for them (log entry 18: DESIGN CHOICE). -/
def dynamicLengths (counts : List Nat) : List Nat :=
  let l := Config.compressorLengths counts
  if l.length = 96 ∧ lengthsValid l = true ∧ (l.all fun x => decide (x ≤ 15)) = true ∧
      ((counts.zip l).all fun e => decide (e.1 = 0 ∨ 0 < e.2)) = true then l else plainLengths

/-! Blocks (R132 to R135, R147, R149). -/

/-- Header, body and end check; `ty` is 0 stored, 1 static, 2 dynamic. -/
def blockOf (ty : Nat) (first : Bool) (codes : List Nat) (body : List Byte) : List Byte :=
  leBytes 1 0xAB ++ leBytes 1 (ty + 4 * b2n first) ++ leBytes 2 (codes.length / 64) ++ leBytes 4 (12 + body.length) ++ body
    ++ wordBytes (crc32c (packCodes codes))

/-- The static form and the dynamic form of a block. -/
def staticForm (l : List Sym) : List Byte := packBits (streamBits (canonical staticMain) (canonical staticDist) l)
def dynamicForm (l : List Sym) : List Byte :=
  let n := dynamicLengths (symCounts l)
  packBits ((n.flatMap fun x => (List.range 4).map (bitOf x)) ++ streamBits (canonical (n.take 64)) (canonical (n.drop 64)) l)

/-- A stored block of these codes is permitted (R150): at least 128 spans of 64, or the last codes of the page. -/
def storedAllowed (w line pageLen : Nat) (codes : List Nat) : Bool :=
  decide (128 ≤ codes.length / 64 ∨ line * w + codes.length = pageLen * w)

/-- The shorter of two bodies; the first where they are as long. -/
def shorter (a b : Nat × List Byte) : Nat × List Byte := if b.2.length < a.2.length then b else a

/-- The block for `codes`, whole lines from page line `line` on, after `before` (newest first) of the same post, in a mode of `CMP_CTRL`:
the smallest form of R173, static alone, or stored where permitted and dynamic elsewhere. -/
def compress (mode w line pageLen : Nat) (before codes : List Nat) : List Byte :=
  let first := decide (line = 0 ∧ before = [])
  let l := symbols w codes.length 0 before codes
  let stored : Nat × List Byte := (0, packCodes codes)
  let static : Nat × List Byte := (1, staticForm l)
  let dynamic : Nat × List Byte := (2, dynamicForm l)
  let ok := storedAllowed w line pageLen codes
  let x := if mode = 1 then static
    else if mode = 2 then (if ok then stored else dynamic)
    else if ok then shorter (shorter stored static) dynamic else shorter static dynamic
  blockOf x.1 first codes x.2

end Sys2Proof.Machine
end

