-- ==== Sys2Proof/Machine/Proxy.lean ====
section
/-!
DEFINITION. The fabric proxy (R103, R290): messages it takes from channel 9, POSTs it puts on channel 8, and the operations that this
member sends.
-/
namespace Sys2Proof.Machine

/-- The message of channel `n` is taken: FULL clears and the sender's take bell rings (R80). -/
def takeMessage (n : Nat) (s : State) : State :=
  ringBell (s.get R.pnrBind_SEND n) (16 + n) (s.put R.pnrStatus_FULL 0 n)

/-- The message words of a channel. -/
def State.msgWords (s : State) (n : Nat) : List Word := (List.range 16).map fun i => s.reg ⟨.pnrMsg, n, i⟩

/-- The payload of a PROXY packet: 72 bytes (R285, R290). -/
def proxyBody (op ch : Nat) (words : List Word) : List Byte :=
  [BitVec.ofNat 8 op, BitVec.ofNat 8 ch, 0, 0] ++ ((words ++ List.replicate (16 - words.length) 0).take 16).flatMap wordBytes ++ leBytes 4 0

/-- A PROXY packet to a member. -/
def sendProxy (op ch : Nat) (words : List Word) (dest tag : Nat) (s : State) : State := sendTo 0x20 2 dest tag (proxyBody op ch words) s

/-- The words of a PROXY packet. -/
def proxyWords (p : Pkt) : List Word := bytesWords ((p.payload.drop 4).take 64)
def proxyOp (p : Pkt) : Nat := fieldAt p.payload 0 1
def proxyCh (p : Pkt) : Nat := fieldAt p.payload 1 1

/-- The LEN of a message carried by a PROXY packet, which word 0 does not hold: the lowest from 8 at which the words beyond are 0 and
the check agrees, else 16 (log entry 32). -/
def messageLen (ws : List Word) : Nat :=
  (([8, 9, 10, 11, 12, 13, 14, 15, 16] : List Nat).find? fun n =>
    (ws.drop n).all (fun w => decide (w = 0)) && decide (messageCheck (ws.take (n - 1)) = ws.getD (n - 1) 0)).getD 16

/-- A POST goes onto channel 8 (R290). -/
def postOn8 (src : Nat) (ws : List Word) (s : State) : State :=
  postWords 8 (ws.take (messageLen ws)) (s.setFab { s.fab with proxyMember := src })

/-- Opcodes that complete with `COMMAND_DONE` (R95, R101). -/
def eOpcodes : List Nat :=
  [0x0201, 0x0203, 0x0303, 0x0304, 0x0305, 0x0403, 0x040A, 0x040B, 0x0604, 0x0605, 0x0701, 0x0703, 0x0801, 0x0802, 0x0803, 0x0902, 0x0903,
   0x0A01, 0x0A05, 0x0B02]

/-- A post whose response, or whose `COMMAND_DONE`, is yet to come. -/
def postOpen (x : LastPost) : Bool :=
  match x.resp with
  | none => true
  | some r => x.done.isNone && eOpcodes.contains ((r.getD 0 0).toNat / 65536) && decide ((r.getD 1 0).toNat % 256 = 0)

/-- What the proxy remembers of posts: the last accepted from each member, and those whose answers are yet to come. -/
def setPosts (l : List LastPost) (s : State) : State :=
  let last (i : Nat) (x : LastPost) : Bool := !(l.drop (i + 1)).any fun y => decide (y.src = x.src)
  s.setFab { s.fab with lastPosts := (l.zipIdx.filter fun e => postOpen e.1 || last e.2 e.1).map (·.1) }

/-- The message of channel 9 goes to the member whose POST it answers: a response to the first POST that has none, a `COMMAND_DONE`
to the POST of its opcode and sequence. That the proxy takes it whatever bit 9 of `PNR_BELLEN4` is, and leaves its bell bit as it is, the model
chooses (R83 gives the delivery alone; DESIGN CHOICE, log entry 123). -/
def proxyTake (s : State) : State :=
  if s.flag R.pnrStatus_FULL 9 = false ∨ s.isReceiver .proxy 9 = false then s
  else
    let ws := s.msgWords 9
    let isDone := decide ((ws.getD 0 0).toNat / 65536 = 0x0F02)
    let post := if isDone then s.fab.lastPosts.find? fun x => match x.resp, x.done with
        | some r, none => decide (r.getD 0 0 = ws.getD 1 0)
        | _, _ => false
      else s.fab.lastPosts.find? fun x => decide (x.resp = none)
    let s := match post with
      | none => s
      | some x =>
        let x' : LastPost := if isDone then { x with done := some ws } else { x with resp := some ws }
        sendProxy (if isDone then 6 else 2) 9 ws x.src x.tag (setPosts (s.fab.lastPosts.map fun y => if y = x then x' else y) s)
    pumpReplies 9 (takeMessage 9 s)

/-- The proxy serves: messages of channel 9, then a held POST if channel 8 is free. -/
def proxyServe (s : State) : State :=
  let s := proxyTake (proxyTake s)
  match s.fab.proxyQ with
  | (src, _, ws) :: rest => if s.flag R.pnrStatus_FULL 8 || !s.isSender .proxy 8 then s else postOn8 src ws (s.setFab { s.fab with proxyQ := rest })
  | [] => s

/-- A POST from a member (R290): a duplicate is answered again or dropped; up to 8 wait; a further one is answered BUSY.
One that comes with the end of the member's session is discarded (R89). -/
def acceptPost (src tag : Nat) (ws : List Word) (s : State) : State :=
  if s.sessionOver .proxy src then s else
  let last := (s.fab.lastPosts.filter fun x => decide (x.src = src)).getLast?
  match last.filter fun x => decide (x.tag = tag) with
  | some x =>
    let s := match x.resp with | some r => sendProxy 2 9 r src tag s | none => s
    match x.done with | some d => sendProxy 6 9 d src tag s | none => s
  | none =>
    let note (s : State) : State := setPosts (s.fab.lastPosts ++ [{ src := src, tag := tag, resp := none, done := none }]) s
    if s.flag R.pnrStatus_FULL 8 = false ∧ s.isSender .proxy 8 = true ∧ s.fab.proxyQ = [] then postOn8 src ws (note s)
    else if s.fab.proxyQ.length < 8 then note (s.setFab { s.fab with proxyQ := s.fab.proxyQ ++ [(src, tag, ws)] })
    else
      let w0 := (ws.getD 0 0).toNat
      sendProxy 2 9 (sealMessage [BitVec.ofNat 32 (w0 / 256 * 256 + 2), BitVec.ofNat 32 (s.dev.code * 256 + 1)]) src tag s

/-- An operation that this member has sent, by TAG. -/
def State.proxyOpOf (s : State) (tag : Nat) : Option ProxyOp := s.fab.ops.find? fun o => decide (o.tag = tag)
def setOp (tag : Nat) (o : Option ProxyOp) (s : State) : State :=
  let rest := s.fab.ops.filter fun x => decide (x.tag ≠ tag)
  s.setFab { s.fab with ops := match o with | some x => rest ++ [x] | none => rest }

end Sys2Proof.Machine
end

