-- ==== Sys2Proof/Machine/Firmware.lean ====
section
/-!
DEFINITION. How the control firmware, the recovery responder and the ridge judge a command and answer it (R92, R93,
R95, R99, R389, R466, R469). A command's own conditions are a function that gives the status and detail code of the
first that fails; its effect is a function that gives the reply.
-/
namespace Sys2Proof.Machine

/-- Status codes of R97. -/
abbrev stOk := 0
abbrev stBusy := 1
abbrev stBadArgument := 3
abbrev stWrongState := 4
abbrev stNoResource := 5
abbrev stConflict := 6
abbrev stDenied := 7
abbrev stVersion := 8
abbrev stIntegrity := 9
abbrev stTimeout := 10
abbrev stHeld := 11

/-- A row of the opcode tables (R101): opcode, the argument words it names, the device states it lists, whether it is
listed for HELD, and whether R469 requires a loaded job. -/
structure OpRow where
  op : Nat
  argw : Nat
  states : List DevState
  held : Bool := false
  needsJob : Bool := false
deriving DecidableEq, Repr

/-- "Any" of R99. -/
def anyState : List DevState := [.ready, .armed, .printing, .paused, .safe, .fault]
/-- READY, ARMED, PRINTING and PAUSED. -/
def activeStates : List DevState := [.ready, .armed, .printing, .paused]

/-- What a command answers: status, detail code, result words, the state; or that it waits for data of another
member before it can answer. -/
structure Reply where
  status : Nat := 0
  detail : Nat := 0
  words : List Nat := []
  wait : Bool := false
  s : State
deriving Repr

/-- Test 3 of R466: flags, unnamed argument words and LEN (R92). -/
def wordsOk (r : OpRow) (c : Cmd) : Bool :=
  decide (c.flags = 0 ∧ r.argw ≤ c.args.length) && (c.args.drop r.argw).all (· = 0)

/-- Test 4 of R466: the device state is listed, and a loaded job where R469 requires one. -/
def stateOk (r : OpRow) (s : State) : Bool :=
  (if s.dev = .held then r.held else decide (s.dev ∈ r.states)) && (!r.needsJob || s.job.isSome)

/-- The status and detail of the first test that fails, from test 3 of R466 on. In HELD an opcode not served returns
HELD before them (R65, R466); in HELD with cause 7 only `IDENTIFY` is served (R67). A control-only member refuses groups 0x05 and 0x07
from other members once the argument tests have passed (R103, R466). -/
def judge (r : OpRow) (own : Cmd → State → Option (Nat × Nat)) (c : Cmd) (s : State) : Option (Nat × Nat) :=
  if s.dev = .held ∧ (r.held = false ∨ (s.get R.glbBootstat_HELDCAUSE = 7 ∧ r.op ≠ 0x0101)) then some (stHeld, 0)
  else if wordsOk r c = false then some (stBadArgument, 0)
  else if stateOk r s = false then some (stWrongState, 0)
  else match own c s with
  | some (3, det) => some (stBadArgument, det)
  | r' => if c.q = .q8 ∧ (s.get R.fabState_MODE = 3 ∨ s.get R.fabState_MODE = 4) ∧ (r.op / 256 = 5 ∨ r.op / 256 = 7) then some (stVersion, 0) else r'

/-- The reply is answered, or the command waits (R93, R94). -/
def answer (op : Nat) (c : Cmd) (r : Reply) : State :=
  if r.wait then { r.s with fw := { r.s.fw with deferred := some (op, c) } }
  else respond op c r.status r.detail r.words r.s

/-- A command that has been taken: judged, executed if no test fails, and answered. -/
def runCommand (r : OpRow) (own : Cmd → State → Option (Nat × Nat)) (act : Cmd → State → Reply) (c : Cmd) (s : State) :
    State :=
  match judge r own c s with
  | some (st, det) => respond r.op c st det [] s
  | none => answer r.op c (act c s)

/-- The master that takes a queue's commands: the ridge core on channel 4, else the control core (R71, R93, R389). -/
def takerOf (q : Queue) : Master := if q = .ridge then .ridge else .control

/-- Whether a command of the queue is taken now (R52, R65, R93, R99, R389): its master is the channel's receiver (R74; log entry 73), in HELD only
on channel 0 (R77), and none from the trigger of an orderly entry on (R53). -/
def takes (q : Queue) (s : State) : Bool :=
  s.isReceiver (takerOf q) (queueChannel q) &&
  match q with
  | .ridge => decide (s.dev ≠ .held) && !s.flag R.rdgStatus_ROM && !(s.fw.respQ.any fun e => decide (replyChannel e.1 = 5))
  | q => (s.fw.running || (decide (s.dev = .held ∧ q = .q0))) && decide (s.dev ≠ .boot)
      && s.boot.orderly.isNone && s.fw.resetPending.isNone && s.fw.deferred.isNone && !(s.fw.respQ.any fun e => decide (e.1 = q))

/-- A firmware or ridge command at `t`: run if it is taken; else it stays where it is (R93, R99). -/
def command (t : Nat) (c : Cmd) (s : State) (run : Cmd → State → State) : Result :=
  live t s fun s => if takes c.q s then proxyServe (reads [11] (run c s)) else s

/-- Another E command of the queue is open (R95). -/
def queueBusy (c : Cmd) (s : State) : Bool := (openOf c.q s).isSome

/-- Another queue's open command with one of the opcodes holds the object: the first of its data (R95). -/
def heldElsewhere (c : Cmd) (ops : List Nat) (obj : Nat) (s : State) : Bool :=
  s.fw.opens.any fun o => decide (o.cmd.q ≠ c.q ∧ o.op ∈ ops ∧ o.data.head? = some obj)

/-- An E command is accepted: it is open until its completion (R95). -/
def openE (op : Nat) (c : Cmd) (data : List Nat) (s : State) : State :=
  { s with fw := { s.fw with opens := s.fw.opens ++ [{ op := op, cmd := c, t0 := s.now, data := data }] } }

/-- The open E command of a queue with the opcode: the subject of a `_DONE` row. -/
def openFor (op : Nat) (q : Queue) (s : State) : Option OpenCmd := s.fw.opens.find? fun o => decide (o.op = op ∧ o.cmd.q = q)

/-- A completion at `t`: it acts on the queue's open command of the opcode, and on nothing without one (R95). -/
def completion (t op : Nat) (q : Queue) (s : State) (f : OpenCmd → State → State) : Result :=
  live t s fun s => match openFor op q s with | some o => proxyServe (f o s) | none => s

/-- Words as numbers, low half first. -/
def twoWords (v : Nat) : List Nat := [lo32 v, hi32 v]

end Sys2Proof.Machine
end

