-- ==== Sys2Proof/Machine/Panniers.lean ====
section
/-!
DEFINITION. Panniers, bells and locks (spec 04), and claims (spec 02): the accesses of masters to `PNR` registers and
to the claim registers. Posts and takes, which let the firmware serve commands, are in Commands.lean.
-/
namespace Sys2Proof.Machine

/-- An access that the rights table does not permit: recorded in `PNR_VIOL` and raised, with no other effect (R74).
`off` is the register's offset within the channel. -/
def pnrViolation (m : Master) (n off : Nat) (s : State) : State :=
  let s := s.bump R.pnrViol_COUNT
  let s := (((s.put R.pnrViol_OFFSET (off / 4)).put R.pnrViol_CHANNEL n).put R.pnrViol_MASTER m.num).put R.pnrViol_VALID 1
  raise 5 n none (s.reg ⟨.pnrViol, 0, 0⟩).toNat false s

/-- A sender's write of a message word (R78, R79). -/
def msgWrite (m : Master) (n i : Nat) (v : Word) (s : State) : State :=
  if s.isSender m n = false then pnrViolation m n (4 * i) s
  else if s.sessionOver m then s
  else if s.flag R.pnrStatus_FULL n then s.put R.pnrStatus_WFULL 1 n
  else s.setReg ⟨.pnrMsg, n, i⟩ v

/-- LEN of a write to `CTRL`: a value of 0 to 7 or above 16 leaves it unchanged (R78). -/
def lenWrite (n len : Nat) (s : State) : State := if 8 ≤ len ∧ len ≤ 16 then s.put R.pnrCtrl_LEN len n else s

/-- A sender's write to `CTRL` with GO = 0 (R79). -/
def ctrlWrite (m : Master) (n len : Nat) (s : State) : State :=
  if s.isSender m n = false then pnrViolation m n 0x40 s else lenWrite n len s

/-- A sender's write to `CTRL` with GO = 1 (R78, R79); one that comes with the end of the sender's session is discarded (R89). -/
def goWrite (m : Master) (n len : Nat) (s : State) : State :=
  if s.isSender m n = false then pnrViolation m n 0x40 s
  else if s.sessionOver m then s
  else if s.flag R.pnrStatus_FULL n then s.put R.pnrStatus_WFULL 1 n
  else postMessage n (lenWrite n len s)

/-- The value `TAKE` returns for the message that channel `n` holds (R80, R88). -/
def takeValue (n : Nat) (s : State) : Word :=
  BitVec.ofNat 32 (s.get R.pnrStatus_PSEQ n * 65536 + s.get R.pnrTake_LEN n * 256
    + b2n (decide (s.get R.pnrEpoch_STAMP n ≠ s.get R.pnrEpoch_EPOCH n)) * 2 + 1)

/-- A read of `TAKE` (R80): what it returns and does. -/
def takeRead (m : Master) (n : Nat) (s : State) : Word × State :=
  if s.isReceiver m n = false then (0, pnrViolation m n 0x48 s)
  else if s.flag R.pnrStatus_FULL n then (takeValue n s, takeMessage n s)
  else (0, s)

/-! Locks. -/

/-- A read of a lock: a free one makes the reader its owner and reads 0; an owned one reports its owner (R84). -/
def lockRead (m : Master) (member n : Nat) (s : State) : Word × State :=
  if s.get R.pnrLock_OWNER n = 0 then
    (0, (s.put R.pnrLock_OWNER m.num n).put R.pnrLock_MEMBER (if m = .proxy then member else 0) n)
  else (s.reg ⟨.pnrLock, n, 0⟩, s)

/-- Open commands whose staging area channel `n`'s lock guards learn that it was released (R104). -/
def markLockLost (n : Nat) (s : State) : State :=
  if n < 12 then s
  else
    let opens := s.fw.opens.map fun o => if o.data.getLast? = some (n - 12 + 1) then { o with lockLost := true } else o
    { s with fw := { s.fw with opens := opens } }

/-- The lock of channel `n` becomes free. -/
def freeLock (n : Nat) (s : State) : State :=
  markLockLost n ((s.put R.pnrLock_OWNER 0 n).put R.pnrLock_MEMBER 0 n)

/-- A write to a lock: the owner, writing its own number, releases it; every other write has no effect (R85). -/
def lockWrite (m : Master) (n owner : Nat) (s : State) : State :=
  if s.get R.pnrLock_OWNER n = m.num ∧ owner = m.num then freeLock n s else s

/-! Sessions (R87). -/

/-- The session of a master ends: its locks are released and the words it was composing are cleared on every channel.
For the proxy, `member` is the member whose session ends. -/
def endSession (m : Master) (member : Option Nat) (s : State) : State :=
  let s := { s with ended := (m.num, member.getD 0, s.now) :: s.ended.filter fun e => decide (e.2.2 / 1000 = s.now / 1000) }
  forEach (List.range 16) s fun n s =>
    let ownsIt := decide (s.get R.pnrLock_OWNER n = m.num) &&
      (match member with | some id => decide (s.get R.pnrLock_MEMBER n = id) | none => true)
    let s := if ownsIt then freeLock n s else s
    let composes := s.isSender m n && !s.flag R.pnrStatus_FULL n &&
      (match member with | some id => decide (s.fab.proxyMember = id) | none => true)
    if composes then forEach (List.range 16) s fun i s => s.setReg ⟨.pnrMsg, n, i⟩ 0 else s

/-! Binding (R75, R76). -/

/-- A write of a binding entry. -/
def bindWrite (m : Master) (n : Nat) (v : Word) (s : State) : State :=
  if s.flag R.pnrBind_RLOCK n then s
  else
    let s := if (m = .control ∨ m = .ridge) ∧ s.flag R.pnrBindlock_LOCK = false then
        (s.put R.pnrBind_SEND (fieldOf v 0 3) n).put R.pnrBind_RECV (fieldOf v 4 3) n
      else s
    if m = .ridge ∧ fieldOf v 31 1 = 1 then s.put R.pnrBind_RLOCK 1 n else s

/-! Bells (R82, R83). -/

/-- A write of 1s to a bell register by its own master clears those bits. -/
def bellClear (m owner : Master) (v : Word) (s : State) : State :=
  if m = owner then s.setReg ⟨.pnrBell, owner.num, 0⟩ (s.reg ⟨.pnrBell, owner.num, 0⟩ &&& ~~~ v) else s

/-- A write of the enables by their own master: a bell bit already 1 interrupts at once when its enable becomes 1. -/
def bellenWrite (m owner : Master) (v : Word) (s : State) : State :=
  if m ≠ owner then s
  else
    let old := (s.reg ⟨.pnrBellen, owner.num, 0⟩).toNat
    let bell := (s.reg ⟨.pnrBell, owner.num, 0⟩).toNat
    let s := s.setReg ⟨.pnrBellen, owner.num, 0⟩ v
    if owner = .host then
      forEach ((List.range 32).filter fun b => bitOf bell b && bitOf v.toNat b && !bitOf old b) s fun b s => sendMsix b s
    else s

/-- The pannier interrupt line of the control core or the ridge core: held while an enabled bell bit is 1 (R83). -/
def pannierLine (m : Master) (s : State) : Bool :=
  decide (m = .control ∨ m = .ridge) && decide ((s.reg ⟨.pnrBell, m.num, 0⟩ &&& s.reg ⟨.pnrBellen, m.num, 0⟩) ≠ 0)

/-- `IRQ_N` is driven low while MSI-X is disabled and an enabled host bell or a host pending bit is 1, or a DMA completion waits (R83, R279,
R424). -/
def irqLow (s : State) : Bool :=
  !s.msix && (decide (s.pcie.irqs ≠ []) || decide ((s.reg ⟨.pnrBell, 1, 0⟩ &&& s.reg ⟨.pnrBellen, 1, 0⟩) ≠ 0) ||
    (List.range 3).any fun k => decide (s.reg ⟨.errHostpend, k, 0⟩ ≠ 0))

/-! Claims (R38 to R41). -/

/-- Whether an owner code is allowed in field `i` of `GLB_CLAIM0` or `GLB_CLAIM1` (R38). -/
def ownerAllowed (reg1 : Bool) (code : Nat) : Bool :=
  if reg1 then decide (code = 0 ∨ (3 ≤ code ∧ code ≤ 7)) else decide (code ≤ 2 ∨ code = 7)

/-- Fields of the claim registers. -/
def claimFields (reg1 : Bool) : Nat := if reg1 then 5 else 6
def claimKind (reg1 : Bool) : RegKind := if reg1 then .glbClaim1 else .glbClaim0

/-- Owner of item `i`. -/
def State.owner (s : State) (reg1 : Bool) (i : Nat) : Nat := fieldOf (s.reg ⟨claimKind reg1, 0, 0⟩) (4 * i) 4

/-- Whether writing `y` to item `i` conflicts (R39). -/
def claimConflicts (m : Master) (reg1 : Bool) (i y : Nat) (s : State) : Bool :=
  let x := s.owner reg1 i
  if ownerAllowed reg1 y = false ∨ y = x ∨ x = 0 then false
  else if y = 0 then decide (x = 7 ∧ m ≠ .ridge)
  else !(decide (m = .ridge ∧ y = 7))

/-- `MFP` balls of a group (spec 02). -/
def groupBalls (g : Nat) : List Nat := ([[0, 1, 2, 3, 4, 5], [6], [7, 8, 9, 10, 11, 12], [13, 14, 15, 16, 17, 18], [19, 20], [21, 22, 23]] : List (List Nat)).getD g []

/-- A group that the ridge pre-empts returns to its reset state, inputs, before the ridge drives it: its DIR bits clear (R29, R41). OUT, and DIR at
any other change of owner, keep their values (log entry 56). -/
def releaseBalls (g : Nat) (s : State) : State :=
  let mask := ((groupBalls g).map (2 ^ ·)).sum
  s.put R.glbGpioDir_DIR (s.get R.glbGpioDir_DIR - (s.get R.glbGpioDir_DIR &&& mask))

/-- Item `i` takes a new owner; an item the ridge pre-empts returns to its reset state and is announced (R25, R41; what becomes of its GPIO bits:
log entry 56). -/
def claimSet (reg1 : Bool) (i y : Nat) (s : State) : State :=
  let x := s.owner reg1 i
  if x = y then s
  else
    let s := s.put ⟨claimKind reg1, 4 * i, 4⟩ y
    let s := if reg1 = false ∧ x ≠ 0 then s.emit (.ballsReset i) else s
    let s := if reg1 = false ∧ y = 7 ∧ x ≠ 0 then releaseBalls i s else s
    if y = 7 ∧ x ≠ 0 then event 0x0F0C (b2n reg1 * 16 + i) [x] s else s

/-- A refused claim write (R40): `GLB_CLAIMERR` records its first conflicting field. -/
def claimRefused (m : Master) (reg1 : Bool) (i y : Nat) (s : State) : State :=
  let x := s.owner reg1 i
  let s := s.bump R.glbClaimerr_COUNT
  (((((s.put R.glbClaimerr_REQ y).put R.glbClaimerr_OWNER x).put R.glbClaimerr_ITEM i).put R.glbClaimerr_REG (b2n reg1)).put
    R.glbClaimerr_MASTER m.num).put R.glbClaimerr_VALID 1

/-- A write to a claim register, judged field by field (R39 to R41). -/
def writeClaim (m : Master) (reg1 : Bool) (v : Word) (s : State) : State :=
  let fs := (List.range (claimFields reg1)).map fun i => (i, fieldOf v (4 * i) 4)
  match fs.find? fun e => claimConflicts m reg1 e.1 e.2 s with
  | none => forEach (fs.filter fun e => ownerAllowed reg1 e.2) s fun e s => claimSet reg1 e.1 e.2 s
  | some e =>
    let s' := if m = .ridge then forEach (fs.filter fun e => decide (e.2 = 7)) s fun e s => claimSet reg1 e.1 e.2 s else s
    claimRefused m reg1 e.1 e.2 s'

/-- The firmware claims item `i` of a register for an owner: done, or refused (R39, R40; CONFLICT). -/
def claimFor (reg1 : Bool) (i y : Nat) (s : State) : Bool × State :=
  if s.owner reg1 i = y then (true, s)
  else if s.owner reg1 i = 0 then (true, claimSet reg1 i y s)
  else (false, claimRefused .control reg1 i y s)

/-- The firmware releases an item that it claimed. -/
def claimFree (reg1 : Bool) (i y : Nat) (s : State) : State := if s.owner reg1 i = y then claimSet reg1 i 0 s else s

/-- A load through CRC unit 3: the claim is made and released within the step; a refusal is tried again for 100 ms (R105, R375). -/
inductive Unit3 where
  | ok (s : State)
  | wait (s : State)
  | refused (s : State)

/-- The claim of unit 3 for an open command: 100 ms run from the first refusal (R375). -/
def claimUnit3 (o : OpenCmd) (s : State) : Unit3 :=
  let r := claimFor true 0 3 s
  if r.1 then .ok (claimFree true 0 3 r.2)
  else match o.waitFrom with
  | some u => if u + 100000000000 ≤ s.now then .refused r.2 else .wait r.2
  | none => .wait { r.2 with fw := { r.2.fw with opens := r.2.fw.opens.map fun x => if x = o then { x with waitFrom := some s.now } else x } }

/-- The owner code of resources that a command takes: HOST or REMOTE (R38). -/
def claimOwner : Queue → Nat
  | .q8 => 5
  | _ => 4

/-! Meanings. -/

def execPnrMsgWrite (t : Nat) (m : Master) (n : PnrCh) (i : Fin 16) (v : Word) (s : State) : Result :=
  liveWrite m t s (msgWrite m n i v)

def execPnrCtrlLenWrite (t : Nat) (m : Master) (n : PnrCh) (len : BitVec 5) (s : State) : Result :=
  liveWrite m t s (ctrlWrite m n len.toNat)

def execPnrLockRead (t : Nat) (m : Master) (member : Byte) (n : PnrCh) (s : State) : Result :=
  liveRead m t s fun s => (lockRead m member.toNat n s).2.emit (.readData (lockRead m member.toNat n s).1)

def execPnrLockRelease (t : Nat) (m : Master) (n : PnrCh) (owner : BitVec 3) (s : State) : Result :=
  liveWrite m t s (lockWrite m n owner.toNat)

/-- The receiver writes a new session epoch; FULL does not change (R88). -/
def execPnrEpochWrite (t : Nat) (m : Master) (n : PnrCh) (epoch : BitVec 16) (s : State) : Result :=
  liveWrite m t s fun s => if s.isReceiver m n then s.put R.pnrEpoch_EPOCH epoch.toNat n else pnrViolation m n 0x50 s

def execPnrBindWrite (t : Nat) (m : Master) (n : PnrCh) (v : Word) (s : State) : Result := liveWrite m t s (bindWrite m n v)

/-- Only master 2 may set the table lock (R75). -/
def execPnrBindlockSet (t : Nat) (m : Master) (s : State) : Result :=
  liveWrite m t s fun s => if m = .control then s.put R.pnrBindlock_LOCK 1 else s

def execPnrBellClear (t : Nat) (m owner : Master) (v : Word) (s : State) : Result := live t s (bellClear m owner v)

def execPnrBellenWrite (t : Nat) (m owner : Master) (v : Word) (s : State) : Result := live t s (bellenWrite m owner v)

/-- The debug session ends (R87). -/
def execJtagTapReset (t : Nat) (s : State) : Result := live t s (endSession .debug none)

end Sys2Proof.Machine
end

