-- ==== Sys2Proof/Machine/Access.lean ====
section
/-!
DEFINITION. Which masters' writes act on the registers of a block (R106, R107, R443).
-/
namespace Sys2Proof.Machine

/-- A refused host write: recorded and raised (R107). -/
def hostViolation (off : Nat) (s : State) : State :=
  let s := s.bump R.glbHostviol_COUNT
  let s := (s.put R.glbHostviol_OFFSET (off / 2)).put R.glbHostviol_VALID 1
  raise 6 0 none (s.reg ⟨.glbHostviol, 0, 0⟩).toNat false s

/-- A write to BAR0 offset `off` of the block whose host write enable is bit `wen`: a host write acts only while the bit
is 1 (R106, R107). The fabric proxy carries only pannier operations (R290). -/
def gated (wen off : Nat) (m : Master) (s : State) (f : State → State) : State :=
  if m = .proxy then s
  else if m = .host ∧ bitOf (s.get R.glbHostacc_WEN) wen = false then hostViolation off s
  else f s

end Sys2Proof.Machine
end

