-- ==== Sys2Proof/Machine/Reset.lean ====
section
/-!
DEFINITION. Full reset (R49 to R57, R70): its sources, the orderly and the hard entry, what survives, the clock
monitors and PLLs (R46), and the release of internal reset (R36, R56).
-/
namespace Sys2Proof.Machine

/-- Sources of full reset by their bit of `GLB_RSTCAUSE` (R70). -/
abbrev srcPor := 1
abbrev srcPin := 2
abbrev srcSys := 3
abbrev srcRidge := 4
abbrev srcBrown := 7

/-- `GLB_RSTCAUSE` at a full reset: one source bit, ORDERLY or ORDTIMEOUT where they apply, COUNT raised (R70). -/
def rstCause (src : Nat) (orderly timeout : Bool) (old : Word) : Word :=
  BitVec.ofNat 32 (satAdd 255 (fieldOf old 24 8) 1 * 2 ^ 24 + 2 ^ src + b2n orderly * 32 + b2n timeout * 64)

/-- `GLB_RSTCAUSE` when an orderly entry becomes hard: the hard source in place of its own, and the same reset counted once (R53, R70). -/
def hardened (src : Nat) (old : Word) : Word := BitVec.ofNat 32 (fieldOf old 24 8 * 2 ^ 24 + 2 ^ src)

/-- Registers that survive a full reset: the SRAM repair registers and `GLB_RSTCAUSE` (R57). -/
def survives (r : RegId) : Bool := decide (r.k = .bstRepair ∨ r.k = .glbRstcause)

/-- The state in full reset: everything at its reset value but what survives (R57): OTP with an accepted transition in
effect (R69), boot flash, the ball levels, host memory, the SRAM repair registers, and after an orderly entry the
DRAM contents with the playable library entries and the post indices held there (R57, R123). -/
def clearAll (keepDram : Bool) (s : State) : State :=
  let o := { s.otp with lc := s.otp.lcNext.getD s.otp.lc, lcNext := none }
  let dram := if keepDram then (drainN 64 0 (drainN 64 1 s)) else s
  { State.reset with
    pending := s.pending, now := s.now, out := s.out, freeCount := s.freeCount, otp := o, straps := s.straps,
    regs := s.regs.filter fun e => survives e.1,
    mfpIn := s.mfpIn, estopUntil := s.estopUntil, flash := s.flash, hostMem := s.hostMem, capacity := s.capacity,
    mem := if keepDram then dram.mem else [], chk := if keepDram then dram.chk else [],
    lib := if keepDram then s.lib.filter (fun e => decide (e.2.stored = e.2.streamLen)) else [],
    kept := if keepDram then s.kept ++ ((s.segs.filter fun e => !(s.kept.map (·.1)).contains e.1).map fun e => (e.1,
        ({ posts := e.2.posts.map fun p => { p with waits := none }, postPage := e.2.postPage, postLines := e.2.postLines, endPage := e.2.endPage } : Kept))) else [],
    boot := { State.reset.boot with dramKept := keepDram, powered := s.boot.powered, kickstand := true } }

/-- Internal reset is not released before `wait` ps from now (R55). -/
def prolong (wait : Nat) (s : State) : State := s.setBoot { s.boot with releaseAfter := max s.boot.releaseAfter (s.now + wait) }

/-- A hard entry: strobes and `HPEN` fall, DRAM contents are lost, and internal reset is asserted until `wait` ps from
now (R53, R55). A source that arises while a reset is in progress starts no second one (R53), but internal reset is released 50 us after the
latest of R55's events. -/
def beginHard (src wait : Nat) (s : State) : State :=
  if s.boot.inReset then prolong wait s
  else
    let old := s.reg ⟨.glbRstcause, 0, 0⟩
    let cause := if s.boot.orderly.isSome then hardened src old else rstCause src false false old
    let s := clearAll false (settleHpen (s.put R.rdgHpen_GRANT 0))
    let s := s.setReg ⟨.glbRstcause, 0, 0⟩ cause
    s.setBoot { s.boot with releaseAfter := s.now + wait }

/-- 50 us from the end of a hard source to the release of internal reset (R55). -/
abbrev holdHard := 50000000

/-- Steps 1 and 2 of an orderly entry (R50, R53): the ridge enters the safe state with cause RESET, and a PRINTING
device ledgers one line with cause `SAFE_STATE` at each armed port; after that no line is due. -/
def beginOrderly (src : Nat) (s : State) : State :=
  if s.boot.inReset ∨ s.boot.orderly.isSome then s
  else
    let printing := decide (s.dev = .printing)
    let f := s.cad.line + 1
    let s := enterSafe 7 s
    let s := if printing then forEach (armedPorts s) s fun p s => ledgerLine p 0xFF 8 false f s.chainTime s else s
    let s := match s.job with | some j => s.setJob (some { j with printing := false }) | none => s
    let s := closeRuns (fun _ => true) false s
    let s := s.setReg ⟨.glbRstcause, 0, 0⟩ (rstCause src true false (s.reg ⟨.glbRstcause, 0, 0⟩))
    s.setBoot { s.boot with orderly := some s.now }

/-- Records held on chip are written to the ring, or to the overflow area where they do not fit (step 3, R114). -/
def flushLedger (s : State) : State :=
  let s := drainLedger s.ledgerHeld s
  let l := s.ledger
  let area := (List.range (l.overflow - l.moved)).foldl (fun (acc : List (List Byte) × State) i =>
    let r := overflowRead (l.moved + i) acc.2
    (match r.1 with | some bs => acc.1 ++ [bs] | none => acc.1, r.2)) ([], s)
  let recs := (l.onchip ++ area.1).take overflowRoom
  let zeros := List.replicate (l.overflow - recs.length) (List.replicate 32 0)
  if l.onchip = [] ∧ l.moved = 0 then s
  else forEach (recs ++ zeros).zipIdx (area.2.setLedger { l with onchip := [], overflow := recs.length, moved := 0 }) fun e s =>
    dramWrite ((e.1.getD 3 0).toNat / 4) (s.overflowBase + 32 * e.2) e.1 s

/-- What the firmware keeps of the ledger ring over an orderly reset: its place and pointers (R19, R114; log entry 24). -/
def State.ledgerKept (s : State) : Option (Nat × Nat × Nat × Nat) :=
  if s.ringSlots = 0 then s.ledger.was
  else some (s.ledgerBase, s.ringSlots, s.get R.hptLdwr_WR, s.get R.hptLdrd_RD)

/-- Steps 3 to 6 of an orderly entry: the ledger and the write queues drain, DRAM is kept in self-refresh, internal
reset is asserted. -/
def assertOrderly (s : State) : State :=
  let cause := s.reg ⟨.glbRstcause, 0, 0⟩
  let s := flushLedger s
  let kept := s.ledgerKept
  let held := s.ledger.overflow
  let s := clearAll true s
  let s := s.setLedger { s.ledger with was := kept, overflow := held }
  s.setReg ⟨.glbRstcause, 0, 0⟩ cause

/-- An orderly entry in progress becomes hard for a hard source, which `GLB_RSTCAUSE` records (R53). -/
def hardSource (src wait : Nat) (s : State) : State := beginHard src wait s

/-- A ridge reset request: orderly while the heartbeat runs, else hard (R50; log entry 11). -/
def ridgeReset (s : State) : State :=
  if s.flag R.rdgHbstat_ARMED ∧ s.flag R.rdgHbstat_EXPIRED = false then beginOrderly srcRidge s
  else hardSource srcRidge holdHard s

/-! Supplies (R47 to R49, R450 to R452). -/

/-- Absolute maximum ratings of the rails in mV, in the order of `Rails` (R450). -/
def railMax : List Nat := [900, 950, 1050, 1400, 1300, 2100, 2100, 950]
/-- Power-good thresholds, rising and falling (R451): `VDD`, `VDDM`, `VDDL`, `VDDLH`, `VDDQ`, `VDDIO`, `VDDA`,
`VDD_RDG`. -/
def railRise : List Nat := [700, 745, 840, 1120, 1030, 1640, 1640, 745]
def railFall : List Nat := [680, 725, 820, 1090, 1000, 1600, 1600, 725]

/-- Rails as a list in order. -/
def railList (r : Rails) : List Nat := [r.vdd, r.vddm, r.vddl, r.vddlh, r.vddq, r.vddio, r.vdda, r.vddrdg]

/-- A rail lies beyond its absolute maximum rating: no function is specified (R449, R450). -/
def beyond (r : Rails) : Bool := ((railList r).zip railMax).any fun e => decide (e.2 < e.1)

/-- Every rail has reached its rising threshold (R49, R451). -/
def railsGood (r : Rails) : Bool := ((railList r).zip railRise).all fun e => decide (e.2 ≤ e.1)

/-- A power cycle: nothing but OTP, boot flash and what lies outside the device survives (R57). -/
def powerCycle (good : Bool) (s : State) : State :=
  let o := { s.otp with lc := s.otp.lcNext.getD s.otp.lc, lcNext := none }
  { State.reset with
    pending := s.pending, now := s.now, out := s.out, freeCount := s.freeCount, otp := o, straps := s.straps, mfpIn := s.mfpIn,
    estopUntil := s.estopUntil, flash := s.flash, hostMem := s.hostMem, capacity := s.capacity,
    boot := { State.reset.boot with powered := good, kickstand := good, releaseAfter := s.now + holdHard } }

/-- A programming that power failure stopped half way: flash holds free bytes over its range, and of a transition the identity key is
erased while the old state stands (R60, R69). -/
def Program.torn (p : Program) (s : State) : State :=
  let bs := (List.range p.len).map fun i => Config.freeByte (s.freeCount + i)
  { s with flash := Memory.writeN 0xFF p.flash p.addr bs, otp := { p.otp with idKey := s.otp.idKey }, freeCount := s.freeCount + p.len }

/-- Power fails at the instant of a programming of flash or OTP: which of the programmings of that instant it stops, and whether that one is
found not begun, half done or done, is free; those after it are not begun (R60, R69; log entry 120). -/
def powerFail (s : State) : State :=
  let n := s.freeCount
  match s.programs[Config.freeNat n % s.programs.length]? with
  | none => s
  | some p =>
    if s.now ≠ p.at_ then s
    else match Config.freeNat (n + 1) % 3 with
    | 0 => { s.drawn.drawn with flash := p.flash, otp := p.otp }
    | 1 => p.torn s.drawn.drawn
    | _ => s.drawn.drawn

/-- Flash or OTP is programmed: what stood before, for a power failure at the same instant (R60, R69). -/
def State.programming (a n : Nat) (s : State) : State :=
  { s with programs := ⟨s.now, s.flash, s.otp, a, n⟩ :: s.programs.filter fun p => decide (p.at_ = s.now) }

/-- Rails at power-on (R49): the device holds full reset while any is below its threshold; internal reset is released
50 us after all are good (R55). -/
def execPowerOn (t : Nat) (rails : Rails) (s : State) : Result :=
  if beyond rails then .fault .beyondRatings else always t s fun s => powerCycle (railsGood rails) (powerFail s)

/-- Whether a dip of a rail to `mv` for `durNs` resets: for 2 us or longer always, below 0.5 us never, between them as
the device may (R452). -/
def dipActs (mv durNs limit n : Nat) : Bool :=
  decide (mv < limit) && (decide (2000 ≤ durNs) || (decide (500 ≤ durNs) && Config.brownOutActs n))

/-- A rail falls below its threshold and returns (R49, R452): a hard entry recorded as brown-out. While `VDDL` or `VDDLH` is out of range the
fabric ports are not in kickstand mode (R55); that they enter it when the rail returns the spec does not say (DESIGN CHOICE, log entry
121). -/
def execBrownOut (t : Nat) (rail : Fin 8) (mv durNs : Nat) (s : State) : Result :=
  if railMax.getD rail 0 < mv then .fault .beyondRatings
  else always t s fun s =>
    let acts := dipActs mv durNs (railFall.getD rail 0) s.freeCount
    let s := if mv < railFall.getD rail 0 ∧ 500 ≤ durNs ∧ durNs < 2000 then s.drawn else s
    let ports (s : State) : State := if rail = 2 ∨ rail = 3 then s.setBoot { s.boot with kickFrom := max s.boot.kickFrom (s.now + durNs * 1000) } else s
    if acts then ports (hardSource srcBrown (durNs * 1000 + holdHard) (powerFail s)) else s

/-- `RESET_N` low: at least 1 us is a hard source, below 100 ns nothing, between them as the device may (R50, R51). -/
def execResetNAssert (t durNs : Nat) (s : State) : Result :=
  always t s fun s =>
    let acts := decide (1000 ≤ durNs) || (decide (100 ≤ durNs) && Config.resetPulseActs s.freeCount)
    let s := if 100 ≤ durNs ∧ durNs < 1000 then s.drawn else s
    if acts then hardSource srcPin (durNs * 1000 + holdHard) s else s

/-- The reset after `SYS_RESET` begins 1 ms after its response was posted; it begins earlier when the host takes that
response (R52, Commands.lean). From HELD it is always hard. -/
def startSysReset (s : State) : State :=
  match s.fw.resetPending with
  | some (hard, _) =>
    let s := { s with fw := { s.fw with resetPending := none } }
    if hard then hardSource srcSys holdHard s else beginOrderly srcSys s
  | none => s

/-- The response of `SYS_RESET` waits for its channel: the millisecond counts from its posting. -/
def resetUnanswered (s : State) : Bool := s.fw.respQ.any fun e => decide ((e.2.headD 0).toNat / 65536 = 0x0103)

def execResetBegin (t : Nat) (s : State) : Result :=
  live t s fun s => match s.fw.resetPending with
  | some (_, t0) => if t0 + 1000000000 ≤ s.now ∧ resetUnanswered s = false then startSysReset s else s
  | none => s

/-- Steps 2 to 4 of an orderly entry not complete 2 ms after the trigger: the entry becomes hard, and the DRAM
contents are lost (R54). -/
def execOrderlyTimeout (t : Nat) (s : State) : Result :=
  always t s fun s => match s.boot.orderly with
  | some t0 =>
    if t0 + 2000000000 ≤ s.now then
      let old := s.reg ⟨.glbRstcause, 0, 0⟩
      let s := clearAll false s
      let s := s.setReg ⟨.glbRstcause, 0, 0⟩ ((old &&& ~~~ 0x20) ||| 0x40)
      s.setBoot { s.boot with releaseAfter := s.now + holdHard }
    else s
  | none => s

/-- The 7-bit address of the I2C target (R37). -/
def State.i2cAddress (s : State) : Nat := 0x38 + s.straps.i2ca.toNat

/-- How the boot flash is read (R37, R56): in 1S-1S-1S at first, and in 8D-8D-8D once it has changed to it. -/
structure FlashMode where
  start8d : Bool
  run8d : Bool
deriving DecidableEq, Repr

/-- The flash mode that the boot straps select (R37). -/
def State.flashMode (s : State) : FlashMode :=
  { start8d := decide (s.straps.boot.toNat = 2), run8d := decide (s.straps.boot.toNat = 0 ∨ s.straps.boot.toNat = 2) }

/-- `TEST_EN` is ignored in FIELD and RETIRED (R37). -/
def State.testMode (s : State) : Bool := s.straps.testEn && decide (s.otp.lc = .test ∨ s.otp.lc = .rma)

/-- The value of `GLB_STRAP` for sampled straps (R37). -/
def strapValue (st : Straps) : Word :=
  BitVec.ofNat 32 (b2n st.rootN + 2 * st.i2ca.toNat + 16 * st.boot.toNat + 64 * b2n st.testEn)

/-- What the function's configuration space holds at an offset of its standard header (R276): the IDs, the class code and the subsystem IDs. -/
def configWord (off : Nat) : Option Word :=
  if off = 0x00 then some 0x26181F6E else if off = 0x08 then some 0x118000B0 else if off = 0x2C then some 0x00011F6E else none

/-- The Device Serial Number (R276). -/
def State.serialNumber (s : State) : Nat := s.get R.glbUid1_UID_HI * 2 ^ 32 + s.get R.glbUid0_UID_LO

/-- Size in bytes of a base address register's window: BAR0, BAR2 and BAR4 (R277). -/
def State.barSize (s : State) (bar : Nat) : Nat :=
  if bar = 0 then 0x400000 else if bar = 2 then s.capacity else if bar = 4 then 0x10000 else 0

/-- Completion timeouts of Device Control 2: the default of 50 ms, and the codes of ranges B and C (R281). -/
def timeoutCodes : List Nat := [0, 5, 6, 9, 10]

/-- What the host sets as it enumerates the function: free values within R276, R277 and R281 (log entry 137). -/
def enumerated (n upAt : Nat) (s : State) : Pcie :=
  { State.reset.pcie with
    upAt := upAt, readyAt := upAt + Config.pcieEnumerate n, bars := [0, 2, 4].map fun b => (b, Config.pcieBar n b * s.barSize b),
    payload := 128 * 2 ^ (Config.pciePayload n).val, readReq := 128 * 2 ^ (Config.pcieReadReq n).val,
    timeout := timeoutCodes.getD (Config.pcieTimeout n).val 0, aspmL1 := Config.pcieAspm n }

/-- The endpoint's settings return to their defaults, and the host enumerates the function anew (R280). -/
def reEnumerate (upAt : Nat) (s : State) : State :=
  { s.drawn with msixOn := Config.msixEnabled s.freeCount, pcie := enumerated s.freeCount upAt s }

/-- The link trains and comes up where the board has a host link, at a width of 1, 2, 4 or 8 and a speed of 1 to 5 (boot step 3, R276). -/
def pcieUp (s : State) : State :=
  if Config.hostAttached then
    let n := s.freeCount
    reEnumerate (s.now + Config.pcieTrain n)
      (((s.put R.lnsPciestat_UP 1).put R.lnsPciestat_WIDTH (2 ^ (Config.pcieWidth n).val)).put R.lnsPciestat_SPEED ((Config.pcieSpeed n).val + 1))
  else s

/-- Boot steps 1 to 4: straps sampled, OTP read, the ridge in its ROM with the safe state asserted; a low `ESTOP_N` acts
(R385, R388). -/
def bootRom (straps : Straps) (s : State) : State :=
  let s := { s with straps := straps, boot := { s.boot with inReset := false, orderly := none } }
  let s := s.setReg ⟨.glbStrap, 0, 0⟩ (strapValue straps)
  let s := (s.put R.glbUid0_UID_LO (s.otp.uid.toNat % 2 ^ 32)).put R.glbUid1_UID_HI (s.otp.uid.toNat / 2 ^ 32)
  let s := (s.put R.glbBootstat_LC s.otp.lc.code).put R.glbBootstat_IDKEY (b2n s.otp.idKey)
  let s := (s.put R.glbBootstat_DRAMKEPT (b2n s.boot.dramKept)).put R.glbBootstat_PHASE 4
  let s := if s.now < s.estopUntil then s.put R.rdgCause_CAUSE (s.get R.rdgCause_CAUSE ||| 2) else s
  pcieUp (s.put R.rdgStatus_ROM 1)

/-- Step 7 of an orderly entry: 50 us after step 6 (R50; log entry 71). -/
abbrev orderlyRelease := orderlyAssert + 50000000

/-- Internal reset is released (R36, R55, R56): after a hard entry at its time, after an orderly entry at the earliest
`orderlyRelease` from the trigger (steps 5 to 7). -/
def execInternalResetRelease (t : Nat) (straps : Straps) (s : State) : Result :=
  always t s fun s =>
    match s.boot.inReset, s.boot.orderly with
    | true, _ => if s.boot.powered ∧ s.boot.releaseAfter ≤ s.now then bootRom straps s else s
    | false, some t0 => if t0 + orderlyRelease ≤ s.now then bootRom straps (assertOrderly s) else s
    | false, none => s

/-! Clock monitors (R46). -/

/-- The time for which `SYSCLK` must have been within tolerance after a clock fault (R46). -/
abbrev sysclkHold := 1000000000

/-- `SYSCLK` lost or off frequency for `outNs` from now: safe state with cause CLOCK, and a hard reset held until 1 ms from the entry or from the
return to tolerance, if that is later, and 50 us (R46, R55). -/
def sysclkFault (id outNs : Nat) (inj : Bool) (s : State) : State :=
  let s := hardSource srcRidge (outNs * 1000 + sysclkHold + holdHard) (enterSafe 3 (raise id 0 none 0 inj s))
  s.setBoot { s.boot with clockHold := true }

/-- `SYSCLK` out of tolerance during a full reset: the release waits for its return, and after a clock fault for 1 ms more (R46, R55). -/
def clockOut (outNs : Nat) (s : State) : State := prolong (outNs * 1000 + (if s.boot.clockHold then sysclkHold else 0) + holdHard) s

/-- `SYSCLK` stands still: from 1 us on it is lost (R46). -/
def execSysclkLoss (gap : ClockGap) (s : State) : Result :=
  always gap.t s fun s =>
    if s.boot.inReset then (if 1000 ≤ gap.outNs then clockOut gap.outNs s else s)
    else
      let m := meets 1 0 (decide (1000 ≤ gap.outNs)) s
      if m.1 then sysclkFault 1 gap.outNs m.2.1 m.2.2 else m.2.2

/-- Whether a measurement of `SYSCLK` over 1 ms is more than 10 % from 25 MHz (R46). -/
def offFrequency (khz : Nat) : Bool := decide (khz < 22500 ∨ 27500 < khz)

/-- `SYSCLK` measured over 1 ms, and for how long it then stays out of tolerance (R46). -/
def execSysclkFreq (t : Nat) (r : ClockRate) (s : State) : Result :=
  always t s fun s =>
    if s.boot.inReset then (if offFrequency r.khz then clockOut r.outNs s else s)
    else
      let m := meets 2 0 (offFrequency r.khz) s
      if m.1 then sysclkFault 2 r.outNs m.2.1 m.2.2 else m.2.2

/-- The ridge oscillator measured over 1 ms: outside 40 to 60 MHz the safe state is forced in hardware and the device
enters FAULT (R46). -/
def execRidgeOsc (t khz : Nat) (s : State) : Result :=
  live t s fun s =>
    let m := meets 3 0 (decide (khz < 40000 ∨ 60000 < khz)) s
    if m.1 then
      let s := latchSafe 3 (raise 3 0 none 0 m.2.1 m.2.2)
      if s.dev = .held then s else setDev .fault 3 (interruptJob s)
    else m.2.2

end Sys2Proof.Machine
end

