-- ==== Sys2Proof/Machine/Ridge.lean ====
section
/-!
DEFINITION. The ridge safety partition (spec 17): limit records (R378 to R380), ridge commands (R389), the heartbeat
watchdog (R383, R384), emergency stop (R385), the ridge core's register writes (R386, R388, R377, R257).
-/
namespace Sys2Proof.Machine

/-! Limit records. -/

/-- The five requirements of R379, in order: form; signature; unique ID; heartbeat period; port fields. -/
def limitForm (r : List Byte) : Bool :=
  decide (r.length = 784 ∧ fieldAt r 0 4 = 0x54494D4C ∧ fieldAt r 4 2 = 1 ∧ fieldAt r 6 1 ≤ 3 ∧ fieldAt r 7 1 = 0) &&
  ((r.drop 0x12).take 46).all (· = 0) && ((r.drop 0x2A1).take 15).all (· = 0) &&
  (List.range 16).all fun p => ((r.drop (0x40 + 32 * p + 14)).take 18).all (· = 0) && decide (fieldAt r (0x40 + 32 * p + 12) 2 < 4)

/-- Whether a key is the one of an OTP slot that is not revoked (R62, R379). -/
def keyMatches (key : List Byte) (slot : Nat) (s : State) : Bool :=
  match s.otp.keys[slot]? with
  | some (h, revoked) => decide (beNat (sha384 key) = h) && !revoked
  | none => false

def limitSigned (r : List Byte) (s : State) : Bool :=
  let key := (r.drop 0x240).take 97
  keyMatches key (fieldAt r 6 1) s && ecdsaVerify key (r.take 0x2B0) ((r.drop 0x2B0).take 96)

def limitUid (r : List Byte) (s : State) : Bool :=
  decide (fieldAt r 8 8 = 0 ∨ fieldAt r 8 8 = s.get R.glbUid1_UID_HI * 2 ^ 32 + s.get R.glbUid0_UID_LO)

/-- A field of port `p`'s entry. -/
def limitField (r : List Byte) (p off : Nat) : Nat := fieldAt r (0x40 + 32 * p + off) 2

/-- Item 5 of R379 for one port. -/
def limitPort (r : List Byte) (p : Nat) : Bool :=
  let wmin := limitField r p 0
  let wmax := limitField r p 2
  let minper := limitField r p 4
  let wdlim := limitField r p 6
  decide (16 ≤ wmin ∧ wmin ≤ wmax ∧ wmax ≤ 16376 ∧ 5000 ≤ minper ∧ 8 ≤ wdlim ∧ wdlim ≤ 16383
    ∧ signed 16 (limitField r p 8) < signed 16 (limitField r p 10)
    ∧ 1250 * wmax + 10000 ≤ 2500 * wdlim ∧ 1250 * wmax + 100000 ≤ 1000 * minper)

/-- The status of a record that breaks R379: INTEGRITY for item 2, BAD_ARGUMENT for any other (R389). -/
def limitFail (r : List Byte) (s : State) : Option Nat :=
  firstFail [(!limitForm r, stBadArgument), (!limitSigned r s, stIntegrity), (!limitUid r s, stBadArgument),
    (!decide (1 ≤ fieldAt r 0x10 2 ∧ fieldAt r 0x10 2 ≤ 1000), stBadArgument), (!(List.range 16).all (limitPort r), stBadArgument)]

/-- An accepted record is written into the limit registers and the limits lock (R380). -/
def applyLimits (r : List Byte) (s : State) : State :=
  let s := forEach (List.range 16) s fun p s =>
    let f := limitField r p
    let s := (s.put R.rdgPortWidth_WMIN (f 0) p).put R.rdgPortWidth_WMAX (f 2) p
    let s := (s.put R.rdgPortTime_MINPER (f 4) p).put R.rdgPortTime_WDLIM (f 6) p
    let s := (s.put R.rdgPortTemp_TWARN (f 8) p).put R.rdgPortTemp_TTRIP (f 10) p
    (s.put R.rdgPstat_ENABLE (f 12 % 2) p).put R.rdgPstat_WDDROP (f 12 / 2 % 2) p
  let s := s.put R.rdgHbcfg_PERIOD (fieldAt r 0x10 2)
  let s := (s.put R.rdgLock_LOCK 1).put R.rdgStatus_LOCK 1
  s.setRdg { s.rdg with recordCrc := crc32c r }

/-- `ESTOP_N` is low after the filter. -/
def State.estopIn (s : State) : Bool := decide (s.now < s.estopUntil)

/-- `RDG_STATUS` with the present level of `ESTOP_N`. -/
def rdgStatusWord (s : State) : Nat := (s.reg ⟨.rdgStatus, 0, 0⟩).toNat + 2 * b2n s.estopIn

/-! Ridge commands (R389). -/

/-- The ridge serves its commands in every device state. -/
def ridgeStates : List DevState := [.boot, .held, .ready, .armed, .printing, .paused, .safe, .fault]

/-- No condition of its own. -/
def noFail (_ : Cmd) (_ : State) : Option (Nat × Nat) := none

def rdgIdentifyRow : OpRow := { op := 0x1001, argw := 0, states := ridgeStates, held := true }
def rdgIdentifyAct (_ : Cmd) (s : State) : Reply :=
  { words := [fieldAt s.boot.rdgHeader 8 4, s.rdg.proto, s.get R.rdgLock_LOCK, s.rdg.recordCrc.toNat], s := s }
def rdgIdentifyRun : Cmd → State → State := runCommand rdgIdentifyRow noFail rdgIdentifyAct

/-- Ports with a bit of `RDG_PSTAT` set. -/
def pstatMask (f : Fld) (s : State) : Nat := ((List.range 16).map fun p => b2n (s.flag f p) * 2 ^ p).sum

/-- `RDG_HPEN` with the present levels (R377). -/
def hpenWord (s : State) : Nat := s.get R.rdgHpen_GRANT + ((List.range 16).map fun p => b2n (hpen s p) * 2 ^ (16 + p)).sum

def rdgStatusRow : OpRow := { op := 0x1002, argw := 0, states := ridgeStates, held := true }
def rdgStatusAct (_ : Cmd) (s : State) : Reply :=
  { words := [rdgStatusWord s, (s.reg ⟨.rdgCause, 0, 0⟩).toNat, hpenWord s,
              pstatMask R.rdgPstat_TRIP s + 65536 * pstatMask R.rdgPstat_WARN s], s := s }
def rdgStatusRun : Cmd → State → State := runCommand rdgStatusRow noFail rdgStatusAct

def rdgLimitsRow : OpRow := { op := 0x1003, argw := 4, states := ridgeStates, held := true }
/-- Conditions of `RDG_LIMITS` that do not need the staged bytes (R104, R380, R389). -/
def rdgLimitsFail (c : Cmd) (s : State) : Option (Nat × Nat) :=
  let a := cmdDword c 1
  if cmdNat c 3 ≠ 784 then some (stBadArgument, 0)
  else if needsDram a s then some (stNoResource, 0)
  else match stagingFail c a 784 s with
  | some st => some (st, 0)
  | none => if s.flag R.rdgLock_LOCK then some (stWrongState, 0) else none
def rdgLimitsAct (c : Cmd) (s : State) : Reply :=
  let r := fetch 7 (cmdDword c 1) 784 s
  match r.1 with
  | .bytes bs =>
    if crc32c bs ≠ c.w 4 then { status := stIntegrity, s := r.2 }
    else match limitFail bs r.2 with
    | some st => { status := st, s := r.2 }
    | none => { s := applyLimits bs r.2 }
  | _ => { status := stIntegrity, s := r.2 }
def rdgLimitsRun : Cmd → State → State := runCommand rdgLimitsRow rdgLimitsFail rdgLimitsAct

def rdgSafeEnterRow : OpRow := { op := 0x1004, argw := 0, states := ridgeStates, held := true }
def rdgSafeEnterAct (_ : Cmd) (s : State) : Reply := { s := enterSafe 5 s }
def rdgSafeEnterRun : Cmd → State → State := runCommand rdgSafeEnterRow noFail rdgSafeEnterAct

/-- Cause bits that a release may clear: HOST, and ESTOP while `ESTOP_N` is high (R388). -/
def releasable (s : State) : Nat := 0x20 + (if s.estopIn then 0 else 0x02)

/-- Cause bits of a mask cleared. -/
def clearCauses (m : Nat) (s : State) : State :=
  s.put R.rdgCause_CAUSE (s.get R.rdgCause_CAUSE - (s.get R.rdgCause_CAUSE &&& m))

def rdgSafeReleaseRow : OpRow := { op := 0x1005, argw := 0, states := ridgeStates, held := true }
/-- Clears what may be cleared, then releases; CONFLICT if a cause remains, the cleared bits staying cleared (R97,
R389). -/
def rdgSafeReleaseAct (_ : Cmd) (s : State) : Reply :=
  let s := clearCauses (releasable s) s
  let left := s.get R.rdgCause_CAUSE
  { status := if left = 0 then stOk else stConflict, words := [left], s := releaseSafe s }
def rdgSafeReleaseRun : Cmd → State → State := runCommand rdgSafeReleaseRow noFail rdgSafeReleaseAct

/-! Watchdog faults (R256, R257). -/

/-- The register and bit of a strobe's watchdog fault. -/
def wdBit (p k : Nat) : Nat := 4 * (p % 8) + k
def wdFault (s : State) (p k : Nat) : Bool := bitOf (s.reg ⟨.hptWdfault, p / 8, 0⟩).toNat (wdBit p k)
/-- A fault stands on the port. -/
def portFaulted (s : State) (p : Nat) : Bool := (List.range 4).any (wdFault s p)
/-- Faults of strobes in a mask cleared. -/
def clearFaults (p m : Nat) (s : State) : State :=
  s.setReg ⟨.hptWdfault, p / 8, 0⟩ (s.reg ⟨.hptWdfault, p / 8, 0⟩ &&& ~~~ BitVec.ofNat 32 (m % 16 * 2 ^ (4 * (p % 8))))

def rdgPortClearRow : OpRow := { op := 0x1006, argw := 2, states := ridgeStates, held := true }
/-- BAD_ARGUMENT outside the ranges; CONFLICT where a named fault cannot be cleared under R257, or where the head is
still at the trip temperature (R382, R389, R390; log entry 13). -/
def rdgPortClearFail (c : Cmd) (s : State) : Option (Nat × Nat) :=
  let p := cmdNat c 1
  if 15 < p ∨ 15 < cmdNat c 2 then some (stBadArgument, 0)
  else if (maskList 4 (cmdNat c 2)).any fun k => wdFault s p k && (s.strobe p k).genHigh then some (stConflict, 0)
  else match (s.port p).theta with
  | some th => if s.flag R.rdgPstat_TRIP p ∧ signed 16 (s.get R.rdgPortTemp_TTRIP p) ≤ th then some (stConflict, 0) else none
  | none => none
def rdgPortClearAct (c : Cmd) (s : State) : Reply :=
  let p := cmdNat c 1
  let s := clearFaults p (cmdNat c 2) s
  let ok := match (s.port p).theta with
    | some th => decide (th < signed 16 (s.get R.rdgPortTemp_TWARN p)) && !portFaulted s p
    | none => false
  let s := if ok then s.put R.rdgPstat_TRIP 0 p else s
  { words := [(s.reg ⟨.rdgPstat, p, 0⟩).toNat], s := s }
def rdgPortClearRun : Cmd → State → State := runCommand rdgPortClearRow rdgPortClearFail rdgPortClearAct

def rdgMaintRow : OpRow := { op := 0x1007, argw := 1, states := [.ready] }
def rdgMaintFail (c : Cmd) (_ : State) : Option (Nat × Nat) := if 65535 < cmdNat c 1 then some (stBadArgument, 0) else none
/-- The mask replaces the grants: ports with ENABLE and no TRIP (R389). -/
def rdgMaintAct (c : Cmd) (s : State) : Reply :=
  let g := (((maskList 16 (cmdNat c 1)).filter fun p => s.flag R.rdgPstat_ENABLE p && !s.flag R.rdgPstat_TRIP p).map (2 ^ ·)).sum
  { words := [g], s := setGrant g s }
/-- `RDG_MAINT` returns WRONG_STATE in every state but READY, HELD included (R389). -/
def rdgMaintRun (c : Cmd) (s : State) : State :=
  if s.dev = .held then respond 0x1007 c stWrongState 0 [] s else runCommand rdgMaintRow rdgMaintFail rdgMaintAct c s

def execRdgIdentify (t : Nat) (c : Cmd) (s : State) : Result := command t c s rdgIdentifyRun
def execRdgStatus (t : Nat) (c : Cmd) (s : State) : Result := command t c s rdgStatusRun
def execRdgLimits (t : Nat) (c : Cmd) (s : State) : Result := command t c s rdgLimitsRun
def execRdgSafeEnter (t : Nat) (c : Cmd) (s : State) : Result := command t c s rdgSafeEnterRun
def execRdgSafeRelease (t : Nat) (c : Cmd) (s : State) : Result := command t c s rdgSafeReleaseRun
def execRdgPortClear (t : Nat) (c : Cmd) (s : State) : Result := command t c s rdgPortClearRun
def execRdgMaint (t : Nat) (c : Cmd) (s : State) : Result := command t c s rdgMaintRun

/-! Heartbeat (R383, R384). -/

/-- An accepted kick: the watchdog restarts, is armed, and NEXTKEY advances. -/
def kickAccepted (s : State) : State :=
  let s := (s.bumpWrap R.rdgHbstat_NEXTKEY).put R.rdgHbstat_ARMED 1
  s.setRdg { s.rdg with hbAt := s.now }

/-- A write of `RDG_KICK`: only master 2; the expected key is accepted, any other counted and raised, after an expiry too (R383). A kick in
the ridge cycle of the expiry (R390), or under an armed injection of detector 54, is discarded. The record shows the register with the key
counted (R423). -/
def kick (m : Master) (key : Nat) (s : State) : State :=
  let meets_ : Bool := match s.rdg.expiredAt with | some u => s.flag R.rdgHbstat_EXPIRED && decide (u / 20000 = s.now / 20000) | none => false
  if m ≠ .control ∨ meets_ = true ∨ armedFor 54 0 s = true then s
  else if key = s.get R.rdgHbstat_NEXTKEY then kickAccepted s
  else
    let u := s.bump R.rdgHbstat_BADKEYS
    raise 53 0 none (u.reg ⟨.rdgHbstat, 0, 0⟩).toNat false u

def execHeartbeatKick (t : Nat) (m : Master) (key : Byte) (s : State) : Result := liveWrite m t s (kick m key.toNat)

/-- Expiry of the armed watchdog: no kick accepted for HBPERIOD, counted on an oscillator of 40 to 60 MHz, so not
before 0.833 of it (R384). The instant within the range is the command's. -/
def execHeartbeatExpired (t : Nat) (s : State) : Result :=
  live t s fun s =>
    if s.flag R.rdgHbstat_ARMED = true ∧ s.flag R.rdgHbstat_EXPIRED = false
        ∧ s.rdg.hbAt + s.get R.rdgHbcfg_PERIOD * 1000000000 * 5 / 6 ≤ s.now then
      let inj := armedFor 54 0 s
      let s := if inj then disarm s else s
      let s := s.put R.rdgHbstat_EXPIRED 1
      let s := s.setRdg { s.rdg with expiredAt := some s.now }
      enterSafe 2 (raise 54 0 none 0 inj s)
    else s

/-- Ten ms after expiry the ridge requests a full reset, which is hard (R384, R50). -/
def execHeartbeatResetRequest (t : Nat) (s : State) : Result :=
  live t s fun s => match s.rdg.expiredAt with
  | some t0 => if t0 + 10000000000 ≤ s.now then ridgeReset s else s
  | none => s

/-! Emergency stop (R34, R385). -/

/-- `ESTOP_N` low for `lowNs` from the command's instant. A low level of 200 ns acts, one below 50 ns does not, and
between them the filter may pass it. A level that begins in full reset acts at the release of internal reset, if it still
stands (R388). -/
def execEstop (t lowNs : Nat) (s : State) : Result :=
  always t s fun s =>
    let acts := decide (200 ≤ lowNs) || (decide (50 ≤ lowNs) && Config.estopActs s.freeCount)
    let s := if 50 ≤ lowNs ∧ lowNs < 200 then s.drawn else s
    let s := if acts then { s with estopUntil := max s.estopUntil (s.now + 1000 * lowNs) } else s
    if acts ∧ s.asserted = false then enterSafe 1 s else s

/-! The ridge core's register writes. -/

/-- A write of `RDG_SAFE`: CAUSE unless it is reserved; then ENTER with a cause of 3 to 7, RELEASE, RESETREQ (R50, R386, R388). -/
def safeWrite (m : Master) (cause : Nat) (enter release reset : Bool) (s : State) : State :=
  if m ≠ .ridge then s
  else
    let legal := decide (3 ≤ cause)
    let s := if legal then s.put R.rdgSafe_CAUSE cause else s
    let s := if enter && legal then enterSafe cause s else s
    let s := if release then releaseSafe s else s
    if reset then ridgeReset s else s

/-- `RDG_SAFE.ENTER` with a cause of 3 to 7 (R386). -/
def execSafeEnter (t : Nat) (m : Master) (cause : BitVec 3) (s : State) : Result :=
  liveWrite m t s (safeWrite m cause.toNat true false false)

/-- `RDG_SAFE.RELEASE` (R388). -/
def execSafeRelease (t : Nat) (m : Master) (s : State) : Result :=
  liveWrite m t s fun s => if m = .ridge then releaseSafe s else s

/-- `RDG_SAFE.RESETREQ` (R50). -/
def execSafeResetreq (t : Nat) (m : Master) (s : State) : Result :=
  liveWrite m t s fun s => if m = .ridge then ridgeReset s else s

/-- A write of 1s to `RDG_CAUSE` by the ridge clears the bits R388 permits: BOOT once the first kick was accepted,
ESTOP while `ESTOP_N` is high, HOST and CONTROL. -/
def causeClear (m : Master) (v : Nat) (s : State) : State :=
  let may := releasable s + 0x40 + (if s.flag R.rdgHbstat_ARMED then 1 else 0)
  if m = .ridge then clearCauses (v &&& may) s else s

def execRdgCauseClear (t : Nat) (m : Master) (v : Byte) (s : State) : Result := liveWrite m t s (causeClear m v.toNat)

/-- A write of `RDG_HPEN.GRANT` by the ridge: a bit set while TRIP stands or the safe state is held is stored (R377,
R390). -/
def grantWrite (m : Master) (v : Nat) (s : State) : State := if m = .ridge then setGrant v s else s

/-- A write of `RDG_MOTEN`: the safe state forces the gate to 0; a gate that falls ends the motion commands (R392, R402). -/
def gateWrite (m : Master) (v : Nat) (s : State) : State :=
  if m ≠ .ridge ∨ s.flag R.rdgStatus_SAFE = true then s
  else if v = 0 then endMotion (List.range 8) 6 4 (s.put R.rdgMoten_GATE 0)
  else s.put R.rdgMoten_GATE 1

def execRdgGrantWrite (t : Nat) (m : Master) (v : BitVec 16) (s : State) : Result :=
  liveWrite m t s (grantWrite m v.toNat)

/-- The ridge clears watchdog faults by writing 1, each only while its generator drives low (R257). -/
def faultsCleared (m : Master) (h : Nat) (v : Word) (s : State) : State :=
  if m ≠ .ridge then s
  else
    let low := (maskList 32 v.toNat).filter fun b => !(s.strobe (8 * h + b / 4) (b % 4)).genHigh
    s.setReg ⟨.hptWdfault, h, 0⟩ (s.reg ⟨.hptWdfault, h, 0⟩ &&& ~~~ BitVec.ofNat 32 ((low.map (2 ^ ·)).sum))

def execWdfaultClear (t : Nat) (m : Master) (h : Fin 2) (v : Word) (s : State) : Result := liveWrite m t s (faultsCleared m h v)

end Sys2Proof.Machine
end

