-- ==== Sys2Proof/Machine/Boot.lean ====
section
/-!
DEFINITION. Boot (spec 03): images and their selectors (R59 to R63), the compatibility checks (R64), and the system and
image commands of the control firmware and the recovery responder (R65, R66, R68, R69, R101, R102, R108).
-/
namespace Sys2Proof.Machine

/-! Images in flash. -/

/-- Base and size of a slot: TYPE 1 control, 2 ridge; slot 0 A, 1 B (R59). -/
def slotBase (ty slot : Nat) : Nat := if ty = 1 then slot * 0x100000 else 0x200000 + slot * 0x40000
def slotSize (ty : Nat) : Nat := if ty = 1 then 0x100000 else 0x40000

/-- Bytes of the boot flash; an erased byte reads 0xFF. -/
def State.flashBytes (s : State) (a n : Nat) : List Byte := Memory.readN 0xFF s.flash a n

/-- The 512-byte header of a slot (R61). -/
def State.header (s : State) (ty slot : Nat) : List Byte := s.flashBytes (slotBase ty slot) 512

/-- A header is usable: MAGIC, HDRVER, TYPE and PAYLEN meet R62 (R61, R63). -/
def headerUsable (ty : Nat) (h : List Byte) : Bool :=
  decide (fieldAt h 0 4 = 0x57464241 ∧ fieldAt h 4 2 = 1 ∧ fieldAt h 6 1 = ty ∧ fieldAt h 0x1C 4 % 16 = 0
    ∧ fieldAt h 0x1C 4 ≤ (if ty = 1 then 458752 else 49152))

/-- A slot holds a valid image (R62). -/
def imageValid (ty slot : Nat) (s : State) : Bool :=
  let h := s.header ty slot
  let key := (h.drop 0x70).take 97
  headerUsable ty h && keyMatches key (fieldAt h 7 1) s
    && ecdsaVerify key (h.take 0xE0) ((h.drop 0xE0).take 96)
    && decide (sha384 (s.flashBytes (slotBase ty slot + 0x200) (fieldAt h 0x1C 4)) = (h.drop 0x40).take 48)

/-- Address of a type's selector (R60). -/
def selectorBase (ty : Nat) : Nat := if ty = 1 then 0x280000 else 0x281000

/-- A selector is valid: MAGIC, TYPE, zero fields and CRC-32C (R60). -/
def selectorValid (ty : Nat) (r : List Byte) : Bool :=
  decide (fieldAt r 0 4 = 0x4C455342 ∧ fieldAt r 4 1 = ty ∧ fieldAt r 6 2 = 0 ∧ fieldAt r 0x3C 4 = (crc32c (r.take 0x3C)).toNat) &&
    ((r.drop 0x10).take 44).all (· = 0)

/-- The preferred slot (R63). -/
def preferredSlot (ty : Nat) (s : State) : Option Nat :=
  let sel := s.flashBytes (selectorBase ty) 64
  let usable (k : Nat) : Bool := headerUsable ty (s.header ty k)
  let named := fieldAt sel 5 1
  if selectorValid ty sel = true ∧ named < 2 ∧ usable named = true then some named
  else if usable 0 ∧ usable 1 then
    some (if fieldAt (s.header ty 0) 8 4 < fieldAt (s.header ty 1) 8 4 then 1 else 0)
  else if usable 0 then some 0
  else if usable 1 then some 1
  else none

/-- The slot that runs: the preferred one if it is valid, else the other if that is (R63). -/
def runningSlot (ty : Nat) (s : State) : Option Nat :=
  match preferredSlot ty s with
  | none => none
  | some k => if imageValid ty k s then some k else if imageValid ty (1 - k) s then some (1 - k) else none

/-- The payload of an image. -/
def State.payload (s : State) (ty slot : Nat) : List Byte := s.flashBytes (slotBase ty slot + 0x200) (fieldAt (s.header ty slot) 0x1C 4)

/-- The slot whose payload stands in memory once the images of a type have been checked: the preferred one, or the other where that is invalid and
the other's header is usable (R63). -/
def copiedSlot (ty : Nat) (s : State) : Option Nat :=
  match preferredSlot ty s with
  | none => none
  | some k => some (if imageValid ty k s = false ∧ headerUsable ty (s.header ty (1 - k)) = true then 1 - k else k)

/-- Boot steps 5 and 6: the payloads are copied into ridge memory and into the control core's memory. -/
def copyImages (s : State) : State :=
  let into (ty : Nat) (m : List Host.Cell) : List Host.Cell := match copiedSlot ty s with | some k => Memory.writeN 0 m 0 (s.payload ty k) | none => m
  (s.setRdg { s.rdg with mem := into 2 s.rdg.mem }).setBoot { s.boot with ctlMem := into 1 s.boot.ctlMem }

/-- A header lists the running revision (R61, R64). -/
def listsRevision (h : List Byte) (s : State) : Bool :=
  ((h.drop 0x14).take 8).any fun b => decide (b.toNat = s.get R.glbIdentity_REV)

/-- HELD with its cause: the panniers are locked with the default bindings and the recovery responder serves them (R64,
R65, R77). -/
def enterHeld (cause : Nat) (s : State) : State :=
  let s := (s.put R.glbBootstat_HELDCAUSE cause).put R.pnrBindlock_LOCK 1
  setDev .held 0 s

/-- The ridge firmware starts: it leaves its ROM and locks the bindings of its channels (boot step 8, R64, R77). -/
def startRidge (slot : Nat) (s : State) : State :=
  let s := (s.put R.rdgStatus_ROM 0).put R.glbBootstat_RSLOT slot
  let s := s.setBoot { s.boot with rslot := slot, rdgHeader := s.header 2 slot, ridgeInRom := false }
  forEach [4, 5, 6, 7] s fun n s => s.put R.pnrBind_RLOCK 1 n

/-- The checks of R64 in order: the cause of the first that fails, with the slots found. -/
def compatibility (ctl rdg : Option Nat) (s : State) : Option Nat :=
  match ctl with
  | none => some 1
  | some c =>
    if listsRevision (s.header 1 c) s = false then some 2
    else match rdg with
    | none => some 3
    | some r =>
      if listsRevision (s.header 2 r) s = false then some 4
      else if fieldAt (s.header 1 c) 0x0D 1 ≠ fieldAt (s.header 2 r) 0x0D 1 then some 5
      else none

/-- Steps 5 to 9 of the boot sequence: images verified; HELD on a failure, else the control firmware starts and the
handshake settles on the lower minor (R64, R65). `PHASE` in HELD is that of the last step begun (log entry 15). -/
def checkImages (s : State) : State :=
  let ctl := runningSlot 1 s
  let rdg := runningSlot 2 s
  let bad := compatibility ctl rdg s
  let s := copyImages s
  let s := match rdg with | some r => startRidge r s | none => s
  match bad with
  | some cause => enterHeld cause (s.put R.glbBootstat_PHASE 7)
  | none =>
    let c := ctl.getD 0
    let h := s.header 1 c
    let proto := fieldAt h 0x0D 1 * 256 + min (fieldAt h 0x0C 1) (fieldAt s.boot.rdgHeader 0x0C 1)
    let s := s.setBoot { s.boot with cslot := c, ctlHeader := h }
    let s := (s.put R.glbBootstat_CSLOT c).put R.glbBootstat_PHASE 8
    let s := s.put R.fabState_MINOR (fieldAt h 0x10 1)
    (s.setRdg { s.rdg with proto := proto }).setFw { s.fw with running := true }

/-- Boot ROM and ridge ROM: a RETIRED device is held before any image is read (R67), one whose flash does not respond
with cause 6. -/
def bootImageCheck (flashResponds : Bool) (s : State) : State :=
    if s.dev ≠ .boot ∨ s.get R.glbBootstat_PHASE ≠ 4 then s
    else if s.otp.lc = .retired then enterHeld 7 (s.put R.glbBootstat_PHASE 2)
    else if flashResponds = false then enterHeld 6 s
    else checkImages s

/-! System commands (R101). -/

def identifyRow : OpRow := { op := 0x0101, argw := 0, states := anyState, held := true }
def identifyAct (_ : Cmd) (s : State) : Reply :=
  let c := s.boot.ctlHeader
  { words := [(s.reg ⟨.glbIdentity, 0, 0⟩).toNat, s.get R.glbUid0_UID_LO, s.get R.glbUid1_UID_HI, fieldAt c 8 4,
              fieldAt s.boot.rdgHeader 8 4, fieldAt c 0x0E 2 + 65536 * s.rdg.proto, fieldAt c 0x10 2 + 65536 * s.memberId,
              (s.reg ⟨.glbBootstat, 0, 0⟩).toNat], s := s }

/-- The pending line of the present state: all ones where there is none. -/
def pendingLine (s : State) : Nat :=
  let none_ := 2 ^ 64 - 1
  match s.job with
  | none => none_
  | some j =>
    match s.dev with
    | .armed => match j.startAt with | some (f, _) => wrapInt 64 f | none => none_
    | .printing => match j.pauseAt with | some f => wrapInt 64 f | none => none_
    | .paused => match j.resumeAt with | some f => wrapInt 64 f | none => none_
    | _ => none_

def getStateRow : OpRow := { op := 0x0102, argw := 0, states := anyState }
def getStateAct (_ : Cmd) (s : State) : Reply :=
  { words := [s.dev.code, match s.job with | some j => j.id.toNat | none => 0] ++ twoWords (wrapInt 64 s.fire)
      ++ twoWords (pendingLine s), s := s }

/-- The response is posted, then the reset is due: when the response is taken, or 1 ms after it (R52). From HELD it is
hard (R66). -/
def sysResetRow : OpRow := { op := 0x0103, argw := 1, states := anyState, held := true }
def sysResetFail (c : Cmd) (_ : State) : Option (Nat × Nat) := if 1 < cmdNat c 1 then some (stBadArgument, 0) else none
def sysResetAct (c : Cmd) (s : State) : Reply :=
  { s := s.setFw { s.fw with resetPending := some (decide (cmdNat c 1 = 1 ∨ s.dev = .held), s.now) } }

/-- The staging buffer is in use: HELD, or DRAM not trained (R66, R313). -/
def usesBuffer (s : State) : Bool := decide (s.dev = .held) || !s.trained

/-- Bytes that the spec leaves open, drawn as free values (log entry 5). -/
def freeBytes (n : Nat) (s : State) : List Byte × State :=
  ((List.range n).map fun i => Config.freeByte (s.freeCount + i), { s with freeCount := s.freeCount + n })

def logReadRow : OpRow := { op := 0x0104, argw := 5, states := anyState, held := true }
def logReadFail (c : Cmd) (s : State) : Option (Nat × Nat) :=
  let n := cmdNat c 3
  let a := cmdDword c 4
  if 2 < cmdNat c 1 ∨ (s.dev = .held ∧ cmdNat c 1 = 1) ∨ 65536 < n ∨ (cmdNat c 1 = 1 ∧ 0x800000 < cmdNat c 2 + n) then
    some (stBadArgument, 0)
  else if (if usesBuffer s then decide (a + n ≤ 65536) else destOk a n s) = false then some (stBadArgument, 0)
  else none
/-- What a source holds: flash as it is; the decoder states of R170 in the error log as DRAM holds them; the text of
the logs is not laid out by the spec (log entry 16). -/
def logSource (src off n : Nat) (s : State) : Option (List Byte) × State :=
  if src = 2 then (some (s.flashBytes off n), s)
  else if src = 1 ∧ s.trained = true ∧ 0x600000 ≤ off then
    dramRead 7 (s.regionBase 3 + off) n s
  else
    let r := freeBytes (Config.freeNat s.freeCount % (n + 1)) s.drawn
    (some r.1, r.2)
/-- The bytes to the destination; a bus error ends the command with INTEGRITY (R334). -/
def logReadAct (c : Cmd) (s : State) : Reply :=
  let r := logSource (cmdNat c 1) (cmdNat c 2) (cmdNat c 3) s
  let a := cmdDword c 4
  match r.1 with
  | none => { status := stIntegrity, s := r.2 }
  | some bs =>
    let s' := if usesBuffer s then { r.2 with stage := Memory.writeN 0 r.2.stage a bs } else deliver 4 a bs r.2
    { words := [bs.length, (crc32c bs).toNat], s := s' }

/-- Commands that program OTP or flash are DENIED to master 4 (R102). -/
def remoteDenied (c : Cmd) : Bool := decide (c.q = .q8)

/-- A 4 KiB sector of the boot flash erased and written from its start (R60). -/
def writeSector (a : Nat) (bs : List Byte) (s : State) : State :=
  { s.programming a 4096 with flash := Memory.writeN 0xFF (s.flash.filter fun e => !decide (a ≤ e.1 ∧ e.1 < a + 4096)) a bs }

/-- The stored token's record (R60, R108). -/
def storeToken (bs : List Byte) (s : State) : State :=
  writeSector 0x282000 (leBytes 4 bs.length ++ wordBytes (crc32c bs) ++ bs) s

/-- A token is put in force: WEN takes its scope (R108). -/
def unlockWith (scope : BitVec 20) (s : State) : State :=
  (s.put R.glbHostacc_WEN scope.toNat).put R.glbHostacc_UNLOCKED 1

/-- A token verifies for this device while the identity key is present (R69, R108). -/
def tokenScope (bs : List Byte) (s : State) : Option (BitVec 20) :=
  if s.flag R.glbBootstat_IDKEY then Config.unlockScope bs s.otp.uid s.otp.keys else none

def unlockRow : OpRow := { op := 0x0105, argw := 5, states := [.ready] }
def unlockFail (c : Cmd) (s : State) : Option (Nat × Nat) :=
  firstFail [(!sourceOk (cmdDword c 1) (cmdNat c 3) s || decide (1 < cmdNat c 5 ∨ (cmdNat c 5 = 1 ∧ 4088 < cmdNat c 3)), (stBadArgument, 0)),
    (remoteDenied c && decide (cmdNat c 5 = 1), (stDenied, 0))]
def unlockAct (c : Cmd) (s : State) : Reply :=
  let a := cmdDword c 1
  let n := cmdNat c 3
  let r := fetch 7 a n s
  match r.1 with
  | .wait => { wait := true, s := requestFar (addrMember a) (addrIn a) n s }
  | .error => { status := stIntegrity, s := doneWith a n r.2 }
  | .bytes bs =>
    let s := doneWith a n r.2
    if crc32c bs ≠ c.w 4 then { status := stIntegrity, s := s }
    else match tokenScope bs s with
    | none => { status := stDenied, s := s }
    | some scope =>
      let s := unlockWith scope s
      { words := [scope.toNat], s := if cmdNat c 5 = 1 then storeToken bs s else s }

/-- The permitted transitions (R68). -/
def transitionOk (a b : LifeCycle) : Bool :=
  match a, b with
  | .test, .field | .test, .retired | .field, .rma | .field, .retired | .rma, .retired => true
  | _, _ => false

/-- States by their codes. -/
def lifeCycleOf (n : Nat) : LifeCycle := if n = 0 then .test else if n = 1 then .field else if n = 2 then .rma else .retired

/-- The state that OTP holds, which is in effect from the next full reset (R69). -/
def State.otpState (s : State) : LifeCycle := s.otp.lcNext.getD s.otp.lc

/-- A transition is programmed: into RMA or RETIRED the identity key is erased first (R69). -/
def programLifeCycle (l : LifeCycle) (s : State) : State :=
  let key := s.otp.idKey && decide (l ≠ .rma ∧ l ≠ .retired)
  { s.programming 0 0 with otp := { s.otp with lcNext := some l, idKey := key } }.put R.glbBootstat_IDKEY (b2n key)

def lifecycleRow : OpRow := { op := 0x0106, argw := 4, states := [.ready] }
def lifecycleFail (c : Cmd) (s : State) : Option (Nat × Nat) :=
  firstFail [(!sourceOk (cmdDword c 1) (cmdNat c 3) s, (stBadArgument, 0)), (remoteDenied c, (stDenied, 0))]
def lifecycleAct (c : Cmd) (s : State) : Reply :=
  let a := cmdDword c 1
  let n := cmdNat c 3
  let r := fetch 7 a n s
  match r.1 with
  | .wait => { wait := true, s := requestFar (addrMember a) (addrIn a) n s }
  | .error => { status := stIntegrity, s := doneWith a n r.2 }
  | .bytes bs =>
    let s := doneWith a n r.2
    if crc32c bs ≠ c.w 4 then { status := stIntegrity, s := s }
    else match Config.lifecycleTarget bs s.otp.uid with
    | none => { status := stDenied, s := s }
    | some l =>
      if transitionOk s.otpState (lifeCycleOf l) then { s := programLifeCycle (lifeCycleOf l) s } else { status := stDenied, s := s }

def eventMaskRow : OpRow := { op := 0x0107, argw := 1, states := anyState }
def eventMaskAct (c : Cmd) (s : State) : Reply := { s := s.setFw { s.fw with mask := c.w 1 } }

/-! Image commands. -/

/-- Type, slot and range of an image write (R66, R101). -/
def imgArgsOk (c : Cmd) (s : State) : Bool :=
  decide ((cmdNat c 1 = 1 ∨ cmdNat c 1 = 2) ∧ cmdNat c 2 ≤ 1 ∧ cmdNat c 6 ≤ 65536
    ∧ cmdNat c 3 + cmdNat c 6 ≤ slotSize (cmdNat c 1)) &&
  (if usesBuffer s then decide (cmdDword c 4 + cmdNat c 6 ≤ 65536) else sourceOk (cmdDword c 4) (cmdNat c 6) s)

/-- The slot of a type is the one that runs (R102). -/
def slotRuns (ty slot : Nat) (s : State) : Bool :=
  if ty = 1 then s.fw.running && decide (s.boot.cslot = slot) else !s.boot.ridgeInRom && decide (s.boot.rslot = slot)

/-- The object that an image write holds (R95). -/
def slotObject (c : Cmd) : Nat := 0x100 + 2 * cmdNat c 1 + cmdNat c 2

def imgWriteRow : OpRow := { op := 0x0201, argw := 7, states := [.ready, .fault], held := true }
def imgWriteFail (c : Cmd) (s : State) : Option (Nat × Nat) :=
  firstFail [(!imgArgsOk c s, (stBadArgument, 0)), (decide (s.dev ≠ .held) && queueBusy c s, (stBusy, 0)),
    (heldElsewhere c [0x0201] (slotObject c) s, (stConflict, 0)), (remoteDenied c, (stDenied, 0)),
    (slotRuns (cmdNat c 1) (cmdNat c 2) s, (stConflict, 0))]

/-- The selector of a type rewritten to name a slot (R60): GEN is one more than that of the valid selector it replaces, and 1 where none was
valid, which R60 leaves open (log entry 95: DESIGN CHOICE). -/
def writeSelector (ty slot : Nat) (s : State) : State :=
  let old := s.flashBytes (selectorBase ty) 64
  let gen := if selectorValid ty old then fieldAt old 8 4 + 1 else 1
  let body := leBytes 4 0x4C455342 ++ leBytes 1 ty ++ leBytes 1 slot ++ leBytes 2 0 ++ leBytes 4 gen
    ++ leBytes 4 (fieldAt (s.header ty slot) 8 4) ++ leBytes 44 0
  writeSector (selectorBase ty) (body ++ wordBytes (crc32c body)) s

/-- A chunk is programmed, and a slot that then holds a valid image is selected (R60, R102, R105). -/
def programChunk (c : Cmd) (bs : List Byte) (s : State) : Nat × State :=
  let ty := cmdNat c 1
  let slot := cmdNat c 2
  let base := slotBase ty slot + cmdNat c 3
  let s' := { s.programming base bs.length with flash := Memory.writeN 0xFF s.flash base bs }
  if crc32c (s'.flashBytes base bs.length) ≠ c.w 7 then (stIntegrity, s)
  else if cmdNat c 3 = 0 ∧ listsRevision bs s = false then (stVersion, s)
  else (stOk, if imageValid ty slot s' then writeSelector ty slot s' else s')

/-- In HELD the responder programs the chunk before it answers (R66); else the command is accepted. -/
def imgWriteAct (c : Cmd) (s : State) : Reply :=
  if s.dev = .held then
    let r := programChunk c (Memory.readN 0 s.stage (cmdDword c 4) (cmdNat c 6)) s
    { status := r.1, s := r.2 }
  else
    let s := openE 0x0201 c [slotObject c, 0] s
    { s := if addrSpace (cmdDword c 4) = 3 ∧ usesBuffer s = false then
        requestFar (addrMember (cmdDword c 4)) (addrIn (cmdDword c 4)) (cmdNat c 6) s else s }

/-- The chunk of an open image write has arrived (R105). -/
def execImgWriteDone (t : Nat) (q : Queue) (s : State) : Result :=
  completion t 0x0201 q s fun o s =>
    let a := cmdDword o.cmd 4
    let n := cmdNat o.cmd 6
    let r : Fetched × State := if usesBuffer s then (.bytes (Memory.readN 0 s.stage a n), s) else dmaFetch a n s
    match r.1 with
    | .wait => requestFar (addrMember a) (addrIn a) n s
    | .error => finish o stIntegrity 0 [] (doneWith a n r.2)
    | .bytes bs =>
      match claimUnit3 o (doneWith a n r.2) with
      | .wait s => s
      | .refused s => finish o stConflict 0 [] s
      | .ok s =>
        let p := programChunk o.cmd bs s
        finish o p.1 0 [] p.2

def imgInfoRow : OpRow := { op := 0x0202, argw := 1, states := anyState, held := true }
def imgInfoFail (c : Cmd) (_ : State) : Option (Nat × Nat) :=
  if cmdNat c 1 = 1 ∨ cmdNat c 1 = 2 then none else some (stBadArgument, 0)
def imgInfoAct (c : Cmd) (s : State) : Reply :=
  let ty := cmdNat c 1
  { words := [fieldAt (s.header ty 0) 8 4, fieldAt (s.header ty 1) 8 4,
      b2n (imageValid ty 0 s) + 2 * b2n (imageValid ty 1 s), if ty = 1 then s.boot.cslot else s.boot.rslot], s := s }

def bundleApplyRow : OpRow := { op := 0x0203, argw := 1, states := [.ready] }
def bundleApplyFail (c : Cmd) (s : State) : Option (Nat × Nat) :=
  firstFail [(decide (cmdNat c 1 < 0x290000), (stBadArgument, 0)), (queueBusy c s, (stBusy, 0))]
def bundleApplyAct (c : Cmd) (s : State) : Reply := { s := openE 0x0203 c [0, 0] s }

/-! Memory map (R113). -/

/-- The region map: 16 bytes for each region (R113). -/
def State.regionMap (s : State) : List Byte :=
  s.regions.zipIdx.flatMap fun e => leBytes 8 e.1.1 ++ leBytes 6 e.1.2.1 ++ leBytes 1 e.2 ++ leBytes 1 e.1.2.2

def memMapRow : OpRow := { op := 0x0B01, argw := 0, states := anyState }
def memMapAct (_ : Cmd) (s : State) : Reply := { words := twoWords 0 ++ [s.regionMap.length], s := s }

def execIdentify (t : Nat) (c : Cmd) (s : State) : Result := command t c s (runCommand identifyRow noFail identifyAct)
def execGetState (t : Nat) (c : Cmd) (s : State) : Result := command t c s (runCommand getStateRow noFail getStateAct)
def execSysReset (t : Nat) (c : Cmd) (s : State) : Result := command t c s (runCommand sysResetRow sysResetFail sysResetAct)
def execLogRead (t : Nat) (c : Cmd) (s : State) : Result := command t c s (runCommand logReadRow logReadFail logReadAct)
def execUnlock (t : Nat) (c : Cmd) (s : State) : Result := command t c s (runCommand unlockRow unlockFail unlockAct)
def execLifecycle (t : Nat) (c : Cmd) (s : State) : Result := command t c s (runCommand lifecycleRow lifecycleFail lifecycleAct)
def execEventMask (t : Nat) (c : Cmd) (s : State) : Result := command t c s (runCommand eventMaskRow noFail eventMaskAct)
def execImgWrite (t : Nat) (c : Cmd) (s : State) : Result := command t c s (runCommand imgWriteRow imgWriteFail imgWriteAct)
def execImgInfo (t : Nat) (c : Cmd) (s : State) : Result := command t c s (runCommand imgInfoRow imgInfoFail imgInfoAct)
def execBundleApply (t : Nat) (c : Cmd) (s : State) : Result :=
  command t c s (runCommand bundleApplyRow bundleApplyFail bundleApplyAct)
def execMemMap (t : Nat) (c : Cmd) (s : State) : Result := command t c s (runCommand memMapRow noFail memMapAct)

end Sys2Proof.Machine
end

