-- ==== Sys2Proof/Machine/Hub.lean ====
section
/-!
DEFINITION. The hub (spec 09): jet maps and columns (R178 to R188), takeover (R189 to R191), stitching (R193), curves
(R194), edge records (R187, R301) and drop codes of an image line. All of it is a function of the tables active for the
line and of the dose codes that the spokes have released.
-/
namespace Sys2Proof.Machine

/-! Tables. -/

/-- Bits of a unit of a table: jet map entries, curve bytes, takeover half-words, stitch patterns. -/
def tabUnit (t : Nat) : Nat := if t = 0 then 8 else if t = 1 then 1 else if t = 2 then 2 else 8

/-- Entry size and entry count (R198). -/
def entrySize (t : Nat) : Nat := if t = 0 then 8 else if t = 1 then 16 else if t = 2 then 64 else 8
def entryCount (t : Nat) : Nat := if t = 0 then 65536 else if t = 1 then 256 else if t = 2 then 1 else 16

/-- One unit. -/
def Tables.unit (T : Tables) (t i : Nat) : Nat :=
  if t = 0 then (mapGet 0 T.jets i).toNat else if t = 1 then (mapGet 0 T.curves i).toNat
  else if t = 2 then (mapGet 0 T.takeover i).toNat else (mapGet 0 T.stitch i).toNat

/-- One unit replaced. -/
def Tables.setUnit (T : Tables) (t i v : Nat) : Tables :=
  if t = 0 then { T with jets := nset 0 T.jets i (BitVec.ofNat 64 v) }
  else if t = 1 then { T with curves := nset 0 T.curves i (BitVec.ofNat 8 v) }
  else if t = 2 then { T with takeover := nset 0 T.takeover i (BitVec.ofNat 16 v) }
  else { T with stitch := nset 0 T.stitch i (BitVec.ofNat 64 v) }

/-- The byte at an offset of a table. -/
def Tables.byte (T : Tables) (t o : Nat) : Byte := BitVec.ofNat 8 (T.unit t (o / tabUnit t) / 256 ^ (o % tabUnit t))

/-- `n` bytes of a table. -/
def Tables.bytes (T : Tables) (t o n : Nat) : List Byte := (List.range n).map fun k => T.byte t (o + k)

/-- A byte of a table replaced. -/
def Tables.setByte (T : Tables) (t o : Nat) (b : Byte) : Tables :=
  let u := T.unit t (o / tabUnit t)
  let k := 256 ^ (o % tabUnit t)
  T.setUnit t (o / tabUnit t) (u - u / k % 256 * k + b.toNat * k)

/-- Bytes written from an offset. -/
def Tables.setBytes (t : Nat) : Nat → List Byte → Tables → Tables
  | _, [], T => T
  | o, b :: bs, T => Tables.setBytes t (o + 1) bs (T.setByte t o b)

/-- A table copied from another set. -/
def Tables.copyTable (t : Nat) (src dst : Tables) : Tables :=
  if t = 0 then { dst with jets := src.jets } else if t = 1 then { dst with curves := src.curves }
  else if t = 2 then { dst with takeover := src.takeover } else { dst with stitch := src.stitch }

/-- The tables named in a mask taken from a set. -/
def Tables.merge (mask : Nat) (src dst : Tables) : Tables := (maskList 4 mask).foldl (fun T t => Tables.copyTable t src T) dst

/-- The tables active for image line `y` (R12, R176, R199). -/
def State.tab (s : State) (ch : Nat) (y : Int) : Tables :=
  let c := s.chan ch
  match c.next with
  | some (f, T) => if f ≤ y then T else below c y
  | none => below c y
where
  /-- copies that an earlier commit replaced still hold below its line -/
  below (c : ChanSt) (y : Int) : Tables :=
    match c.prev.find? fun e => decide (y < e.1) with | some e => e.2 | none => c.active

/-! Jet map entries (R178). -/

def jeColumn (e : BitVec 64) : Nat := bitsOf e.toNat 0 16
def jeMapped (e : BitVec 64) : Bool := bitOf e.toNat 16
def jeRow (e : BitVec 64) : Nat := bitsOf e.toNat 17 3
def jeStatus (e : BitVec 64) : Nat := bitsOf e.toNat 20 2
def jeClass (e : BitVec 64) : Nat := bitsOf e.toNat 24 8
def jeStitch (e : BitVec 64) : Nat := bitsOf e.toNat 32 4
def jePartner (e : BitVec 64) : Bool := bitOf e.toNat 36
/-- mapped and not MASKED -/
def jeActive (e : BitVec 64) : Bool := jeMapped e && decide (jeStatus e ≠ 2)

/-- Jets that serve a column: NORMAL or DEAD (R180). -/
def Tables.serving (T : Tables) (x : Nat) : List (Nat × BitVec 64) :=
  T.jets.filter fun e => jeMapped e.2 && decide (jeColumn e.2 = x ∧ jeStatus e.2 ≤ 1)

/-- NORMAL serving jets of a column. -/
def Tables.normals (T : Tables) (x : Nat) : List (Nat × BitVec 64) := (T.serving x).filter fun e => decide (jeStatus e.2 = 0)

/-- The column is live (R182). -/
def Tables.live (T : Tables) (x : Nat) : Bool := !(T.normals x).isEmpty

/-- The column has a donor jet. -/
def Tables.hasDonor (T : Tables) (x : Nat) : Bool :=
  T.jets.any fun e => jeMapped e.2 && decide (jeColumn e.2 = x ∧ jeStatus e.2 = 3)

/-- The printing jet of a column on line `y` (R182, R193). -/
def Tables.printer (T : Tables) (x : Nat) (y : Int) : Option Nat :=
  match T.normals x with
  | [] => none
  | [a] => some a.1
  | a :: b :: _ => some (if bitOf (mapGet 0 T.stitch (jeStitch a.2)).toNat (y % 64).toNat then a.1 else b.1)

/-! Ports, references and flows. -/

/-- Port of a channel jet, and the port whose home holds a column (R10, R183). -/
def portOfJet (ch j : Nat) : Nat := 4 * ch + j / 16384
def homePort (ch x : Nat) : Nat := 4 * ch + x / 16384

/-- Row groups in use on a port (R184). -/
def Tables.rows (T : Tables) (p : Nat) : List Nat :=
  (List.range 8).filter fun r => T.jets.any fun e => decide (e.1 / 16384 = p % 4) && jeActive e.2 && decide (jeRow e.2 = r)

/-- Base offset and row-group offset. -/
def State.baseOff (s : State) (p : Nat) : Nat := s.get R.hptBaseoff_BASE p
def State.rowOff (s : State) (p r : Nat) : Nat := s.get R.hptRg_OFFSET p r

def listMax (l : List Nat) : Nat := l.foldl max 0

/-- The smallest and largest offset in use; 0 with no row group in use (R184, R467). -/
def State.minOff (s : State) (T : Tables) (p : Nat) : Nat := listMin ((T.rows p).map (s.rowOff p))
def State.maxOff (s : State) (T : Tables) (p : Nat) : Nat := listMax ((T.rows p).map (s.rowOff p))

/-- The decode reference *D_p*, if the port has one (R184). -/
def State.decRef (s : State) (T : Tables) (p : Nat) : Option Nat :=
  if (T.rows p).isEmpty then none else some (s.baseOff p + s.minOff T p)

/-- The value that stands for *D_p* for image line `y` in decode instants (R13, R176, R467). -/
def State.dRef (s : State) (p : Nat) (y : Int) : Nat := s.baseOff p + s.minOff (s.tab (p / 4) y) p

/-- Records flow from a reference to another (R185). -/
def refFlows (a b : Option Nat) : Bool :=
  match a, b with | some a, some b => decide (a ≤ b ∧ b - a ≤ 2047) | _, _ => false

/-- Records flow between adjoining ports of a channel. -/
def State.flows (s : State) (T : Tables) (p q : Nat) : Bool :=
  decide (p / 4 = q / 4 ∧ (p + 1 = q ∨ q + 1 = p)) && refFlows (s.decRef T p) (s.decRef T q)

/-- Column `x` is a home column of the port or one of the 128 columns that it receives inside the channel (R185, R188). -/
def State.reaches (s : State) (T : Tables) (ch x p : Nat) : Bool :=
  let h := homePort ch x
  decide (h = p) ||
    (s.flows T h p && (if h < p then decide (16384 - 128 ≤ x % 16384) else decide (x % 16384 < 128)))

/-! Columns beyond a boundary (R185, R186). -/

/-- Where a column number of a channel lies. -/
inductive Site where
  | own (ch x : Nat)
  | remote (ch side k : Nat)
  | absent
deriving DecidableEq, Repr

/-- The column that number `x` stands for in channel `ch`. -/
def State.site (s : State) (ch : Nat) (x : Int) : Site :=
  let c := s.chan ch
  if 0 ≤ x ∧ x < c.n then .own ch x.toNat
  else if x < 0 then
    let k := (-x).toNat
    match c.left, c.edgeL with
    | some l, _ => if k ≤ 128 ∧ k ≤ (s.chan l).n then .own l ((s.chan l).n - k) else .absent
    | none, some _ => if k ≤ 128 then .remote ch 0 (k - 1) else .absent
    | none, none => .absent
  else
    let k := (x - c.n).toNat
    match c.right, c.edgeR with
    | some r, _ => if k < 128 ∧ k < (s.chan r).n then .own r k else .absent
    | none, some _ => if k < 128 then .remote ch 1 k else .absent
    | none, none => .absent

/-- The port of a channel at its left (0) or right (1) boundary. -/
def State.edgePort (s : State) (ch side : Nat) : Nat := if side = 0 then 4 * ch else homePort ch ((s.chan ch).n - 1)

/-- Decode references on both sides of a boundary of a channel, its own port's and the neighbour's, under tables by channel. -/
def State.edgeRefs (s : State) (tb : Nat → Tables) (ch side : Nat) : Option Nat × Option Nat :=
  let c := s.chan ch
  (s.decRef (tb ch) (s.edgePort ch side),
   match (if side = 0 then c.left else c.right) with
   | some m => s.decRef (tb m) (s.edgePort m (1 - side))
   | none => if side = 0 then c.refL else c.refR)

/-- Records flow in over a boundary; out over it. -/
def State.flowsIn (s : State) (tb : Nat → Tables) (ch side : Nat) : Bool := refFlows (s.edgeRefs tb ch side).2 (s.edgeRefs tb ch side).1
def State.flowsOut (s : State) (tb : Nat → Tables) (ch side : Nat) : Bool := refFlows (s.edgeRefs tb ch side).1 (s.edgeRefs tb ch side).2

/-- The tables of image line `y`; the tables in force. -/
def State.tabsAt (s : State) (y : Int) (ch : Nat) : Tables := s.tab ch y
def State.tabsNow (s : State) (ch : Nat) : Tables := (s.chan ch).active

/-- Records of image line `y` flow in over a boundary; out over it; both ways. -/
def State.edgeIn (s : State) (y : Int) (ch side : Nat) : Bool := s.flowsIn (s.tabsAt y) ch side
def State.edgeOut (s : State) (y : Int) (ch side : Nat) : Bool := s.flowsOut (s.tabsAt y) ch side
def State.edgeBoth (s : State) (y : Int) (ch side : Nat) : Bool := s.edgeIn y ch side && s.edgeOut y ch side

/-- The record received for column `k` beyond a member boundary on line `y` (R187, R302). -/
def State.edgeRec (s : State) (ch side k : Nat) (y : Int) : Nat :=
  match s.fab.edgeIn.lookup (ch, side, y) with
  | some l => if s.edgeIn y ch side then l.getD k 0 else 0
  | none => 0

/-- STATE of column `k` beyond a member boundary as it stood for line `y`: the one that the EDGE packet of the line used, else that
of the latest record received at or below the line (R187; log entry 77: DESIGN CHOICE). -/
def State.farState (s : State) (ch side k : Nat) (y : Int) : Nat :=
  match s.fab.edgeUsed.lookup (ch, side, y) with
  | some l => l.getD k 0
  | none =>
    let below := s.fab.edgeIn.filter fun e => decide (e.1.1 = ch ∧ e.1.2.1 = side ∧ e.1.2.2 ≤ y)
    let top := below.foldl (fun (m : Option (Int × List Nat)) e => match m with
      | some b => if b.1 < e.1.2.2 then some (e.1.2.2, e.2) else m
      | none => some (e.1.2.2, e.2)) none
    match top with | some b => if s.edgeIn y ch side then bitsOf (b.2.getD k 0) 4 2 else 0 | none => 0

/-- State of a column as channel `ch` knows it on line `y`: 0 not a column, 1 live, 2 dead. -/
def State.siteState (s : State) (ch : Nat) (y : Int) : Site → Nat
  | .own c x => if c = ch ∨ s.edgeIn y ch 0 ∨ s.edgeIn y ch 1 then (if (s.tab c y).live x then 1 else 2) else 0
  | .remote c side k => s.farState c side k y
  | .absent => 0

/-! Released lines (R161). -/

/-- The segment of a channel that holds a column. -/
def State.segOf (s : State) (ch x : Nat) : Option Nat :=
  (s.segs.find? fun e => decide (e.1 / 128 = ch ∧ 0 < e.2.width ∧ e.2.first ≤ x ∧ x < e.2.first + e.2.width)).map fun e => e.1 % 128

/-- A segment's line is released: decoded, and no block that holds a code of it is unfinished or unverified (R161). -/
def SegSt.released (g : SegSt) (y : Int) : Bool :=
  (g.lines.any fun l => decide (l.y = y)) && (g.ends.all fun e => !decide (e.firstLine ≤ y ∧ y ≤ e.lastLine))
    && !(g.dec.inBlock && decide (g.dec.ty ≠ tyZero ∧ g.pageStart + g.dec.bLine ≤ y))

/-- The dose of a column of a channel on line `y`; 0 where no segment holds it or its line is not released (R111, R163). -/
def State.dose (s : State) (ch x : Nat) (y : Int) : Nat :=
  match s.segOf ch x with
  | none => 0
  | some g =>
    let sg := s.seg ch g
    if sg.released y then
      match sg.lines.find? fun l => decide (l.y = y) with
      | some l => l.codes.getD (x - sg.first) 0
      | none => 0
    else 0

/-- The dose of a site. -/
def State.siteDose (s : State) (y : Int) : Site → Nat
  | .own c x => s.dose c x y
  | .remote c side k => bitsOf (s.edgeRec c side k y) 0 4
  | .absent => 0

/-! Takeover (R189 to R191). -/

/-- CONTROL of a channel's takeover table: REACH, FOLD, DONOR_EN; and the entry of a dose. -/
def Tables.reach (T : Tables) : Nat := bitsOf (T.unit 2 16) 0 2
def Tables.fold (T : Tables) : Bool := bitOf (T.unit 2 16) 2
def Tables.donorEn (T : Tables) : Bool := bitOf (T.unit 2 16) 3
def Tables.toLeft (T : Tables) (d : Nat) : Nat := bitsOf (T.unit 2 d) 0 4
def Tables.toRight (T : Tables) (d : Nat) : Nat := bitsOf (T.unit 2 d) 4 4
def Tables.toDonor (T : Tables) (d : Nat) : Nat := bitsOf (T.unit 2 d) 8 4

/-- A live column is a usable neighbour of dead column `x` of channel `ch` on line `y` (R190). -/
def State.usable (s : State) (ch x : Nat) (y : Int) (side : Nat) : Site → Bool
  | .own c z =>
    if c = ch then
      match (s.tab ch y).printer z y with
      | some j => s.reaches (s.tab ch y) ch x (portOfJet ch j)
      | none => false
    else s.edgeBoth y ch side
  | .remote _ _ _ => s.edgeBoth y ch side
  | .absent => false

/-- `neighbour(x, s)` of R191: the site found, with its distance. `up` searches to the right. -/
def State.neighbour (s : State) (ch x : Nat) (y : Int) (up : Bool) : Nat → Nat → Option (Site × Nat)
  | 0, _ => none
  | fuel + 1, k =>
    let z := s.site ch (if up then (x : Int) + k else (x : Int) - k)
    match s.siteState ch y z with
    | 1 => if s.usable ch x y (if up then 1 else 0) z then some (z, k) else none
    | 2 => s.neighbour ch x y up fuel (k + 1)
    | _ => none

/-- What a dead column gives its neighbours: left site and add, right site and add, donor dose, lost (R191). -/
structure Given where
  left : Option (Site × Nat)
  right : Option (Site × Nat)
  la : Nat
  ra : Nat
  donor : Nat
  lost : Bool
deriving DecidableEq, Repr

/-- Takeover of dead column `x` on line `y`. -/
def State.takeover (s : State) (ch x : Nat) (y : Int) : Given :=
  let T := s.tab ch y
  let d := s.dose ch x y
  if d = 0 ∨ T.live x then { left := none, right := none, la := 0, ra := 0, donor := 0, lost := false }
  else
    let l := s.neighbour ch x y false T.reach 1
    let r := s.neighbour ch x y true T.reach 1
    let ra := if T.fold ∧ l = none then T.toRight d + T.toLeft d else T.toRight d
    let la := if T.fold ∧ r = none then T.toLeft d + ra else T.toLeft d
    let donor := if T.donorEn ∧ T.hasDonor x then T.toDonor d else 0
    { left := l, right := r, la := la, ra := ra, donor := donor, lost := decide (l = none ∧ r = none ∧ donor = 0) }

/-- The add that one position beside column `z` of channel `ch` directs to it. -/
def State.addFrom (s : State) (ch z : Nat) (y : Int) (pos : Int) : Nat :=
  match s.site ch pos with
  | .own c x =>
    let g := s.takeover c x y
    (match g.left with | some (.own c' z', _) => if c' = ch ∧ z' = z then g.la else 0 | _ => 0) +
    (match g.right with | some (.own c' z', _) => if c' = ch ∧ z' = z then g.ra else 0 | _ => 0)
  | .remote c side k =>
    let r := s.edgeRec c side k y
    if bitsOf r 10 2 = (pos - (z : Int)).natAbs ∧ bitsOf r 4 2 = 2 then bitsOf r 6 4 else 0
  | .absent => 0

/-- The final dose of a live column (R191). -/
def State.finalDose (s : State) (ch z : Nat) (y : Int) : Nat :=
  min 15 (s.dose ch z y + (([-2, -1, 1, 2] : List Int).map fun k => s.addFrom ch z y ((z : Int) + k)).sum)

/-- The dose a jet of port `p` receives in step 4 (R176, R180), none if it receives none. -/
def State.jetDose (s : State) (ch : Nat) (y : Int) (j : Nat) (e : BitVec 64) : Option Nat :=
  let T := s.tab ch y
  let x := jeColumn e
  if jeMapped e = false ∨ (s.chan ch).n ≤ x then none
  else if jeStatus e = 0 then (if T.printer x y = some j then some (s.finalDose ch x y) else none)
  else if jeStatus e = 3 ∧ T.live x = false then some (s.takeover ch x y).donor
  else none

/-- Drop codes of port `p` for image line `y`, by port jet, those that are not 0 (R176 steps 1 to 6, R194). -/
def State.dropCodes (s : State) (p : Nat) (y : Int) : List (Nat × Nat) :=
  let ch := p / 4
  let T := s.tab ch y
  ((T.jets.filter fun e => decide (e.1 / 16384 = p % 4)).filterMap fun e =>
    (s.jetDose ch y e.1 e.2).map fun d => (e.1 % 16384, (mapGet 0 T.curves (16 * jeClass e.2 + d)).toNat % 16)).filter
      fun e => decide (e.2 ≠ 0)

/-- Takeover adds that columns of port `p` receive on line `y` (R191, R433). -/
def State.addsOn (s : State) (p : Nat) (y : Int) : Nat :=
  let ch := p / 4
  let T := s.tab ch y
  (((T.jets.filter fun e => decide (e.1 / 16384 = p % 4 ∧ jeMapped e.2 = true ∧ jeStatus e.2 = 0)).filter fun e =>
    decide (T.printer (jeColumn e.2) y = some e.1)).map fun e =>
      ((([-2, -1, 1, 2] : List Int).filter fun k => decide (0 < s.addFrom ch (jeColumn e.2) y ((jeColumn e.2 : Int) + k))).length)).sum

/-! Edge records that leave (R187, R301). -/

/-- The record of the column `k + 1` places from a boundary of channel `ch`, as sent over it. -/
def State.edgeOutRec (s : State) (ch side : Nat) (y : Int) (k : Nat) : Nat :=
  let n := (s.chan ch).n
  if n ≤ k then 0
  else
    let x := if side = 0 then k else n - 1 - k
    if (s.tab ch y).live x then s.dose ch x y + 16
    else
      let g := s.takeover ch x y
      let (there, add) := if side = 0 then (g.left, g.la) else (g.right, g.ra)
      match there with
      | some (.remote _ _ _, d) => s.dose ch x y + 32 + min 15 add * 64 + (if add = 0 then 0 else d * 1024)
      | _ => s.dose ch x y + 32

/-- Twelve-bit records packed, least significant bit first (R301). -/
def packRecords : List Nat → List Byte
  | a :: b :: r => leBytes 3 (a % 4096 + 4096 * (b % 4096)) ++ packRecords r
  | [a] => leBytes 2 (a % 4096)
  | [] => []

/-- The records that bytes hold. -/
def unpackRecords : List Byte → List Nat
  | a :: b :: c :: r => (leNat [a, b, c] % 4096) :: (leNat [a, b, c] / 4096) :: unpackRecords r
  | _ => []

/-! Counts of columns (R470). -/

/-- The column's dose reaches the hubs of every NORMAL partner of a live neighbour (R470). -/
def State.usableAlways (s : State) (T : Tables) (ch x z : Nat) : Bool :=
  (T.normals z).all fun e => s.reaches T ch x (portOfJet ch e.1)

/-- The search of R191 for the count of R470, under given tables. A column of another member is not counted as usable: the device
does not know its state at the commit (log entry 78: DESIGN CHOICE). -/
def State.neighbourAlways (s : State) (T : Tables) (ch x : Nat) (up : Bool) : Nat → Nat → Bool
  | 0, _ => false
  | fuel + 1, k =>
    match s.site ch (if up then (x : Int) + k else (x : Int) - k) with
    | .own c z =>
      let Tc := if c = ch then T else (s.chan c).active
      if Tc.live z then
        (if c = ch then s.usableAlways T ch x z else
          let tb (i : Nat) : Tables := if i = ch then T else s.tabsNow i
          s.flowsIn tb ch (b2n up) && s.flowsOut tb ch (b2n up))
      else s.neighbourAlways T ch x up fuel (k + 1)
    | _ => false

/-- Columns with no NORMAL serving jet, and those uncompensable for every non-zero dose (R470). -/
def State.deadCols (s : State) (T : Tables) (ch : Nat) : List Nat :=
  (List.range (s.chan ch).n).filter fun x => !T.live x
def State.uncompCols (s : State) (T : Tables) (ch : Nat) : List Nat :=
  (s.deadCols T ch).filter fun x =>
    !s.neighbourAlways T ch x false T.reach 1 && !s.neighbourAlways T ch x true T.reach 1
      && (!(T.donorEn && T.hasDonor x) || (List.range 15).all fun d => decide (T.toDonor (d + 1) = 0))

/-! Refused configurations (R181, R188, R196, R201, R258). -/

/-- The detail code of an entry rule that a unit range of a table breaks (R201, the conditions of `TBL_LOAD`): the
first condition of the table in its order. `o` and `n` are byte offset and length. -/
def entryDetail (T : Tables) (t o n b : Nat) : Option Nat :=
  let us := (List.range (n / tabUnit t)).map fun k => (o / tabUnit t + k, T.unit t (o / tabUnit t + k))
  if t = 0 then
    if us.any fun e => decide (bitsOf e.2 22 2 ≠ 0 ∨ bitsOf e.2 37 27 ≠ 0) then some 0x0901 else none
  else if t = 1 then
    if us.any fun e => decide (e.2 / 16 ≠ 0) then some 0x0901
    else if us.any fun e => decide (2 ^ b ≤ e.2 % 16 ∨ (e.1 % 16 = 0 ∧ e.2 ≠ 0)) then some 0x0902 else none
  else if t = 2 then
    if us.any fun e => decide (((e.1 = 0 ∨ 17 ≤ e.1) ∧ e.2 ≠ 0) ∨ (e.1 < 16 ∧ e.2 / 4096 ≠ 0) ∨ (e.1 = 16 ∧ e.2 / 16 ≠ 0)) then
      some 0x0901
    else if us.any fun e => decide (e.1 = 16 ∧ (e.2 % 4 = 0 ∨ e.2 % 4 = 3)) then some 0x0903 else none
  else none

/-- A curve byte breaks R194 for a code width. -/
def curvesBad (T : Tables) (b : Nat) : Bool :=
  T.curves.any fun e => decide (2 ^ b ≤ e.2.toNat % 16 ∨ (e.1 % 16 = 0 ∧ e.2 ≠ 0))

def columnsBad (T : Tables) (n : Nat) : Bool := T.jets.any fun e => jeMapped e.2 && decide (n ≤ jeColumn e.2)

/-- Items 2 and 3 of R181. -/
def servingBad (T : Tables) : Bool :=
  T.jets.any fun e => jeMapped e.2 &&
    (let sv := T.serving (jeColumn e.2)
     let partners := sv.filter fun x => jePartner x.2
     decide (2 < sv.length) || (decide (sv.length = 2) && !decide (partners.length = 2 ∧
        (sv.map fun x => jeStitch x.2) = [jeStitch e.2, jeStitch e.2]) && decide (jeStatus e.2 ≤ 1))
      || (decide (sv.length = 1) && !partners.isEmpty)
      || decide (1 < (T.jets.filter fun x => jeMapped x.2 && decide (jeColumn x.2 = jeColumn e.2 ∧ jeStatus x.2 = 3)).length))

def rowsBad (s : State) (T : Tables) (ch : Nat) : Bool :=
  T.jets.any fun e => jeActive e.2 && !s.flag R.hptRg_CONF (portOfJet ch e.1) (jeRow e.2)

def reachBad (s : State) (T : Tables) (ch : Nat) : Bool :=
  T.jets.any fun e => jeMapped e.2 && !s.reaches T ch (jeColumn e.2) (portOfJet ch e.1)

def staggerBad (s : State) (T : Tables) (ch l : Nat) : Bool :=
  (List.range 4).any fun k => decide (71 < s.maxOff T (4 * ch + k) - s.minOff T (4 * ch + k) + l) && !(T.rows (4 * ch + k)).isEmpty

/-- Slice width and the jets a port sends (R234). -/
def sliceWidth (n : Nat) : Nat := if n ≤ 1 then 16384 else if n = 2 then 8192 else if n ≤ 4 then 4096 else 2048
def State.sentJets (s : State) (p : Nat) : Nat := (s.get R.hptPcfg_MODULES p) * sliceWidth (s.get R.hptPcfg_MODULES p)

def modulesBad (s : State) (T : Tables) (ch : Nat) : Bool :=
  T.jets.any fun e => jeActive e.2 && decide (s.sentJets (portOfJet ch e.1) ≤ e.1 % 16384)

/-- Configured adjoining ports whose base offsets differ too much (R197). -/
def skewBad (s : State) (ch : Nat) : Bool :=
  (List.range 3).any fun k =>
    let a := s.baseOff (4 * ch + k)
    let b := s.baseOff (4 * ch + k + 1)
    decide (2047 < max a b - min a b) && (s.port (4 * ch + k)).conf && (s.port (4 * ch + k + 1)).conf

/-- The conditions that `TBL_COMMIT` tests on the configuration that it would make (R199, R201, R258). -/
def configDetail (s : State) (T : Tables) (ch : Nat) : Option Nat :=
  firstFail [(columnsBad T (s.chan ch).n, 0x0904), (servingBad T, 0x0905), (rowsBad s T ch, 0x0906), (reachBad s T ch, 0x0907),
    (staggerBad s T ch (s.chan ch).l, 0x0908), (modulesBad s T ch, 0x0B01)]

end Sys2Proof.Machine
end

