-- ==== Sys2Proof/Machine/Tables.lean ====
section
/-!
DEFINITION. Commands on channels and tables (spec 09, R11, R198 to R201, R468), the table scan (R353, R375) and the table
windows (R444 to R447).
-/
namespace Sys2Proof.Machine

/-- The job of the device prints, or its start or resume is set: image lines have fire lines. -/
def State.shift (s : State) : Int :=
  match s.job with
  | none => 0
  | some j => match j.resumeAt with | some r => j.shift + (r - j.stoppedAt) | none => j.shift

/-- The segment takes part in the job (spec 06). -/
def State.inJob (s : State) (ch : Nat) (g : SegSt) : Bool :=
  match s.job with | some j => bitOf j.mask ch && decide (0 < g.width) | none => false

/-- Segments of the job: channel and number. -/
def State.jobSegs (s : State) : List (Nat × Nat) :=
  (s.segs.filter fun e => s.inJob (e.1 / 128) e.2).map fun e => (e.1 / 128, e.1 % 128)

/-- The port whose hub decodes the segment: its band's home (R10, R158). -/
def homeOf (ch g : Nat) : Nat := 4 * ch + g / 32

/-- The fire line up to which the decode instants of the job have passed, in terms of the shift that will hold (R13, R220, R221):
from a pause until the resume none falls due. None: image lines have no fire lines yet. -/
def State.front (s : State) : Option Int :=
  s.job.bind fun j => if j.y0.isNone then none
    else some (if s.dev = .printing ∨ s.dev = .armed then s.fire else j.stoppedAt - 1 + (s.shift - j.shift))

/-- The decode instant of image line `y` at a hub lies at or before fire line `f` (R13). -/
def State.dueBy (s : State) (p : Nat) (y f : Int) : Bool := decide (y + s.dRef p y - (s.chan (p / 4)).l + s.shift ≤ f)

/-- The hub of a port works on line `y`: a row group is in use, or a segment of the job lies in its home bands (R184, R467). -/
def State.hubUsed (s : State) (p : Nat) (y : Int) : Bool :=
  !((s.tab (p / 4) y).rows p).isEmpty || s.jobSegs.any fun e => decide (homeOf e.1 e.2 = p)

/-- Step 1 of no line at or above this has begun in a hub in use; offsets within a port span 64 lines. -/
def State.hubBegun (s : State) (p : Nat) (f : Int) : Option Int :=
  let hi := f - s.shift + (s.chan (p / 4)).l - s.baseOff p + 1
  ((List.range 64).find? fun (k : Nat) => s.hubUsed p (hi - 1 - k) && s.dueBy p (hi - 1 - k) f).map fun k => hi - k

/-- Step 1 of no image line at or above this has begun in any hub of the channel, or of another channel or member that receives its
edge records (R199). None: no line has begun. -/
def State.begun (s : State) (ch : Nat) : Option Int :=
  match s.front with
  | none => none
  | some f =>
    let own := (List.range 4).filterMap fun k => s.hubBegun (4 * ch + k) f
    let next := (List.range 4).flatMap fun c => [0, 1].filterMap fun side =>
      if (if side = 0 then (s.chan c).left else (s.chan c).right) = some ch then
        (s.hubBegun (s.edgePort c side) f).bind fun b => if s.edgeIn (b - 1) c side then some b else none
      else none
    let far := [0, 1].filterMap fun side =>
      match (if side = 0 then (s.chan ch).edgeL else (s.chan ch).edgeR), (if side = 0 then (s.chan ch).refL else (s.chan ch).refR) with
      | some (m, c), some d =>
        let b : Int := f - s.shift + Config.remoteLookahead m c - d + 1
        if s.edgeOut (b - 1) ch side then some b else none
      | _, _ => none
    let done := (s.jobSegs.filter fun e => decide (e.1 = ch) && (s.seg e.1 e.2).started).map fun e => (s.seg e.1 e.2).y
    match own ++ next ++ far ++ done with
    | [] => none
    | b :: r => some (r.foldl max b)

/-- The first page boundary of a segment at or above a line, its boundaries all known; the first page of a job begins at one. -/
def SegSt.boundaryFrom (g : SegSt) (y : Int) : Int :=
  if y ≤ g.pageStart then g.pageStart
  else if y ≤ g.pageEnd ∨ g.pageLen = 0 then g.pageEnd
  else g.pageEnd + (y - g.pageEnd + g.pageLen - 1) / g.pageLen * g.pageLen

/-! CH_GEOMETRY, CH_SEGMENT. -/

def chGeometryRow : OpRow := { op := 0x0301, argw := 6, states := [.ready] }
def chGeometryFail (c : Cmd) (s : State) : Option (Nat × Nat) :=
  let ch := cmdNat c 1
  let nb (k : Nat) : Bool := decide (cmdNat c k ≤ 3 ∨ cmdNat c k = 0xFF)
  let T := (s.chan ch).active
  if 3 < ch ∨ cmdNat c 2 = 0 ∨ 65536 < cmdNat c 2 ∨ cmdNat c 3 < 4 ∨ 64 < cmdNat c 3 ∨ cmdNat c 4 = 0 ∨ 4 < cmdNat c 4
      ∨ nb 5 = false ∨ nb 6 = false then some (stBadArgument, 0)
  else (firstFail [(curvesBad T (cmdNat c 4), 0x0902), (columnsBad T (cmdNat c 2), 0x0904),
    (staggerBad s T ch (cmdNat c 3), 0x0908)]).map fun d => (stBadArgument, d)

/-- `CH<c>_COLSTAT` under a set of tables (R470). -/
def showColumns (ch : Nat) (T : Tables) (s : State) : State :=
  (s.put R.chColstat_DEADCOL (min 65535 (s.deadCols T ch).length) ch).put R.chColstat_UNCOMPCOL
    (min 65535 (s.uncompCols T ch).length) ch

def chGeometryAct (c : Cmd) (s : State) : Reply :=
  let ch := cmdNat c 1
  let nb (k : Nat) : Option Nat := if cmdNat c k = 0xFF then none else some (cmdNat c k)
  { s := showColumns ch (s.chan ch).active (s.setChan ch { s.chan ch with
      configured := true, n := cmdNat c 2, l := cmdNat c 3, b := cmdNat c 4, left := nb 5, right := nb 6 }) }

def chSegmentRow : OpRow := { op := 0x0302, argw := 4, states := [.ready] }
/-- Range and overlap of R11; the channel must be configured (R468). -/
def chSegmentFail (c : Cmd) (s : State) : Option (Nat × Nat) :=
  let ch := cmdNat c 1
  let g := cmdNat c 2
  let x := cmdNat c 3
  let w := cmdNat c 4
  let band := 4096 * (g / 8)
  if 3 < ch ∨ 127 < g ∨ (s.chan ch).configured = false ∨ w % 64 ≠ 0 ∨
      (w ≠ 0 ∧ (x % 64 ≠ 0 ∨ x < band ∨ band + 4096 < x + w ∨
        (s.segs.any fun e => decide (e.1 / 128 = ch ∧ e.1 % 128 ≠ g ∧ 0 < e.2.width ∧ e.2.first < x + w ∧ x < e.2.first + e.2.width)) = true)) then
    some (stBadArgument, 0)
  else none
def chSegmentAct (c : Cmd) (s : State) : Reply :=
  let ch := cmdNat c 1
  let g := cmdNat c 2
  { s := if cmdNat c 4 = 0 then s.setSeg ch g { s.seg ch g with width := 0, first := 0 }
         else s.setSeg ch g { s.seg ch g with first := cmdNat c 3, width := cmdNat c 4 } }

/-! TBL_LOAD. -/

/-- Open E commands that act on a channel's tables (R95, R200). -/
abbrev tableOps : List Nat := [0x0303, 0x0304, 0x0305]

/-- A load or commit on the channel is open (R200, R446). -/
def tableBusy (ch : Nat) (s : State) : Bool :=
  s.fw.opens.any fun o => decide ((o.op = 0x0303 ∨ o.op = 0x0304) ∧ o.data.head? = some ch)

def entriesOk (t n first : Nat) : Bool := decide (t ≤ 3 ∧ n % entrySize t = 0 ∧ first + n / entrySize t ≤ entryCount t)

def tblLoadRow : OpRow := { op := 0x0303, argw := 7, states := activeStates }
def tblLoadFail (c : Cmd) (s : State) : Option (Nat × Nat) :=
  let ch := cmdNat c 1
  if 3 < ch ∨ (s.chan ch).configured = false ∨ entriesOk (cmdNat c 2) (cmdNat c 5) (cmdNat c 7) = false then some (stBadArgument, 0)
  else match stagingArea (cmdDword c 3) (cmdNat c 5) s with
  | none => some (stBadArgument, 0)
  | some i => firstFail [(queueBusy c s, (stBusy, 0)),
      (!ownsStaging c i s || areaHeld c i s || heldElsewhere c tableOps ch s, (stConflict, 0))]
def tblLoadAct (c : Cmd) (s : State) : Reply :=
  let area := (stagingArea (cmdDword c 3) (cmdNat c 5) s).getD 0
  { s := openE 0x0303 c [cmdNat c 1, area + 1] s }

/-- The completion of a load: the copy tested, then checked; a load that fails leaves the inactive copy as it was
(R104, R105, R198). -/
def execTblLoadDone (t : Nat) (q : Queue) (s : State) : Result :=
  completion t 0x0303 q s fun o s =>
    let c := o.cmd
    let ch := cmdNat c 1
    let tab := cmdNat c 2
    let off := cmdNat c 7 * entrySize tab
    let r := dmaFetch (cmdDword c 3) (cmdNat c 5) s
    if o.lockLost then finish o stConflict 0 [] s
    else match r.1 with
    | .bytes bs =>
      let T := Tables.setBytes tab off bs (r.2.chan ch).inactive
      match entryDetail T tab off bs.length (r.2.chan ch).b with
      | some d => finish o stBadArgument d [] r.2
      | none =>
        match claimUnit3 o r.2 with
        | .wait s => s
        | .refused s => finish o stConflict 0 [] s
        | .ok s =>
          if crc32c bs ≠ c.w 6 then finish o stIntegrity 0 [] s
          else finish o stOk 0 [(crc32c bs).toNat] (s.setChan ch { s.chan ch with inactive := T })
    | _ => finish o stIntegrity 0 [] r.2

/-- A read of a table's SRAM (R352, R418). -/
def tableGroup (t : Nat) : Nat := if t = 0 then 1 else if t = 1 then 2 else 3
def tableReads (t : Nat) (s : State) : State := reads [tableGroup t] s

/-! TBL_COMMIT. -/

def tblCommitRow : OpRow := { op := 0x0304, argw := 5, states := activeStates }

/-- The copies that a commit would make active (R199). -/
def commitTables (c : Cmd) (s : State) : Tables :=
  let x := s.chan (cmdNat c 1)
  Tables.merge (cmdNat c 2) x.inactive x.active

/-- The detail of a rule that the commit breaks: entry rules of the copies named, then those of the whole (R199, R447). -/
def commitDetail (c : Cmd) (s : State) : Option Nat :=
  let ch := cmdNat c 1
  let T := commitTables c s
  match (maskList 4 (cmdNat c 2)).findSome? fun t => entryDetail T t 0 (entrySize t * entryCount t) (s.chan ch).b with
  | some d => some d
  | none => configDetail s T ch

/-- First lines of the pages of a following segment whose boundaries are fixed, from its present page on (R225). -/
def SegSt.fixedStarts (g : SegSt) : List Int :=
  ((List.range (g.fixPage - g.page)).foldl (fun (acc : List Int × Int) (i : Nat) =>
    let y := acc.2 + g.pageLen + (g.deltas.lookup (g.page + i)).getD 0
    (acc.1 ++ [y], y)) ([g.pageStart], g.pageStart)).1

/-- The line of effect known at the take: word 5, or the first boundary of the segment that no hub has begun: each boundary of a segment
that follows no marks is known, those of another once they are fixed, and none while the one needed is not (R199). -/
def commitLine (c : Cmd) (s : State) : Option Int :=
  let g := s.seg (cmdNat c 1) (cmdNat c 4)
  if cmdNat c 3 = 1 then some (cmdNat c 5)
  else if (s.job.bind Job.y0).isNone then none
  else if g.src ≠ 0 then g.fixedStarts.find? fun y => match s.begun (cmdNat c 1) with | some b => decide (b ≤ y) | none => true
  else some (g.boundaryFrom ((s.begun (cmdNat c 1)).getD g.pageStart))

/-- A word 5 at or below a line that some hub has begun (R199). -/
def commitLate (c : Cmd) (s : State) : Bool :=
  match s.begun (cmdNat c 1) with
  | some b => decide (cmdNat c 3 = 1 ∧ (cmdNat c 5 : Int) < b ∧ s.dev ≠ .ready)
  | none => false

def tblCommitFail (c : Cmd) (s : State) : Option (Nat × Nat) :=
  let ch := cmdNat c 1
  if 3 < ch ∨ (s.chan ch).configured = false ∨ cmdNat c 2 = 0 ∨ 15 < cmdNat c 2 ∨ 1 < cmdNat c 3 ∨ (cmdNat c 3 = 0 ∧ 127 < cmdNat c 4) then
    some (stBadArgument, 0)
  else match firstFail [(queueBusy c s, (stBusy, 0)), (heldElsewhere c tableOps ch s, (stConflict, 0))] with
  | some r => some r
  | none => match commitDetail c s with
    | some d => some (stBadArgument, d)
    | none => if commitLate c s then some (stBadArgument, 0) else none

/-- The line of effect is chosen: the registers report it. -/
def commitAt (ch : Nat) (y : Int) (s : State) : State :=
  (s.put R.chCommitlo_LINE_LO (wrapInt 32 y) ch).put R.chCommithi_LINE_HI (wrapInt 64 y / 2 ^ 32) ch

/-- Reference values of the tables named (R353, R447). -/
def takeRefs (ch mask : Nat) (s : State) : State :=
  let x := s.chan ch
  s.setChan ch { x with refs := (maskList 4 mask).foldl (fun r t =>
    mapInsert natLt t (crc32c (x.active.bytes t 0 (entrySize t * entryCount t))) (r.filter fun e => decide (e.1 ≠ t))) x.refs }

/-- The committed copies become active: `ACTIVE` names the other copy of each table committed. Copies replaced hold for lines
below *Y* that a hub has yet to send or print, until the job ends. -/
def activate_ (ch : Nat) (y : Int) (T : Tables) (s : State) : State :=
  let x := s.chan ch
  let s := s.setChan ch { x with active := T, next := none, waitSeg := none, prev := if y ≤ -(2 ^ 63) then [] else x.prev ++ [(y, x.active)] }
  let s := s.put R.chTblstat_ACTIVE (s.get R.chTblstat_ACTIVE ch ^^^ x.copyMask) ch
  takeRefs ch x.copyMask s

/-- In READY the copies become active at once and *Y* is 0; else they wait for their line (R199). The columns are counted under the
new tables (R470). -/
def tblCommitAct (c : Cmd) (s : State) : Reply :=
  let ch := cmdNat c 1
  let T := commitTables c s
  let ready := decide (s.dev = .ready)
  let y := if ready then some 0 else commitLine c s
  let s := openE 0x0304 c [ch, 0] s
  let s := showColumns ch T ((s.setChan ch { s.chan ch with copyMask := cmdNat c 2 }).put R.chTblstat_PENDING 1 ch)
  match y with
  | some y =>
    let s := commitAt ch y s
    { s := if ready then activate_ ch (-(2 ^ 63)) T s else s.setChan ch { s.chan ch with next := some (y, T) } }
  | none => { s := s.setChan ch { s.chan ch with waitSeg := some (cmdNat c 4) } }

/-- A boundary of a segment is fixed, or the job's first ones become known: a commit that waits for it takes it as its
line if no hub has begun it (R199). -/
def boundaryKnown (ch g : Nat) (y : Int) (s : State) : State :=
  let x := s.chan ch
  let ok := match s.begun ch with | some b => decide (b ≤ y) | none => true
  match s.fw.opens.find? fun o => decide (o.op = 0x0304 ∧ o.data.head? = some ch) with
  | some o => if x.waitSeg = some g ∧ ok = true then
      commitAt ch y (s.setChan ch { x with next := some (y, commitTables o.cmd s), waitSeg := none }) else s
  | none => s

/-- The line of effect is reached in every hub, or the job has ended before it; with the job ended before a boundary was found the device is in
READY, and *Y* is reported as 0 (R199; log entry 17). -/
def execTblCommitEffect (t : Nat) (ch : Chan) (s : State) : Result :=
  live t s fun s =>
    let x := s.chan ch
    let reached (y : Int) : Bool := match s.front with | some f => (List.range 4).all fun k => s.dueBy (4 * ch.val + k) y f | none => false
    match x.next with
    | some (y, T) => if (s.job.isSome ∧ s.dev ≠ .ready ∧ reached y = false) then s else activate_ ch y T s
    | none =>
      match s.fw.opens.find? fun o => decide (o.op = 0x0304 ∧ o.data.head? = some ch.val) with
      | some o => if x.waitSeg.isSome ∧ s.job.isNone then activate_ ch (-(2 ^ 63)) (commitTables o.cmd s) (commitAt ch 0 s) else s
      | none => s

/-- The newly active tables have been copied into the inactive copies (R200). -/
def execCopyForwardDone (t : Nat) (ch : Chan) (s : State) : Result :=
  live t s fun s =>
    let x := s.chan ch
    match s.fw.opens.find? fun o => decide (o.op = 0x0304 ∧ o.data.head? = some ch.val) with
    | some o =>
      if x.next.isSome ∨ x.waitSeg.isSome then s
      else
        let s := reads ((maskList 4 x.copyMask).map tableGroup) s
        let s := s.setChan ch { x with inactive := Tables.merge x.copyMask x.active x.inactive, copyMask := 0 }
        finish o stOk 0 [s.get R.chCommitlo_LINE_LO ch.val] (s.put R.chTblstat_PENDING 0 ch.val)
    | none => s

/-! TBL_READ, JET_STATUS. -/

def tblReadRow : OpRow := { op := 0x0305, argw := 7, states := anyState }
def tblReadFail (c : Cmd) (s : State) : Option (Nat × Nat) :=
  let ch := cmdNat c 1
  firstFail [(decide (3 < ch ∨ 1 < cmdNat c 3) || !entriesOk (cmdNat c 2) (cmdNat c 6) (cmdNat c 7)
      || !destOk (cmdDword c 4) (cmdNat c 6) s, (stBadArgument, 0)),
    (needsDram (cmdDword c 4) s, (stNoResource, 0)), (queueBusy c s, (stBusy, 0)),
    (heldElsewhere c tableOps ch s || (decide (cmdNat c 3 = 0) && tableBusy ch s) || destHeld c (cmdDword c 4) (cmdNat c 6) s, (stConflict, 0))]
def tblReadAct (c : Cmd) (s : State) : Reply := { s := openE 0x0305 c [cmdNat c 1, destMark (cmdDword c 4) (cmdNat c 6) s] s }

def execTblReadDone (t : Nat) (q : Queue) (s : State) : Result :=
  completion t 0x0305 q s fun o s =>
    let c := o.cmd
    let s := tableReads (cmdNat c 2) s
    let x := s.chan (cmdNat c 1)
    let T := if cmdNat c 3 = 0 then x.active else x.inactive
    let bs := T.bytes (cmdNat c 2) (cmdNat c 7 * entrySize (cmdNat c 2)) (cmdNat c 6)
    finish o stOk 0 [(crc32c bs).toNat] (deliver 4 (cmdDword c 4) bs s)

def jetStatusRow : OpRow := { op := 0x0306, argw := 4, states := activeStates }
def jetStatusFail (c : Cmd) (s : State) : Option (Nat × Nat) :=
  let ch := cmdNat c 1
  firstFail [(decide (3 < ch ∨ (s.chan ch).configured = false ∨ cmdNat c 3 = 0 ∨ 8 < cmdNat c 3 ∨ 65536 < cmdNat c 2 + cmdNat c 3
      ∨ 3 < cmdNat c 4), (stBadArgument, 0)), (tableBusy ch s, (stConflict, 0))]
/-- STATUS of each jet replaced in the inactive jet map (R200). -/
def jetStatusAct (c : Cmd) (s : State) : Reply :=
  let ch := cmdNat c 1
  let x := s.chan ch
  let T := (List.range (cmdNat c 3)).foldl (fun (T : Tables) i =>
    let u := T.unit 0 (cmdNat c 2 + i)
    T.setUnit 0 (cmdNat c 2 + i) (u - bitsOf u 20 2 * 2 ^ 20 + cmdNat c 4 * 2 ^ 20)) x.inactive
  { s := s.setChan ch { x with inactive := T } }

/-! The table scan (R353, R375). -/

/-- The reference value of a table: that of the last commit, or of its reset contents. -/
def State.tableRef (s : State) (ch t : Nat) : Word :=
  match (s.chan ch).refs.lookup t with
  | some r => r
  | none => crc32c (List.replicate (entrySize t * entryCount t) 0)

/-- A committed table has changed copies, and its copy-forward is not complete (R200). -/
def State.copying (s : State) (ch t : Nat) : Bool :=
  let x := s.chan ch
  s.flag R.chTblstat_PENDING ch && bitOf x.copyMask t && x.next.isNone && x.waitSeg.isNone

/-- A scan of an active copy completes; one that overlaps a commit or copy-forward of the same table begins again after it, and each needs
CRC unit 3 (R353, R375). -/
def execTableScan (t : Nat) (ch : Chan) (tab : Fin 4) (s : State) : Result :=
  live t s fun s =>
    if s.fw.running = false ∨ s.get R.glbBootstat_PHASE ≠ 9 ∨ s.copying ch tab = true then s
    else
      let r := claimFor true 0 3 s
      if r.1 = false then r.2
      else
        let s := tableReads tab (claimFree true 0 3 r.2)
        let s := { s with scans := nset (0, false) s.scans (4 * ch.val + tab.val) (s.now, false) }
        let got := crc32c ((s.chan ch).active.bytes tab 0 (entrySize tab * entryCount tab))
        let m := meets 47 ch (decide (got ≠ s.tableRef ch tab)) s
        if m.1 then fatal 47 ch none tab.val m.2.1 m.2.2 else m.2.2

/-- A scan pushed past its bound of 100 ms because unit 3 could not be claimed: raised once for each scan that is late (R353, R375). -/
def execTableScanLate (t : Nat) (ch : Chan) (tab : Fin 4) (s : State) : Result :=
  live t s fun s =>
    let k := 4 * ch.val + tab.val
    match s.scans.lookup k with
    | some (u, false) =>
      if s.fw.running = true ∧ s.get R.glbBootstat_PHASE = 9 ∧ s.owner true 0 ≠ 0 ∧ s.owner true 0 ≠ 3 ∧ u + 100000000000 < s.now then
        raise 48 ch none tab.val false { s with scans := nset (0, false) s.scans k (u, true) }
      else s
    | _ => s

def execChGeometry (t : Nat) (c : Cmd) (s : State) : Result := command t c s (runCommand chGeometryRow chGeometryFail chGeometryAct)
def execChSegment (t : Nat) (c : Cmd) (s : State) : Result := command t c s (runCommand chSegmentRow chSegmentFail chSegmentAct)
def execTblLoad (t : Nat) (c : Cmd) (s : State) : Result := command t c s (runCommand tblLoadRow tblLoadFail tblLoadAct)
def execTblCommit (t : Nat) (c : Cmd) (s : State) : Result := command t c s (runCommand tblCommitRow tblCommitFail tblCommitAct)
def execTblRead (t : Nat) (c : Cmd) (s : State) : Result := command t c s (runCommand tblReadRow tblReadFail tblReadAct)
def execJetStatus (t : Nat) (c : Cmd) (s : State) : Result := command t c s (runCommand jetStatusRow jetStatusFail jetStatusAct)

end Sys2Proof.Machine
end

