-- ==== Sys2Proof/Machine/Expander.lean ====
section
/-!
DEFINITION. The expanders (spec 08): decoding of image lines (R158 to R160), page starts and snapshots (R112, R130),
release and verification of blocks (R161 to R167), the re-decoder (R168 to R170).
-/
namespace Sys2Proof.Machine

/-- Every page of the segment has been decoded, or none is to come (R129). -/
def SegSt.ended (g : SegSt) : Bool :=
  match g.endPage with
  | some e => decide (e ≤ g.page ∨ (e = g.page + 1 ∧ g.pageEnd ≤ g.y ∧ g.started))
  | none => false

/-- A snapshot record of the page that begins (R130). -/
def snapshotBytes (s : State) (ch g : Nat) : List Byte :=
  let sg := s.seg ch g
  let post := (sg.postAt sg.page 0).map (·.2)
  let due := sg.pageStart + s.dRef (homeOf ch g) sg.pageStart - (s.chan ch).l + s.shift
  let y0 := (s.job.bind Job.y0).getD 0
  let body := leBytes 4 0x534E4150 ++ leBytes 4 (match s.job with | some j => j.id.toNat | none => 0) ++ leBytes 1 ch ++ leBytes 1 g
    ++ leBytes 2 sg.first ++ leBytes 2 sg.width ++ leBytes 2 0 ++ leBytes 4 sg.page ++ leBytes 4 (sg.snapGen + 1)
    ++ leBytes 8 (wrapInt 64 (sg.pageStart - y0)) ++ leBytes 8 (wrapInt 64 due)
    ++ leBytes 8 (match post with | some p => p.addr | none => 0) ++ leBytes 4 (match post with | some p => p.index | none => 0xFFFFFFFF)
    ++ leBytes 4 sg.pageLen ++ leBytes 4 (wrapInt 32 sg.shiftAcc)
    ++ leBytes 2 (match post with | some p => p.lib.getD 0xFFFF | none => 0xFFFF)
    ++ leBytes 2 (match post with | some p => if p.lib.isSome then p.page + p.pages - sg.page else 0 | none => 0)
    ++ leBytes 64 0 ++ fillTo 0 16252 (savedState sg.width {})
  body ++ wordBytes (crc32c body)

/-- Base of the snapshot slots of a segment (R113, R130). -/
def State.snapBase (s : State) (ch g : Nat) : Nat := s.regionBase 5 + (128 * ch + g) * 0x8000

/-- Every jet that prints a column of the segment's image line has fired it, or passed its fire line (R8, R122). -/
def State.lineOver (s : State) (ch g : Nat) (y : Int) : Bool :=
  let sg := s.seg ch g
  let T := s.tab ch y
  let offs := (T.jets.filter fun e => decide (sg.first ≤ jeColumn e.2 ∧ jeColumn e.2 < sg.first + sg.width) && jeMapped e.2).map
    fun e => s.baseOff (portOfJet ch e.1) + s.rowOff (portOfJet ch e.1) (jeRow e.2)
  decide (y + listMax offs + s.shift < s.fire)

/-- Ring space of pages whose lines have all been fired or ceased to be due, two snapshots on, is freed (R122). -/
def freeSpace (ch g : Nat) (s : State) : State :=
  let sg := s.seg ch g
  let last (p : Post) : Nat := if p.lib.isSome then p.page + p.pages - 1 else p.page
  let held (p : Post) : Bool := decide (sg.page < last p + 2) || sg.lines.any fun l => decide (l.page ≤ last p) && !s.lineOver ch g l.y
  s.setSeg ch g { sg with posts := sg.posts.filter held }

/-- A page begins with the line to decode next (R110, R112, R130): empty history, a snapshot, ring space freed. Lines of
a block that reached into lines cut by a mark are never released (R161, R226). -/
def beginPage (ch g : Nat) (s : State) : State :=
  let sg := s.seg ch g
  let cutAt := if sg.dec.inBlock ∧ sg.dec.ty ≠ tyZero then some (sg.pageStart + sg.dec.bLine) else none
  let lines := match cutAt with | some y => sg.lines.filter (fun l => decide (l.y < y)) | none => sg.lines
  let sg := { sg with lines := lines, dec := {}, blockStart := {} }
  let moved := (sg.deltas.lookup sg.page).getD 0
  let rest := sg.deltas.filter fun e => decide (sg.page < e.1)
  let next : SegSt := { sg with page := sg.page + 1, pageStart := sg.pageEnd, shiftAcc := sg.shiftAcc + moved, deltas := rest,
                                gave := sg.gave.filter fun e => decide (sg.page < e.1) || (e.2.2 && decide (sg.postPage ≤ e.1)) }
  let sg := if sg.started then next
    else { sg with started := true }
  let s := freeSpace ch g (s.setSeg ch g sg)
  if sg.ended then s
  else
    let s := dramWrite ch (s.snapBase ch g + sg.snapSlot * 0x4000) (snapshotBytes s ch g) s
    s.setSeg ch g { s.seg ch g with snapSlot := 1 - sg.snapSlot, snapGen := sg.snapGen + 1 }

/-! Fetching (R160). -/

/-- What the decoder sees of memory: the fetch buffer, for a page. -/
def bufView (page : Nat) (fetched : List ((Nat × Nat) × List Byte)) (errs : List (Nat × Nat)) : View := fun a =>
  if errs.contains (page, burstOf a) then some none
  else match fetched.lookup (page, burstOf a) with
  | some bs => some (some (bs.getD (a % 64) 0))
  | none => none

/-- The page line is beyond the posted data that the page is decoded from: the page is given up from there (R128, R165). -/
def SegSt.deadAt (g : SegSt) (y : Int) : Bool := match g.gaveFrom g.page with | some u => decide (u ≤ y) | none => false

/-- Bytes left of a post whose lines have all been decoded, that hold a further block's header: the post decodes to too many lines
(R119). First address, and the end of the post's bytes. -/
def SegSt.leftover (g : SegSt) : Option (Nat × Nat) :=
  let d := g.dec
  if d.inBlock ∨ d.col ≠ 0 ∨ d.line = 0 then none
  else match g.postAt g.page (d.line - 1) with
  | some (l0, p) =>
    if l0 + p.lines = d.line ∧ p.addr ≤ d.blockAddr ∧ d.blockAddr + d.blockLen + 8 ≤ p.addr + p.len then
      some (d.blockAddr + d.blockLen, p.addr + p.len)
    else none
  | none => none

/-- The address at which decoding goes on in a post that begins at page line `l0`. -/
def SegSt.here (g : SegSt) (l0 : Nat) (p : Post) : Nat :=
  let d := g.dec
  if d.inBlock then (if d.ty = tyZero then d.blockAddr + d.blockLen else d.blockAddr + 8 + d.bitPos / 8)
  else if d.line = l0 ∧ d.col = 0 then p.addr else d.blockAddr + d.blockLen

/-- The next 64 bursts, 4 KiB, of joined data, in the order of decoding: page and address. -/
def SegSt.upcoming (g : SegSt) : List (Nat × Nat) :=
  let inPage (k : Nat) : List Post := g.posts.filter fun p => p.isIn && decide (p.page ≤ k ∧ k < p.page + p.pages)
  let range (k a b : Nat) : List (Nat × Nat) := (List.range (min 64 ((b + 63 - burstOf a) / 64))).map fun i => (k, burstOf a + 64 * i)
  let extra := match g.leftover with | some (a, b) => range g.page a b | none => []
  let cur := if g.deadAt g.y then [] else match g.postAt g.page g.dec.line with
    | none => []
    | some (l0, p) => range g.page (g.here l0 p) (p.addr + p.len)
        ++ ((inPage g.page).dropWhile fun q => decide (q ≠ p)).tail.flatMap fun q => range g.page q.addr (q.addr + q.len)
  let next := (List.range 64).flatMap fun i => (inPage (g.page + 1 + i)).flatMap fun q => range (g.page + 1 + i) q.addr (q.addr + q.len)
  (extra ++ cur ++ next).take 64

/-- One burst into the 4 KiB fetch buffer of a context; bursts behind the decoder leave it. -/
def fetchBurst (ch g : Nat) (k : Nat × Nat) (s : State) : State :=
  let r := readBurst ch 1 k.2 s
  let sg := r.2.seg ch g
  let want := sg.upcoming
  let sg := { sg with fetched := sg.fetched.filter (fun e => want.contains e.1), fetchErr := sg.fetchErr.filter want.contains }
  r.2.setSeg ch g (match r.1 with
    | some bs => { sg with fetched := sg.fetched ++ [(k, bs)] }
    | none => { sg with fetchErr := k :: sg.fetchErr })

/-- Cycles for which an expander waits for a burst: the spec states none (R160). -/
def stall (ch : Nat) (s : State) : Nat × State :=
  let n := Config.freeNat s.freeCount
  (n, (s.drawn.bump R.chStall_CYCLES ch 0 n).tally 0x0103 ch n)

/-! Decoding. -/

/-- The end of a block joins the ends to be judged (R164). A block whose bytes include a burst whose read failed has that fault
before any other (R167). -/
def pushEnd (ch g : Nat) (d : DecSt) (addr span name bitPos : Nat) (carried : Word) (giveUp : Bool) (s : State) : State :=
  let sg := s.seg ch g
  let start := if giveUp then d else sg.blockStart
  let first := sg.pageStart + start.line
  let last := if giveUp then sg.pageStart + sg.pageLen - 1
    else sg.pageStart + ((start.line * sg.width + start.col + span - 1) / sg.width : Nat)
  let lost := sg.fetchErr.any fun k => decide (k.1 = sg.page ∧ burstOf addr ≤ k.2 ∧ k.2 < addr + (if giveUp then 8 else d.blockLen))
  let name := if name ≠ 0 ∧ lost then fnRead else name
  s.setSeg ch g { sg with ends := sg.ends ++
    [{ addr := addr, firstLine := first, firstCol := start.col, span := span, lastLine := last, pageLine := start.line,
       page := sg.page, name := name, bitPos := bitPos, codesCrc := ~~~ d.runCrc, carried := carried, giveUp := giveUp }] }

/-- A header that is no header: the page is given up from the position on (R165, item 4). -/
def headerFault (ch g addr name bitPos : Nat) (s : State) : State :=
  let sg := s.seg ch g
  let s := pushEnd ch g sg.dec addr 0 name bitPos 0 true s
  s.setSeg ch g { s.seg ch g with gave := sg.gave ++ [(sg.page, sg.pageStart + sg.dec.line, false)] }

/-- One step of the decoding of page line `target`: the state, its cycles, and whether to go on; a block whose last code has been
emitted ends at once. -/
def decodeStep (ch g target : Nat) (s : State) : State × Nat × Bool :=
  let sg := s.seg ch g
  let d := sg.dec
  let v := bufView sg.page sg.fetched sg.fetchErr
  let fetched (a : Nat) : State × Nat × Bool :=
    let r := stall ch (fetchBurst ch g (sg.page, burstOf a) s)
    (r.2, r.1, true)
  if sg.deadAt (sg.pageStart + d.line) then (s, 0, false)
  else match sg.leftover with
  | some (a, stop) =>
    match beginBlock v a sg.width sg.pageLen d.line stop d with
    | .need b => fetched b
    | .fail n b => (headerFault ch g a n b s, 0, false)
    | _ => (headerFault ch g a fnHeader 0xFFFFFFFF s, 0, false)
  | none =>
    match sg.postAt sg.page (min d.line target) with
    | none => (s, 0, false)
    | some (l0, p) =>
      let addr := if d.inBlock then d.blockAddr else sg.here l0 p
      let stop := l0 + p.lines
      let last := p.addr + p.len
      if target < d.line ∧ ¬ (d.inBlock ∧ d.remain = 0 ∧ d.rep = 0) then (s, 0, false)
      else match (if d.inBlock then stepBlock v sg.width d else beginBlock v addr sg.width sg.pageLen stop last d) with
      | .ok d' c =>
        let s := if d.inBlock then s else s.tally 0x0104 ch
        (s.setSeg ch g { sg with dec := d', blockStart := if d.inBlock then sg.blockStart else d }, c, true)
      | .done d' =>
        if d.ty = tyZero then (s.setSeg ch g { sg with dec := d'.closed }, 0, true)
        else match viewBytes v 4 (d.blockAddr + d.blockLen - 4) with
        | .need a => fetched a
        | .fail n b =>
          let s := pushEnd ch g d' d.blockAddr (spanOf sg d') n b 0 false s
          (s.setSeg ch g { s.seg ch g with dec := d'.closed }, 0, true)
        | .ok bs _ =>
          let s := pushEnd ch g d' d.blockAddr (spanOf sg d') 0 0 (BitVec.ofNat 32 (leNat bs)) false s
          (s.setSeg ch g { s.seg ch g with dec := d'.closed }, 0, true)
      | .need a => fetched a
      | .fail n b =>
        if d.inBlock then
          let s := pushEnd ch g d d.blockAddr (spanOf sg d) n b 0 false s
          (s.setSeg ch g { s.seg ch g with dec := d.zeroed }, 0, true)
        else (headerFault ch g addr n b s, 0, false)
where
  /-- codes of the block's span: emitted and remaining -/
  spanOf (sg : SegSt) (d : DecSt) : Nat :=
    d.line * sg.width + d.col + d.remain - (sg.blockStart.line * sg.width + sg.blockStart.col)

/-- The decoding of page line `target`; every step moves the position or the fetch buffer on. -/
def decodeLoop : Nat → Nat → Nat → Nat → Nat → State → State × Nat
  | 0, _, _, _, cyc, s => (s, cyc)
  | fuel + 1, ch, g, target, cyc, s =>
    match decodeStep ch g target s with
    | (s, c, true) => decodeLoop fuel ch g target (cyc + c) s
    | (s, c, false) => (s, cyc + c)

/-- A line joins those that wait for release (R161). -/
def pushLine (ch g : Nat) (codes : List Nat) (s : State) : State :=
  let sg := s.seg ch g
  s.setSeg ch g { sg with lines := sg.lines ++ [{ y := sg.y, page := sg.page, codes := codes }], y := sg.y + 1 }

/-- The next image line of a segment is decoded, with its cycles (R158, R159, R165, R226, R128); no line that is not posted
is. -/
def decodeSegLine (ch g : Nat) (s : State) : State × Nat :=
  let sg := s.seg ch g
  let s := if sg.ended then s
    else if sg.started = false ∧ sg.y = sg.pageStart ∨ (sg.started ∧ sg.pageEnd ≤ sg.y) then beginPage ch g s else s
  let s := s.setSeg ch g { s.seg ch g with started := true }
  let sg := s.seg ch g
  let k := (sg.y - sg.pageStart).toNat
  if sg.ended then (s.setSeg ch g { sg with y := sg.y + 1 }, 0)
  else if sg.pageLen ≤ k ∨ sg.deadAt sg.y then (pushLine ch g (List.replicate sg.width 0) s, 0)
  else if (sg.postAt sg.page k).isNone then (s, 0)
  else
    let r := decodeLoop (20 * sg.width + 4096) ch g k 0 s
    let g' := r.1.seg ch g
    if k < g'.dec.line then (pushLine ch g (fillTo 0 sg.width g'.dec.prev) r.1, r.2)
    else if g'.deadAt g'.y then (pushLine ch g (fillTo 0 sg.width g'.dec.cur) r.1, r.2)
    else r

/-- Decode instants fall due (R13, R220, R221). -/
def State.decoding (s : State) : Bool :=
  match s.job with
  | none => false
  | some j => j.y0.isSome && decide (s.dev = .armed ∨ s.dev = .printing ∨ (s.dev = .paused ∧ j.resumeAt.isSome = true))

/-- The decode of image line `y` has fallen due at a hub (R13). -/
def State.decodeDue (s : State) (p : Nat) (y : Int) : Bool := match s.front with | some f => s.dueBy p y f | none => false

/-- `LOW_RUNWAY` as the runway falls below the threshold (R126). -/
def lowRunway (ch g before : Nat) (s : State) : State :=
  let sg := s.seg ch g
  match s.job with
  | none => s
  | some j =>
    if j.threshold = 0 ∨ sg.endPage.isSome ∨ before < j.threshold ∨ j.threshold ≤ sg.runway ∨ ¬ (s.dev = .armed ∨ s.dev = .printing) then s
    else event 0x0F03 (ch * 256 + g) [min 0xFFFFFFFF sg.runway] s

/-- A change after which the runway of a segment may have fallen. -/
def watchRunway (ch g : Nat) (f : State → State) (s : State) : State := lowRunway ch g (s.seg ch g).runway (f s)

/-! Edge records that leave (R301, R302). -/

/-- No line of the segment at or above `y` is to come. -/
def SegSt.past (g : SegSt) (y : Int) : Bool := g.ended && decide (g.pageEnd ≤ y ∨ g.endPage = some g.page)

/-- Image line `y` is released over the columns that EDGE records to a side describe. -/
def State.edgeReady (s : State) (ch side : Nat) (y : Int) : Bool :=
  let n := (s.chan ch).n
  s.jobSegs.all fun e =>
    let g := s.seg e.1 e.2
    decide (e.1 ≠ ch) || (if side = 0 then decide (130 < g.first) else decide (g.first + g.width + 130 < n)) || g.released y || g.past y

/-- The EDGE packet of line `y`, with the states that it used; the spec gives the TAG of such a packet no value. -/
def sendEdge (ch side member rch : Nat) (y : Int) (s : State) : State :=
  let id := match s.job with | some j => j.id.toNat | none => 0
  let body := leBytes 8 s.chainTime ++ leBytes 8 (wrapInt 64 y) ++ leBytes 4 id ++ leBytes 1 ch ++ leBytes 1 rch
    ++ leBytes 1 (1 - side) ++ leBytes 1 0 ++ packRecords ((List.range 128).map (s.edgeOutRec ch side y))
  let used := (List.range 128).map fun k => s.farState ch side k y
  let s := s.setFab { s.fab with edgeUsed := ((ch, side, y), used) :: s.fab.edgeUsed }
  sendTo 0x02 0 member (Config.freeNat s.freeCount) body s.drawn

/-- EDGE packets of lines that have been released since the last one leave, in order. -/
def sendEdgesTo : Nat → Nat → Nat → Nat → Nat → State → State
  | 0, _, _, _, _, s => s
  | fuel + 1, ch, side, m, rch, s =>
    match s.fab.edgeSent.lookup (ch, side) with
    | none => s
    | some y =>
      let top := listMax (s.jobSegs.map fun e => if e.1 = ch then (s.seg e.1 e.2).y.toNat else 0)
      if s.edgeReady ch side (y + 1) = false ∨ (top : Int) ≤ y + 1 then s
      else
        let sent := ((ch, side), y + 1) :: s.fab.edgeSent.filter fun e => decide (e.1 ≠ (ch, side))
        let s := s.setFab { s.fab with edgeSent := sent }
        sendEdgesTo fuel ch side m rch (if s.edgeOut (y + 1) ch side then sendEdge ch side m rch (y + 1) s else s)

/-- EDGE packets over both boundaries of a channel. -/
def sendEdges (ch : Nat) (s : State) : State :=
  if s.lineLocked = false ∨ s.job.isNone then s
  else
    let x := s.chan ch
    let go (side : Nat) (e : Option (Nat × Nat)) (s : State) : State :=
      match e with | some (m, rch) => sendEdgesTo 128 ch side m rch s | none => s
    go 1 x.edgeR (go 0 x.edgeL s)

/-- Segments of a band in ascending order of first column. -/
def State.bandSegs (s : State) (ch b : Nat) : List Nat :=
  let l := (s.segs.filter fun e => decide (e.1 / 128 = ch ∧ e.1 % 128 / 8 = b) && s.inJob ch e.2).map fun e => (e.2.first, e.1 % 128)
  (l.foldl (fun acc e => mapInsert natLt e.1 e.2 acc) []).map (·.2)

/-- The line to decode next is in underrun and the job halts for it (R128). -/
def SegSt.stops (g : SegSt) : Bool := match g.under with | some u => decide (u ≤ g.y) | none => false

/-- The next burst of posted bytes of a context arrives ahead of decoding (R160). -/
def execBlockFetch (t : Nat) (ch : Chan) (g : Seg) (s : State) : Result :=
  liveReading [6] t s fun s =>
    let sg := s.seg ch g
    match sg.upcoming.find? fun k => !((sg.fetched.map (·.1)).contains k || sg.fetchErr.contains k) with
    | some k => fetchBurst ch g k s
    | none => s

/-! Where columns print. -/

/-- Armed ports that print a column range of a channel on image line `y`, each with its smallest offset
*O_p* + *o_r* among the jets that do (R8, R182). -/
def State.printsAt (s : State) (ch : Nat) (y : Int) (a b : Nat) : List (Nat × Nat) :=
  let T := s.tab ch y
  let offs (p : Nat) : List Nat := (T.jets.filter fun e => decide (portOfJet ch e.1 = p ∧ a ≤ jeColumn e.2 ∧ jeColumn e.2 < b)
      && jeMapped e.2 && (decide (T.printer (jeColumn e.2) y = some e.1) || (decide (jeStatus e.2 = 3) && !T.live (jeColumn e.2)))).map
        fun e => s.baseOff p + s.rowOff p (jeRow e.2)
  (List.range 4).filterMap fun k =>
    let p := 4 * ch + k
    match offs p with
    | [] => none
    | l => if s.flag R.hptPstat_ARMED p then some (p, listMin l) else none

/-- A halt for parts of a segment, each an image line with a column range: *F_h* is the earliest fire line at which a jet
prints one, or the next line if that has passed; one record for each port that prints (R128, R166), which tells of its line where
that line fires later without the segment (R18; log entry 80). With no such port nothing halts (R467). -/
def haltFor (ch g cause : Nat) (tells : Bool) (parts : List (Int × Nat × Nat)) (s : State) : State :=
  let all := parts.flatMap fun q => (s.printsAt ch q.1 q.2.1 q.2.2).map fun e => (e.1, q.1, q.1 + e.2 + s.shift)
  match all with
  | [] => s
  | e :: r =>
    let soonest := match s.job with | some j => if s.dev = .paused then j.stoppedAt else s.fire + 1 | none => s.fire + 1
    let fh := max soonest (r.foldl (fun m x => min m x.2.2) e.2.2)
    let firsts := (List.range 16).filterMap fun p => (all.find? fun x => decide (x.1 = p)).map fun x => (p, x.2.1)
    let s := decideHalt fh cause s
    match s.job with
    | some j =>
      if s.chained then s
      else
        let recs := firsts.map fun x => (x, (x.1, g, cause, x.2 + s.dRef x.1 x.2 + s.shift, fh))
        let new := recs.filter fun x => !j.haltRecs.any fun h => decide (h.1 = x.2.1 ∧ h.2.1 = g ∧ h.2.2.1 = cause ∧ h.2.2.2.1 = x.2.2.2.2.1)
        let s := s.setJob (some { j with haltRecs := j.haltRecs ++ new.map (·.2) })
        if tells then s.setSeg ch g { s.seg ch g with halted := new.map (·.1) ++ (s.seg ch g).halted } else s
    | none => s

/-! Verification (R164 to R167). -/

/-- The codes of a faulted span carry dose 0 for firing (R165). -/
def zeroSpan (e : BlockEnd) (g : SegSt) : SegSt :=
  { g with lines := g.lines.map fun l =>
      if l.page = e.page ∧ e.firstLine ≤ l.y ∧ l.y ≤ e.lastLine then
        let base := (l.y - e.firstLine).toNat * g.width
        { l with codes := l.codes.zipIdx.map fun c =>
            if e.firstCol ≤ base + c.2 ∧ (e.giveUp ∨ base + c.2 < e.firstCol + e.span) then 0 else c.1 }
      else l }

/-- The span that a faulted block blanks in a segment of width `w`. -/
def BlockEnd.blank (e : BlockEnd) (w cause : Nat) : Blank :=
  { page := e.page, first := e.firstLine, col := e.firstCol, last := e.lastLine,
    stop := if e.giveUp then w else (e.firstCol + e.span - 1) % w + 1, cause := cause }

/-- Column range of a segment of width `w` that is blanked on a line. -/
def Blank.cols (b : Blank) (w : Nat) (y : Int) : Nat × Nat := (if y = b.first then b.col else 0, if y = b.last then b.stop else w)

/-- The lines of the span, each with its columns in the channel. -/
def Blank.parts (b : Blank) (x w : Nat) : List (Int × Nat × Nat) :=
  (List.range (b.last - b.first + 1).toNat).map fun (i : Nat) =>
    let y := b.first + i
    (y, x + (b.cols w y).1, x + (b.cols w y).2)

/-- A fault record is allocated, in the lowest slot that is free (log entry 81), or counted as lost (R169). A block that a read failed on is
not diagnosed (R167). -/
def allocRecord (ch g : Nat) (e : BlockEnd) (s : State) : State :=
  let q := mapGet [] s.faults ch
  if 16 ≤ q.length then raise 9 ch (some e.addr) 0 false (s.bump R.chBfstat_LOST ch)
  else
    let slot := ((List.range 16).find? fun i => !(q.map FaultRec.slot).contains i).getD 0
    let sg := s.seg ch g
    let read := decide (e.name = fnRead)
    let posts := sg.posts.filter fun p => decide (p.page ≤ e.page ∧ e.page < p.page + p.pages)
    let rec_ : FaultRec := { done := read, name := if read then fnRead else 0, seg := g, slot := slot, page := e.page, bitPos := 0,
                             addr := e.addr, line := e.pageLine, w := sg.width, pageLen := sg.pageLen, posts := posts }
    { s with faults := nset [] s.faults ch (q ++ [rec_]) }

/-- A block fault is detected: it is counted and raised, recorded, its span carries dose 0, and the policy halts or blanks (R164 to
R166, R467). -/
def blockFault (ch g : Nat) (e : BlockEnd) (inj : Bool) (s : State) : State :=
  let s := raise 8 ch (some e.addr) 0 inj ((s.bump R.chBfstat_FAULTS ch).tally 0x0105 ch)
  let s := allocRecord ch g e s
  let cause := if e.name = fnRead then 9 else 3
  let sg := zeroSpan e (s.seg ch g)
  let b := e.blank sg.width cause
  let s := s.setSeg ch g { sg with blanks := sg.blanks ++ [b] }
  match s.job with
  | some j => if bitOf j.policy 1 then s else haltFor ch g cause true (b.parts sg.first sg.width) s
  | none => s

/-! Late lines (R163). -/

/-- A line that had not been released by its deadline at a port that prints the segment's columns: `DECODE_LATE`, and the
policy of underrun. -/
def execDecodeLate (t : Nat) (p : Port) (g : Seg) (y : Int) (s : State) : Result :=
  live t s fun s =>
    let ch := p.val / 4
    let sg := s.seg ch g
    match sg.late.lookup (p.val, y) with
    | none => s
    | some inj =>
      if sg.lateSeen.contains (p.val, y) then s
      else
        let s := s.setSeg ch g { sg with lateSeen := (p.val, y) :: sg.lateSeen }
        let s := raise 7 ch none 0 inj ((s.bump R.chDeclate_LINES ch).tally 0x0107 ch)
        match s.job with
        | some j => if bitOf j.policy 0 then s else haltFor ch g 2 true [(y, sg.first, sg.first + sg.width)] s
        | none => s

/-! The re-decoder (R168 to R170). -/

/-- Base of a diagnostic slot. -/
def diagBase (ch slot : Nat) : Nat := 0x1E00000 + (16 * ch + slot) * 0x8000

/-- What the re-decoder finds for a record: name, bit position, the state at the block's first code and the one at the first error,
before the symbol that fails (log entry 82), and the state from which a further block of the page is decoded (R168). -/
structure Finding where
  name : Nat
  bitPos : Nat
  first : DecSt
  error : Option DecSt
  /-- where a further block of the page is sought from -/
  next : Option DecSt := none
deriving Repr

/-- The state of a dynamic block whose table breaks R148, with the lengths that it read. -/
def withLengths (v : View) (n : Nat) (d : DecSt) : DecSt :=
  if n = fnTable then (match readLengths v d.blockAddr d.blockLen 96 0 with | .ok l _ => { d with lengths := l } | _ => d) else d

/-- The blocks of a page decoded again, from its start or from where the re-decoder stopped, with every check, up to the block of a record
(R168). Each read is a fresh one; a fault of an earlier block is passed as the spoke passes it (R165). Where the re-decoder's own read fails
the spec gives no finding: in the block itself it is `READ_ERROR`, in an earlier block a fault like any other, and before a header the block is
not reproduced (log entry 134: DESIGN CHOICE). `start` is the state at the present block's first code. -/
def redecode : Nat → Nat → FaultRec → List ((Nat × Nat) × List Byte) → List (Nat × Nat) → DecSt → DecSt → State → Finding × State
  | 0, _, _, _, _, _, d, s => ({ name := fnNotReproduced, bitPos := 0, first := d, error := none }, s)
  | fuel + 1, ch, r, got, errs, start, d, s =>
    let g : SegSt := { width := r.w, pageLen := r.pageLen, posts := r.posts, page := r.page, dec := d }
    let v := bufView r.page got errs
    let none_ : Finding × State := ({ name := fnNotReproduced, bitPos := 0, first := d, error := none }, s)
    let again (a : Nat) : Finding × State :=
      let x := readBurst ch 1 (burstOf a) s true
      match x.1 with
      | some bs => redecode fuel ch r (((r.page, burstOf a), bs) :: got) errs start d x.2
      | none => redecode fuel ch r got ((r.page, burstOf a) :: errs) start d x.2
    if d.inBlock then
      let mine := decide (d.blockAddr = r.addr)
      match stepBlock v r.w d with
      | .ok d' _ => redecode fuel ch r got errs start d' s
      | .need a => again a
      | .fail n b =>
        if mine then ({ name := n, bitPos := b, first := start, error := some (withLengths v n d), next := some d.zeroed }, s)
        else redecode fuel ch r got errs start d.zeroed s
      | .done d' =>
        if mine = false then redecode fuel ch r got errs start d'.closed s
        else match viewBytes v 4 (d.blockAddr + d.blockLen - 4) with
        | .need a => again a
        | .fail n b => ({ name := n, bitPos := b, first := start, error := none, next := some d'.closed }, s)
        | .ok bs _ =>
          if BitVec.ofNat 32 (leNat bs) = ~~~ d'.runCrc then ({ name := fnNotReproduced, bitPos := 0, first := start, error := none, next := some d'.closed }, s)
          else ({ name := fnCheck, bitPos := (~~~ d'.runCrc).toNat, first := start, error := none, next := some d'.closed }, s)
    else
      let place : Option (Nat × Nat × Nat) := match g.leftover with
        | some (a, b) => some (a, d.line, b)
        | none => (g.postAt r.page d.line).map fun e => (g.here e.1 e.2, e.1 + e.2.lines, e.2.addr + e.2.len)
      match place with
      | none => none_
      | some (a, stop, last) =>
        match beginBlock v a r.w r.pageLen stop last d with
        | .ok d' _ => redecode fuel ch r got errs d d' s
        | .need b => again b
        | .fail n b => if a = r.addr then ({ name := n, bitPos := b, first := d, error := none }, s) else none_
        | .done _ => none_

/-- The oldest pending record of a hub is completed, with the saved decoder states of R170; for a further block of the same page the re-decoder goes
on from where it stopped (R168). -/
def execRedecodeDone (t : Nat) (p : Port) (s : State) : Result :=
  liveReading [8, 10] t s fun s =>
    let ch := p.val / 4
    let q := mapGet [] s.faults ch
    match q.find? fun r => !r.done && decide (homeOf ch r.seg = p.val) with
    | none => s
    | some r =>
      let from_ : DecSt := match s.redec.lookup p.val with | some (g, pg, d) => if g = r.seg ∧ pg = r.page then d else {} | none => {}
      let x := redecode (r.w * r.pageLen * 41 + 4096) ch r [] [] from_ from_ s
      let f := x.1
      let q := (mapGet [] x.2.faults ch).map fun e => if e = r then { r with done := true, name := f.name, bitPos := f.bitPos } else e
      let redec := (x.2.redec.filter fun e => decide (e.1 ≠ p.val)) ++ (f.next.toList.map fun d => (p.val, (r.seg, r.page, d)))
      let s := { x.2 with faults := nset [] x.2.faults ch q, redec := redec }
      if f.name = fnNotReproduced ∨ f.name = fnRead then s
      else
        let s := dramWrite ch (diagBase ch r.slot) (savedState r.w f.first) s
        match f.error with
        | some d => dramWrite ch (diagBase ch r.slot + 0x4000) (savedState r.w d) s
        | none => s

/-- A write of `CH<c>_BFPOP` (R169). -/
def popFault (ch : Nat) (v : Word) (s : State) : State :=
  match mapGet [] s.faults ch with
  | r :: rest => if fieldOf v 0 1 = 1 ∧ r.done then { s with faults := nset [] s.faults ch rest } else s
  | [] => s

def execBfpop (t : Nat) (m : Master) (ch : Chan) (v : Word) (s : State) : Result :=
  liveWrite m t s fun s => gated (1 + ch) (0x102438 + 0x40000 * ch.val) m s (popFault ch v)

end Sys2Proof.Machine
end

