-- ==== Sys2Proof/Machine/Jobs.lean ====
section
/-!
DEFINITION. Jobs, posting and ingest (spec 06), the compressor (R172 to R175), and the commands that start, pause, resume,
end and restore a job (R98, R100, R109, R131, R220, R221, R469).
-/
namespace Sys2Proof.Machine

/-! The job ring (R113, R122). -/

/-- Whole bursts. -/
def roundBurst (n : Nat) : Nat := (n + 63) / 64 * 64

/-- Ring ranges of a channel that are taken: posts, and the reservation of the raw post in the compressor. -/
def State.ringTaken (s : State) (ch : Nat) : List (Nat × Nat) :=
  (s.segs.flatMap fun e => if e.1 / 128 = ch then (e.2.posts.filter fun p => p.lib.isNone).map (fun p => (p.addr, p.ring)) else [])
    ++ (s.raws.filter fun r => decide (r.ctx / 128 = ch)).map fun r => (r.addr, r.reserved)

/-- A range of `n` bytes at `a` lies in the ring of a channel and meets no range taken. -/
def State.ringFree (s : State) (ch a n : Nat) (taken : List (Nat × Nat)) : Bool :=
  decide (s.ringBase ch ≤ a ∧ a + n ≤ s.ringBase ch + s.ringSize) && taken.all fun e => decide (a + n ≤ e.1 ∨ e.1 + e.2 ≤ a)

/-- Where a post of `n` bytes is placed: after the latest one, or at the ring's base (log entry 19). -/
def State.ringPlace (s : State) (ch n : Nat) : Option Nat :=
  let head := max (s.ringBase ch) (s.chan ch).ringHead
  if s.ringFree ch head n (s.ringTaken ch) then some head
  else if s.ringFree ch (s.ringBase ch) n (s.ringTaken ch) then some (s.ringBase ch)
  else none

/-- Post indices kept from before a reset give way to a new post in the same ring. The spec is silent on a post before `JOB_RESTORE`
(DESIGN CHOICE, log entry 125). -/
def dropKept (ch : Nat) (s : State) : State := { s with kept := s.kept.filter fun e => decide (e.1 / 128 ≠ ch) }

/-- The blank policy has given the page up (R128). -/
def SegSt.abandoned (g : SegSt) (page : Nat) : Bool := g.gave.any fun e => decide (e.1 = page) && e.2.2

/-- A post enters the segment's queue; its lines join the runway as its response is posted (R118, R121). Of a post, the pages given up are
discarded (R128). -/
def addPost (ch g : Nat) (p : Post) (s : State) : State :=
  let sg := s.seg ch g
  let full := decide ((if p.page = sg.postPage then sg.postLines else 0) + p.lines = sg.pageLen)
  let pos : Nat × Nat := if p.lib.isSome then (p.page + p.pages, 0) else if full then (p.page + 1, 0)
    else (p.page, (if p.page = sg.postPage then sg.postLines else 0) + p.lines)
  let gone := ((List.range (min p.pages (sg.gave.length + 1))).takeWhile fun i => sg.abandoned (p.page + i)).length
  let p := { p with page := p.page + gone, pages := p.pages - gone }
  let discard := decide (p.pages = 0)
  let sg := { sg with postPage := pos.1, postLines := pos.2, posts := if discard then sg.posts else sg.posts ++ [p] }
  let x := s.chan ch
  let s := s.setChan ch { x with postIndex := x.postIndex + 1, ringHead := if p.lib.isSome ∨ discard then x.ringHead else p.addr + p.ring }
  s.setSeg ch g sg

/-- What the lines of a post that a command makes wait for (R121). -/
def postWaits (c : Cmd) (s : State) : Option (Queue × Word) := some (c.q, (responseHead 0x0402 c stOk 0 s).headD 0)

/-! JOB_POST (R116 to R122). -/

/-- The last page that a post may name: the page being filled, or the first one after pages given up (R118, R128). -/
def SegSt.lastPage (g : SegSt) : Nat :=
  g.postPage + ((List.range (g.gave.length + 1)).find? fun i => !g.abandoned (g.postPage + i)).getD 0

/-- The page that a post names follows the posting position; it may be one given up, or the next after those (R118, R128). A post of
whole pages may not name a page partly filled, which R118 leaves open (log entry 83: DESIGN CHOICE), unless that page has been given up,
of which every post is accepted (R128). -/
def SegSt.pageOk (g : SegSt) (page : Nat) (whole : Bool) : Bool :=
  decide (g.postPage ≤ page ∧ page ≤ g.lastPage) && (!whole || g.abandoned page || decide (page ≠ g.postPage ∨ g.postLines = 0))

/-- FORM and length of word 6. -/
def postForm (c : Cmd) : Nat := cmdNat c 6 / 2 ^ 30
def postLen (c : Cmd) : Nat := cmdNat c 6 % 2 ^ 30

def jobPostRow : OpRow := { op := 0x0402, argw := 7, states := activeStates, needsJob := true }
/-- Ranges and combinations of the words of a post (R116, R117: test 5 of R466). -/
def postArgsBad (c : Cmd) (s : State) : Bool :=
  let n := postLen c
  let k := cmdNat c 7
  let w := (s.seg (cmdNat c 1) (cmdNat c 2)).width
  decide (3 < cmdNat c 1 ∨ 127 < cmdNat c 2) || match postForm c with
    | 0 => decide (n = 0 ∨ 4194304 < n ∨ k = 0) || !sourceOk (cmdDword c 4) n s
    | 1 => decide (n ≠ k * w / 2 ∨ 4194304 < n ∨ k = 0) || !sourceOk (cmdDword c 4) n s
    | 2 => decide (4095 < cmdNat c 4 ∨ cmdNat c 5 ≠ 0 ∨ n ≠ 0 ∨ k = 0 ∨ 65535 < k)
    | _ => decide (cmdDword c 4 ≠ 0 ∨ n ≠ 0 ∨ k ≠ 0)

/-- The library entry does not suit the segment (R124). -/
def libraryBad (c : Cmd) (s : State) : Bool :=
  let sg := s.seg (cmdNat c 1) (cmdNat c 2)
  match s.lib.lookup (cmdNat c 4) with
  | some e => decide (e.stored ≠ e.streamLen ∨ e.width ≠ sg.width ∨ e.lines ≠ sg.pageLen)
  | none => true

/-- The posting position and the library entry that R118 and R124 require. -/
def postPlaceBad (c : Cmd) (s : State) : Bool :=
  let sg := s.seg (cmdNat c 1) (cmdNat c 2)
  let page := cmdNat c 3
  let done := if page = sg.postPage then sg.postLines else 0
  match postForm c with
  | 2 => !sg.pageOk page true || libraryBad c s
  | 3 => !sg.pageOk page true || (decide (page = sg.postPage ∧ sg.postLines ≠ 0))
  | _ => !sg.pageOk page false || decide (sg.pageLen < done + cmdNat c 7)

/-- After FORM 3 every further post to the segment returns WRONG_STATE, whatever page it names (R118). -/
def jobPostFail (c : Cmd) (s : State) : Option (Nat × Nat) :=
  let ch := cmdNat c 1
  let sg := s.seg ch (cmdNat c 2)
  let n := postLen c
  firstFail [(postArgsBad c s || !s.inJob ch sg || decide (sg.pageLen = 0), (stBadArgument, 0)),
    (sg.endPage.isSome, (stWrongState, 0)),
    (postPlaceBad c s, (stBadArgument, 0)),
    (decide (postForm c = 0) && (s.ringPlace ch (roundBurst n)).isNone, (stNoResource, 0)),
    (decide (postForm c = 1) && (s.ringPlace ch (roundBurst (n + n / 256 + 4096))).isNone, (stNoResource, 0))]

/-- The runway that a response reports (R121). -/
def runwayWord (ch g : Nat) (s : State) : Nat := min 0xFFFFFFFF (s.seg ch g).runway

/-- A source that is read by the DMA engine, or not yet come from another member. -/
def jobPostAct (c : Cmd) (s : State) : Reply :=
  let ch := cmdNat c 1
  let g := cmdNat c 2
  let page := cmdNat c 3
  let n := postLen c
  let k := cmdNat c 7
  let sg := s.seg ch g
  match postForm c with
  | 2 =>
    let s := dropKept ch s
    let e := (s.lib.lookup (cmdNat c 4)).getD { width := 0, lines := 0, streamLen := 0, stored := 0, addr := 0 }
    let s := addPost ch g { page := page, lines := sg.pageLen, addr := e.addr + 16, len := e.streamLen, ring := 0, raw := false,
                            lib := some (cmdNat c 4), pages := k, index := (s.chan ch).postIndex, waits := postWaits c s } s
    { s := s, words := [runwayWord ch g s] }
  | 3 => let s := (dropKept ch s).setSeg ch g { sg with endPage := some page, postPage := page, postLines := 0 }
         { s := s, words := [runwayWord ch g s] }
  | f =>
    let s := if addrSpace (cmdDword c 4) = 3 then requestFar (addrMember (cmdDword c 4)) (addrIn (cmdDword c 4)) n s else s
    let r := dmaFetch (cmdDword c 4) n s
    match r.1 with
    | .wait => { s := r.2, wait := true }
    | .error => { s := doneWith (cmdDword c 4) n r.2, status := stIntegrity }
    | .bytes bs =>
      let s := dropKept ch (doneWith (cmdDword c 4) n r.2)
      if f = 0 then
        let a := (s.ringPlace ch (roundBurst n)).getD 0
        let s := if sg.abandoned page then s else dramWrite 4 a (fillTo 0 (roundBurst n) bs) s
        let s := addPost ch g { page := page, lines := k, addr := a, len := n, ring := roundBurst n, raw := false, lib := none,
                                pages := 1, index := (s.chan ch).postIndex, waits := postWaits c s } s
        { s := s, words := [runwayWord ch g s] }
      else
        let size := roundBurst (n + n / 256 + 4096)
        let a := (s.ringPlace ch size).getD 0
        let r : RawPost := { ctx := segKey ch g, page := page, line := if page = sg.postPage then sg.postLines else 0,
                             codes := unpackCodes bs, done := 0, lines := k, out := [], addr := a, reserved := size,
                             mode := s.get R.cmpCtrl_MODE, cmd := c }
        { s := { s with raws := s.raws ++ [r] }, wait := true }

/-! The compressor (R172 to R175). -/

/-- The raw post ends: its command is answered (R121). -/
def endRaw (r : RawPost) (status : Nat) (ws : List Nat) (s : State) : State :=
  respond 0x0402 r.cmd status 0 ws { s with raws := s.raws.erase r, fw := { s.fw with deferred := none } }

/-- A block of the raw post is formed; after the last one the post is written and joins the runway (R121, R122, R172, R175). `CMP_IN` and
`CMP_OUT` count whole KiB of each post, and what a post leaves over is not carried into the next (log entry 84: DESIGN CHOICE). -/
def compressorStep (s : State) : State :=
    match s.raws with
    | [] => s
    | r :: rest =>
      let ch := r.ctx / 128
      let g := r.ctx % 128
      let w := (s.seg ch g).width
      let k := min (min 64 ((s.chan ch).l - 1)) (r.lines - r.done)
      let codes := (r.codes.drop (r.done * w)).take (k * w)
      let bs := compress r.mode w (r.line + r.done) (s.seg ch g).pageLen (r.codes.take (r.done * w)).reverse codes
      let out := r.out ++ bs
      let kib (f : Fld) (old new : Nat) (s : State) : State := s.bump f 0 0 (new / 1024 - old / 1024)
      let s := kib R.cmpOut_KIB r.out.length out.length (kib R.cmpIn_KIB (r.done * w / 2) ((r.done + k) * w / 2) s)
      let s := (s.tally 0x0801 0 codes.length).tally 0x0802 0 bs.length
      let need := roundBurst out.length
      let grow := if need ≤ r.reserved then r.reserved else r.reserved + (need - r.reserved + 65535) / 65536 * 65536
      let others := (s.ringTaken ch).filter fun e => decide (e.1 ≠ r.addr)
      if s.ringFree ch r.addr grow others = false then endRaw r stNoResource [] s
      else if r.done + k < r.lines then
        let r' : RawPost := { r with done := r.done + k, out := out, reserved := grow }
        { s with raws := r' :: rest }
      else
        let sg := s.seg ch g
        let s := endRawPost r out need (if sg.abandoned r.page then s else dramWrite 4 r.addr (fillTo 0 need out) s)
        endRaw r stOk [runwayWord ch g s] s
where
  /-- the finished post -/
  endRawPost (r : RawPost) (out : List Byte) (need : Nat) (s : State) : State :=
    let p : Post := { page := r.page, lines := r.lines, addr := r.addr, len := out.length, ring := need, raw := true, lib := none,
                      pages := 1, index := (s.chan (r.ctx / 128)).postIndex, waits := postWaits r.cmd s }
    addPost (r.ctx / 128) (r.ctx % 128) p s

/-! JOB_DEFINE, RUNWAY. -/

/-- A segment without a job: its definition and mark parameters stand, its stream context is cleared. -/
def SegSt.idle (g : SegSt) : SegSt :=
  { first := g.first, width := g.width, src := g.src, u := g.u, win := g.win, slew := g.slew, missLimit := g.missLimit,
    pageLen := g.pageLen, snapSlot := g.snapSlot, snapGen := g.snapGen }

/-- Every segment idle, the rings free; a raw post under way ends with its job. -/
def clearSegs (s : State) : State :=
  let chans := s.chans.map fun e => (e.1, { e.2 with ringHead := 0, postIndex := 0 })
  let s := { s with segs := s.segs.map (fun e => (e.1, e.2.idle)), chans := chans, stagger := [], redec := [] }
  forEach s.raws s fun r s => endRaw r stWrongState [] s

/-- `CAD_SHIFTLO` and `CAD_SHIFTHI` show the shift of the job in force (R221). -/
def showShift (s : State) : State :=
  let v := wrapInt 64 (match s.job with | some j => j.shift | none => 0)
  (s.put R.cadShiftlo_S (lo32 v)).put R.cadShifthi_S (hi32 v)

def jobDefineRow : OpRow := { op := 0x0401, argw := 4, states := [.ready] }
def jobDefineFail (c : Cmd) (s : State) : Option (Nat × Nat) :=
  let m := cmdNat c 2
  firstFail [(decide (m = 0 ∨ 15 < m ∨ 15 < cmdNat c 3) || (maskList 4 m).any fun ch => !(s.chan ch).configured, (stBadArgument, 0)),
    (s.job.isSome, (stConflict, 0))]
def jobDefineAct (c : Cmd) (s : State) : Reply :=
  { s := showShift (showState ((clearSegs s).setJob (some { id := c.w 1, mask := cmdNat c 2, policy := cmdNat c 3, threshold := cmdNat c 4 }))) }

def runwayRow : OpRow := { op := 0x0409, argw := 2, states := anyState }
def runwayFail (c : Cmd) (_ : State) : Option (Nat × Nat) := if 3 < cmdNat c 1 ∨ 127 < cmdNat c 2 then some (stBadArgument, 0) else none
def runwayAct (c : Cmd) (s : State) : Reply :=
  { s := s, words := [runwayWord (cmdNat c 1) (cmdNat c 2) s, (s.seg (cmdNat c 1) (cmdNat c 2)).nextPage] }

/-! Starting and stopping (R98, R100, R109, R220, R221). -/

/-- The largest lookahead of the job's channels. -/
def State.lookahead (s : State) : Nat :=
  match s.job with | some j => listMax ((maskList 4 j.mask).map fun c => (s.chan c).l) | none => 0

/-- A fire line of a command: 64 bits, two's complement. -/
def cmdLine (c : Cmd) (n : Nat) : Int := signed 64 (cmdDword c n)

/-- The job's origin becomes known: every segment takes its first line (R109, R110, R225), and a commit that waits for a
first boundary takes it (R199). -/
def setOrigin (y0 : Int) (s : State) : State :=
  match s.job with
  | none => s
  | some j =>
    let s := s.setJob (some { j with y0 := some y0 })
    let last := y0 + j.jc.getD 0 - 1
    let sides := (maskList 4 j.mask).flatMap fun c => [((c, 0), last), ((c, 1), last)]
    let s := s.setFab { s.fab with edgeSent := sides, edgeUsed := [] }
    forEach s.jobSegs s fun e s =>
      let sg := s.seg e.1 e.2
      let (page, start, line, dec, bs) := sg.home
      let sg := { sg with page := page, pageStart := y0 + start, y := y0 + line, dec := dec, blockStart := bs }
      let sg := { sg with started := decide (line ≠ start), gave := [], under := none, ends := [], lines := [], blanks := [] }
      let sg := { sg with late := [], lateSeen := [], halted := [], fetched := [], fetchErr := [], deltas := [], fixPage := page, accepted := none, miss := 0, suppressed := false, lost := [] }
      let sg := { sg with ye := if sg.src = 0 then none else some (y0 + start + sg.pageLen) }
      boundaryKnown e.1 e.2 (y0 + start) (s.setSeg e.1 e.2 sg)

/-- The segment whose mark offset a start on `MARK0` uses (R229). -/
def State.markSeg (s : State) : Option (Nat × Nat) :=
  s.jobSegs.find? fun e => decide ((s.seg e.1 e.2).src = 1)

def jobStartRow : OpRow := { op := 0x0404, argw := 3, states := [.armed] }
def jobStartFail (c : Cmd) (s : State) : Option (Nat × Nat) :=
  if 1 < cmdNat c 3 ∨ cmdLine c 1 < s.fire + s.lookahead + 2 ∨ (cmdNat c 3 = 1 ∧ s.markSeg = none) then some (stBadArgument, 0) else none
def jobStartAct (c : Cmd) (s : State) : Reply :=
  match s.job with
  | none => { s := s }
  | some j =>
    let f := cmdLine c 1
    let j := { j with startAt := some (f, decide (cmdNat c 3 = 1)), y0 := none, startLine := none, shift := 0, fired := false, ledgerPause := false }
    let j := { j with haltAt := none, haltRecs := [], pauseAt := none, abortAt := none, resumeAt := none, stoppedAt := f }
    let s := showShift { s with job := some j, stagger := [] }
    { s := if cmdNat c 3 = 0 then setOrigin (f - j.jc.getD 0) s else s }

def jobPauseRow : OpRow := { op := 0x0405, argw := 2, states := [.printing, .paused] }
def jobPauseAct (c : Cmd) (s : State) : Reply :=
  match s.job with
  | none => { s := s }
  | some j =>
    if s.dev = .paused then { s := s, words := twoWords (wrapInt 64 j.stoppedAt) }
    else
      let f := if cmdDword c 1 = 2 ^ 64 - 1 then s.fire + 1 else max (s.fire + 1) (cmdLine c 1)
      let f := match j.pauseAt with | some g => min f g | none => f
      let stop := match j.haltAt with | some (g, _) => min f g | none => f
      { s := s.setJob (some { j with pauseAt := some f }), words := twoWords (wrapInt 64 stop) }

def jobResumeRow : OpRow := { op := 0x0406, argw := 2, states := [.paused] }
def jobResumeFail (c : Cmd) (s : State) : Option (Nat × Nat) :=
  if cmdLine c 1 < s.fire + s.lookahead + 2 then some (stBadArgument, 0) else none

/-- Ports of a mask that the ridge firmware grants: those not tripped (R377). -/
def State.grantable (s : State) (m : Nat) : Nat :=
  ((List.range 16).filter fun p => bitOf m p && !s.flag R.rdgPstat_TRIP p).foldl (fun a p => a + 2 ^ p) 0

/-- Halts that a pause before their line left to come stand, but for underruns, which are tested afresh (R127, R128, R166). -/
def jobResumeAct (c : Cmd) (s : State) : Reply :=
  match s.job with
  | none => { s := s }
  | some j =>
    let tested (r : Nat × Nat × Nat × Int × Int) : Bool := decide (r.2.2.1 = 2) && (s.seg (r.1 / 4) r.2.1).under.isSome
    let s := s.setJob (some (({ j with resumeAt := some (cmdLine c 1), haltRecs := j.haltRecs.filter fun r => !tested r, pauseAt := none }).rehalt))
    let s := forEach s.jobSegs s fun e s =>
      let g := s.seg e.1 e.2
      let told (x : Nat × Int) : Bool := match g.under with
        | some u => decide (x.2 < u) || !j.haltRecs.any fun r => decide (r.1 = x.1 ∧ r.2.1 = e.2 ∧ r.2.2.1 = 2)
        | none => true
      s.setSeg e.1 e.2 { g with under := none, halted := g.halted.filter told }
    { s := setGrant (s.get R.rdgHpen_GRANT ||| s.grantable j.ports) s }

/-- The job ends or is aborted: ports are disarmed, grants dropped, the rings freed; a device that was ARMED, PRINTING or
PAUSED becomes READY (R98, R122, R129, R377, R469). -/
def unloadJob (cause : Nat) (s : State) : State :=
  let s := disarmPorts s
  let mask := (s.job.map Job.mask).getD 0
  let s := { clearSegs s with job := none, kept := s.kept.filter fun e => !bitOf mask (e.1 / 128) }
  let s := s.setFab { s.fab with edgeIn := [], edgeUsed := [] }
  let s := forEach (List.range 4) s fun ch s => s.setChan ch { s.chan ch with prev := [] }
  let s := closeRuns (fun _ => true) false (showShift (showState s))
  if s.dev = .ready then s else setDev .ready cause s

def jobAbortRow : OpRow := { op := 0x0407, argw := 1, states := activeStates, needsJob := true }
def namesJob (c : Cmd) (s : State) : Bool := match s.job with | some j => decide (j.id = c.w 1) | none => false
def jobAbortFail (c : Cmd) (s : State) : Option (Nat × Nat) := if namesJob c s then none else some (stBadArgument, 0)
def jobAbortAct (_ : Cmd) (s : State) : Reply :=
  match s.job with
  | some j => if s.dev = .printing then { s := s.setJob (some { j with abortAt := some (s.fire + 1) }) } else { s := unloadJob 0 s }
  | none => { s := s }

/-- ARMED ends without a start: a pending start is cancelled, the ports are disarmed (R98). -/
def cancelStart (s : State) : State :=
  match s.job with
  | some j => s.setJob (some { j with startAt := none, startLine := none, y0 := none })
  | none => s

def jobDisarmRow : OpRow := { op := 0x0408, argw := 0, states := [.armed] }
def jobDisarmAct (_ : Cmd) (s : State) : Reply := { s := setDev .ready 0 (disarmPorts (cancelStart s)) }

/-! The repeat library (R123, R124). -/

/-- An entry is referred to by a post whose pages are not all freed, those kept over a reset among them (R124, R131). -/
def State.libUsed (s : State) (e : Nat) : Bool :=
  (s.segs.any fun x => x.2.posts.any fun p => decide (p.lib = some e)) || s.kept.any fun x => x.2.posts.any fun p => decide (p.lib = some e)

/-- The lowest place of the library region that holds `n` bytes beside the entries but `skip`. -/
def State.libPlace (s : State) (skip n : Nat) : Option Nat :=
  let spans := (s.lib.filter fun e => decide (e.1 ≠ skip)).map fun e => (e.2.addr, roundBurst (16 + e.2.streamLen))
  let free (a : Nat) : Bool := decide (s.regionBase 9 ≤ a ∧ a + n ≤ s.regionBase 9 + (s.regions.getD 9 (0, 0, 0)).2.1)
    && spans.all fun x => decide (a + n ≤ x.1 ∨ x.1 + x.2 ≤ a)
  (s.regionBase 9 :: spans.map fun x => x.1 + x.2).foldl (fun m a => if free a then some (match m with | some b => min a b | none => a) else m) none

def libEntry (c : Cmd) : Nat := cmdNat c 1 % 4096
def libAppend (c : Cmd) : Bool := bitOf (cmdNat c 1) 31
/-- The header of a restarted entry is legal (R123). -/
def libHeaderOk (h : List Byte) (n : Nat) : Bool :=
  let w := fieldAt h 0 4
  decide (16 ≤ n ∧ w % 64 = 0 ∧ 64 ≤ w ∧ w ≤ 4096 ∧ 1 ≤ fieldAt h 4 4 ∧ fieldAt h 4 4 ≤ 16777215 ∧ 1 ≤ fieldAt h 8 4
    ∧ fieldAt h 8 4 ≤ 1073741824 ∧ fieldAt h 12 4 = 0 ∧ n - 16 ≤ fieldAt h 8 4)

def libStoreRow : OpRow := { op := 0x040A, argw := 5, states := activeStates }
def libStoreFail (c : Cmd) (s : State) : Option (Nat × Nat) :=
  let e := libEntry c
  let n := cmdNat c 4
  let delete := !libAppend c && decide (n = 0)
  let badAppend : Bool := match s.lib.lookup e with | some x => decide (x.streamLen < x.stored + n) | none => true
  if cmdNat c 1 / 4096 % 2 ^ 19 ≠ 0 ∨ (libAppend c ∧ badAppend) then some (stBadArgument, 0)
  else if delete then firstFail [(queueBusy c s, (stBusy, 0)), (s.libUsed e, (stConflict, 0))]
  else match stagingArea (cmdDword c 2) n s with
  | none => some (stBadArgument, 0)
  | some i =>
    firstFail [(queueBusy c s, (stBusy, 0)), (!ownsStaging c i s || areaHeld c i s, (stConflict, 0)),
      (!libAppend c && s.libUsed e, (stConflict, 0)), (needsDram (cmdDword c 2) s, (stNoResource, 0))]

/-- The command is accepted. The header of a restarted entry is read by then: R123 gives neither the status of an illegal one nor the
instant of its test; the model answers BAD_ARGUMENT in the response (DESIGN CHOICE, log entry 126), and INTEGRITY where the read ends in a
bus error (R334). -/
def libStoreAct (c : Cmd) (s : State) : Reply :=
  let area := match stagingArea (cmdDword c 2) (cmdNat c 4) s with | some i => i + 1 | none => 0
  let open_ (s : State) : Reply := { s := openE 0x040A c [libEntry c, if cmdNat c 4 = 0 then 0 else area] s }
  if libAppend c ∨ cmdNat c 4 = 0 then open_ s
  else
    let r := dramRead 7 (addrIn (cmdDword c 2)) 16 s
    match r.1 with
    | none => { status := stIntegrity, s := r.2 }
    | some h =>
      if libHeaderOk h (cmdNat c 4) = false then { status := stBadArgument, s := r.2 }
      else if (s.libPlace (libEntry c) (16 + fieldAt h 8 4)).isNone then { status := stNoResource, s := r.2 }
      else open_ r.2

/-- Data copied to its target at `a` and read back through CRC unit 3: the state with it if its check is `crc`, else that with the target as
it was (R105). -/
def storeChecked (a : Nat) (bs : List Byte) (crc : Word) (s : State) : Bool × State :=
  let r := dramRead 7 a bs.length (dramWrite 7 a bs s)
  match r.1 with
  | some w => if crc32c w = crc then (true, r.2) else (false, restored r.2)
  | none => (false, restored r.2)
where
  /-- the target's previous contents -/
  restored (s' : State) : State := { s' with mem := s.mem, chk := s.chk, dram := { s'.dram with queues := s.dram.queues } }

/-- An entry of the library replaced. -/
def setLib (e : Nat) (x : Option LibEntry) (s : State) : State :=
  let l := s.lib.filter fun y => decide (y.1 ≠ e)
  { s with lib := match x with | some v => mapInsert natLt e v l | none => l }

/-- The staged data becomes part of the entry if its check agrees (R105, R123). -/
def execLibStoreDone (t : Nat) (q : Queue) (s : State) : Result :=
  completion t 0x040A q s fun o s =>
    let c := o.cmd
    let e := libEntry c
    let n := cmdNat c 4
    if libAppend c = false ∧ s.libUsed e then finish o stConflict 0 [] s
    else if libAppend c = false ∧ n = 0 then finish o stOk 0 [] (setLib e none s)
    else if o.lockLost then finish o stConflict 0 [] s
    else
      let r := dmaFetch (cmdDword c 2) n s
      match r.1 with
      | .bytes bs =>
        match claimUnit3 o r.2 with
        | .wait s => s
        | .refused s => finish o stConflict 0 [] s
        | .ok s =>
          let store (a : Nat) (x : LibEntry) : State :=
            let w := storeChecked a bs (c.w 5) s
            if w.1 then finish o stOk 0 [] (setLib e (some x) w.2) else finish o stIntegrity 0 [] w.2
          if libAppend c then
            match s.lib.lookup e with
            | some x => if x.streamLen < x.stored + n then finish o stBadArgument 0 [] s
                else store (x.addr + 16 + x.stored) { x with stored := x.stored + n }
            | none => finish o stBadArgument 0 [] s
          else if crc32c bs ≠ c.w 5 then finish o stIntegrity 0 [] s
          else
            match s.libPlace e (16 + fieldAt bs 8 4) with
            | some a => store a { width := fieldAt bs 0 4, lines := fieldAt bs 4 4, streamLen := fieldAt bs 8 4, stored := n - 16, addr := a }
            | none => finish o stNoResource 0 [] s
      | _ => finish o stIntegrity 0 [] r.2

/-! JOB_RESTORE (R131, R171). -/

/-- A snapshot slot that is valid: its check, and a decoder state that loads, for the width that the record names, in pages of the
segment's length (R110, R130, R157). -/
def snapValid (pageLen : Nat) (bs : List Byte) : Bool :=
  decide (bs.length = 0x4000 ∧ fieldAt bs 0 4 = 0x534E4150 ∧ fieldAt bs 0x3FFC 4 = (crc32c (bs.take 0x3FFC)).toNat)
    && savedOk (fieldAt bs 0xC 2) pageLen ((bs.drop 0x80).take 12416)

/-- The snapshot of a segment that `JOB_RESTORE` selects: slot and record; with the accesses made. -/
def selectSnap (ch g which : Nat) (s : State) : Option (Nat × List Byte) × State :=
  let a := dramRead ch (s.snapBase ch g) 0x4000 s
  let b := dramRead ch (s.snapBase ch g + 0x4000) 0x4000 a.2
  let n := (s.seg ch g).pageLen
  let ok (r : Option (List Byte)) (i : Nat) : List (Nat × List Byte) :=
    match r with | some bs => if snapValid n bs then [(i, bs)] else [] | none => []
  (match ok a.1 0 ++ ok b.1 1 with
   | [x] => if which = 0 then some x else none
   | [x, y] => let newer := decide (fieldAt x.2 0x14 4 ≤ fieldAt y.2 0x14 4)
               some (if newer = decide (which = 0) then y else x)
   | _ => none, b.2)

/-- A segment's posts and posting position in the ring's post index: those kept over the reset, or its own (R131). -/
def State.keptOf (s : State) (ch g : Nat) : Kept :=
  let sg := s.seg ch g
  (s.kept.lookup (segKey ch g)).getD { posts := sg.posts, postPage := sg.postPage, postLines := sg.postLines, endPage := sg.endPage }

def jobRestoreRow : OpRow := { op := 0x040B, argw := 2, states := [.ready], needsJob := true }
def jobRestoreFail (c : Cmd) (s : State) : Option (Nat × Nat) :=
  if namesJob c s = false ∨ 1 < cmdNat c 2 then some (stBadArgument, 0)
  else firstFail [(queueBusy c s, (stBusy, 0)), (s.fw.opens.any fun o => decide (o.cmd.q ≠ c.q ∧ o.op = 0x040B), (stConflict, 0))]

/-- The snapshots that the command selects, by segment, with the reads made. -/
def readSnaps (which : Nat) (s : State) : List ((Nat × Nat) × Option (Nat × List Byte)) × State :=
  s.jobSegs.foldl (fun acc e => let r := selectSnap e.1 e.2 which acc.2; (acc.1 ++ [(e, r.1)], r.2)) ([], s)

/-- What R131 tests of the selected snapshots: one that is missing, or whose page is no longer in the ring; one of another job, first column
or width. -/
def snapsFail (c : Cmd) (snaps : List ((Nat × Nat) × Option (Nat × List Byte))) (s : State) : Option Nat :=
  let gone (e : (Nat × Nat) × Option (Nat × List Byte)) : Bool :=
    match e.2 with
    | none => true
    | some (_, bs) => decide (fieldAt bs 0x30 4 ≠ 0xFFFFFFFF) &&
        (({ posts := (s.keptOf e.1.1 e.1.2).posts } : SegSt).postAt (fieldAt bs 0x10 4) 0).isNone
  let differs (e : (Nat × Nat) × Option (Nat × List Byte)) : Bool :=
    match e.2 with
    | none => false
    | some (_, bs) => decide (fieldAt bs 4 4 ≠ (c.w 1).toNat ∨ fieldAt bs 0xA 2 ≠ (s.seg e.1.1 e.1.2).first
        ∨ fieldAt bs 0xC 2 ≠ (s.seg e.1.1 e.1.2).width)
  firstFail [(snaps.any gone, stNoResource), (snaps.any differs, stBadArgument)]
def jobRestoreAct (c : Cmd) (s : State) : Reply :=
  let r := readSnaps (cmdNat c 2) s
  match snapsFail c r.1 r.2 with
  | some st => { status := st, s := r.2 }
  | none => { s := openE 0x040B c [0x100, 0] r.2 }

/-- The decoder state of a saved one; within a block, SPAN and LENGTH are read again from the block's header (R156, R157). -/
def loadState (w : Nat) (bs : List Byte) (s : State) : DecSt × State :=
  let d := loadSaved w bs
  if d.inBlock then
    let r := dramRead 7 d.blockAddr 8 s
    (match r.1 with | some h => d.inSpan w (fieldAt h 2 2) (fieldAt h 4 4) | none => d, r.2)
  else (d, s)

/-- One segment loaded from its snapshot and its kept posts; job lines stand for image lines. -/
def loadSnap (ch g which : Nat) (s : State) : State :=
  let r := selectSnap ch g which s
  match r.1 with
  | none => r.2
  | some (slot, bs) =>
    let k := r.2.keptOf ch g
    let sg := (r.2.seg ch g).idle
    let line := signed 64 (fieldAt bs 0x18 8)
    let d := loadState sg.width ((bs.drop 0x80).take 12416) r.2
    let sg := { sg with posts := k.posts, postPage := k.postPage, postLines := k.postLines, endPage := k.endPage, page := fieldAt bs 0x10 4,
                        pageStart := line, y := line + d.1.line, shiftAcc := signed 32 (fieldAt bs 0x38 4), started := true,
                        dec := d.1, blockStart := d.1, snapSlot := 1 - slot, snapGen := fieldAt bs 0x14 4 }
    let x := d.2.chan ch
    let head := k.posts.foldl (fun (m : Nat × Nat) p => if p.lib.isNone ∧ m.1 ≤ p.index + 1 then (p.index + 1, p.addr + p.ring) else m)
      (x.postIndex, x.ringHead)
    (d.2.setSeg ch g sg).setChan ch { x with postIndex := listMax (head.1 :: k.posts.map fun p => p.index + 1), ringHead := head.2 }

/-- Lines decoded and discarded up to job line `jc`. -/
def decodeTo : Nat → Nat → Nat → Int → State → State
  | 0, _, _, _, s => s
  | fuel + 1, ch, g, jc, s =>
    if jc ≤ (s.seg ch g).y ∨ (s.seg ch g).ends.any (fun e => decide (e.name ≠ 0 ∨ e.codesCrc ≠ e.carried)) then s
    else
      let s := (decodeSegLine ch g s).1
      decodeTo fuel ch g jc (s.setSeg ch g { s.seg ch g with lines := [], ends := (s.seg ch g).ends.filter fun e => decide (e.name ≠ 0 ∨ e.codesCrc ≠ e.carried) })

/-- Snapshots are loaded and decoded forward to *j_c*; a block fault on the way ends the command with INTEGRITY, and its
record names the block. Posted data that does not reach *j_c* ends it with NO_RESOURCE, for which R131 and R171 name no status (DESIGN
CHOICE, log entry 127). The configuration that the snapshots must fit is the one at this instant (R131, R157). -/
def execJobRestoreDone (t : Nat) (q : Queue) (s : State) : Result :=
  completion t 0x040B q s fun o s =>
    let x := readSnaps (cmdNat o.cmd 2) s
    match snapsFail o.cmd x.1 x.2 with
    | some st => finish o st 0 [] x.2
    | none => restoreTo o x.2
where
  /-- the decode forward, for snapshots that fit -/
  restoreTo (o : OpenCmd) (s : State) : State :=
    let segs := s.jobSegs
    let s0 := s
    let s := forEach segs s fun e s => loadSnap e.1 e.2 (cmdNat o.cmd 2) s
    let jc := segs.foldl (fun (m : Int) e => max m (s.seg e.1 e.2).y) ((segs.head?.map fun e => (s.seg e.1 e.2).y).getD 0)
    let s := forEach segs s fun e s => decodeTo ((jc - (s.seg e.1 e.2).y).toNat + 1) e.1 e.2 jc s
    let faulty := segs.filter fun e => !(s.seg e.1 e.2).ends.isEmpty
    let undo (s : State) : State := { s with segs := s0.segs, chans := s0.chans }
    if faulty ≠ [] then
      let s := forEach faulty s fun e s =>
        match (s.seg e.1 e.2).ends with
        | b :: _ => allocRecord e.1 e.2 b (raise 8 e.1 (some b.addr) 0 false (s.bump R.chBfstat_FAULTS e.1))
        | [] => s
      finish o stIntegrity 0 [] (undo s)
    else if s.job = none then finish o stWrongState 0 [] (undo s)
    else if segs.any fun e => decide ((s.seg e.1 e.2).y ≠ jc) then finish o stNoResource 0 [] (undo s)
    else
      let s := forEach segs s fun e s =>
        let sg := s.seg e.1 e.2
        s.setSeg e.1 e.2 { sg with home := (sg.page, sg.pageStart, jc, sg.dec, sg.blockStart) }
      let s := match s.job with | some j => s.setJob (some { j with jc := some jc, shift := 0 }) | none => s
      finish o stOk 0 (twoWords (wrapInt 64 jc)) (showShift { s with kept := s.kept.filter fun e => !segs.contains (e.1 / 128, e.1 % 128) })

def noOwnFail (_ : Cmd) (_ : State) : Option (Nat × Nat) := none

def execJobDefine (t : Nat) (c : Cmd) (s : State) : Result := command t c s (runCommand jobDefineRow jobDefineFail jobDefineAct)
def execJobPost (t : Nat) (c : Cmd) (s : State) : Result := command t c s (runCommand jobPostRow jobPostFail jobPostAct)
def execRunway (t : Nat) (c : Cmd) (s : State) : Result := command t c s (runCommand runwayRow runwayFail runwayAct)
def execJobStart (t : Nat) (c : Cmd) (s : State) : Result := command t c s (runCommand jobStartRow jobStartFail jobStartAct)
def execJobPause (t : Nat) (c : Cmd) (s : State) : Result := command t c s (runCommand jobPauseRow noOwnFail jobPauseAct)
def execJobResume (t : Nat) (c : Cmd) (s : State) : Result := command t c s (runCommand jobResumeRow jobResumeFail jobResumeAct)
def execJobAbort (t : Nat) (c : Cmd) (s : State) : Result := command t c s (runCommand jobAbortRow jobAbortFail jobAbortAct)
def execJobDisarm (t : Nat) (c : Cmd) (s : State) : Result := command t c s (runCommand jobDisarmRow noOwnFail jobDisarmAct)
def execLibStore (t : Nat) (c : Cmd) (s : State) : Result := command t c s (runCommand libStoreRow libStoreFail libStoreAct)
def execJobRestore (t : Nat) (c : Cmd) (s : State) : Result := command t c s (runCommand jobRestoreRow jobRestoreFail jobRestoreAct)

end Sys2Proof.Machine
end

