-- ==== Sys2Proof/Machine/Sense.lean ====
section
/-!
DEFINITION. Sense conversions and their values (R405 to R408), path trims (R409, R410), delay lines (R411, R412),
shadows and the commit (R413 to R415), and the calibration commands (R416, R417).
-/
namespace Sys2Proof.Machine

/-! Values (R406, R407). -/

/-- Conversions kept of an input or reference, newest first. -/
def State.convs (s : State) (i : Nat) : List Nat := mapGet [] s.conv i

/-- The filtered code of an input: the floor of the mean of its latest 16 conversions; none before there are 16
(log entry 20). -/
def State.filtered (s : State) (i : Nat) : Option Nat :=
  if (s.convs i).length < 16 then none else some ((s.convs i).sum / 16)

/-- The latest conversion of the input is out of range (R406). -/
def State.outOfRange (s : State) (i : Nat) : Bool :=
  match s.convs i with | c :: _ => decide (c = 0 ∨ c = 16383) | [] => false

/-- A configuration register of the sense block as the latest width computation took it (R415). -/
def State.snsReg (s : State) (r : RegId) : Word := mapGet (regReset r) s.snsCfg r
def State.snsGet (s : State) (f : Fld) (i j : Nat := 0) : Nat := fieldOf (s.snsReg ⟨f.k, i, j⟩) f.lo f.w

/-- Millivolts of a code through a divider in 1/256. -/
def milliVolts (c ratio : Nat) : Nat := c * 1500 * ratio / 4194304

/-- Codes that strictly rise. -/
def rising : List Nat → Bool
  | a :: b :: r => decide (a < b) && rising (b :: r)
  | _ => true

/-- A thermistor table: 16 pairs of code and temperature. -/
def State.thTable (s : State) (t : Nat) : List (Nat × Int) :=
  (List.range 16).map fun i => (s.snsGet R.snsThtab_CODE t i, signed 16 (s.snsGet R.snsThtab_TEMP t i))

/-- Interpolation in the lowest interval that holds the code. -/
def interpolate (c : Nat) : List (Nat × Int) → Option Int
  | a :: b :: r =>
    if (a.1 ≤ c ∧ c ≤ b.1) ∨ (b.1 ≤ c ∧ c ≤ a.1) then
      some (a.2 + Int.fdiv ((b.2 - a.2) * ((c : Int) - a.1)) ((b.1 : Int) - a.1))
    else interpolate c (b :: r)
  | _ => none

/-- The temperature of a code through a table; none where it is invalid. -/
def thermistor (tab : List (Nat × Int)) (c : Nat) : Option Int :=
  let codes := tab.map (·.1)
  if rising codes ∨ rising codes.reverse then interpolate c tab else none

/-- The temperature of `HTS<p>`, if it is valid. -/
def State.thermistorOf (s : State) (p : Nat) : Option Int :=
  match s.filtered p with
  | some c => if s.outOfRange p then none else thermistor (s.thTable (s.snsGet R.snsPortcfg_TAB p)) c
  | none => none

/-- The supply at `HVS<p>` in mV (R253). -/
def State.supplyOf (s : State) (p : Nat) : Nat := milliVolts ((s.filtered (16 + p)).getD 0) (s.snsGet R.snsPortcfg_RATIO p)

/-- A die sensor's reading of a code. -/
def dieReading (c : Nat) (trim : Int) : Int := ((c * 3200 / 16384 : Nat) : Int) - 1040 + trim

/-- The value reported for an input with filtered code `c` (R407); none where it is invalid. -/
def State.inputValue (s : State) (i c : Nat) : Option Int :=
  if i < 16 then s.thermistorOf i
  else if i < 32 then some (milliVolts c (s.snsGet R.snsPortcfg_RATIO (i - 16)))
  else if i < 40 then some (dieReading c (signed 16 (s.get R.snsDietrim_TRIM (i - 32))))
  else some (milliVolts c (if i = 45 ∨ i = 46 then 512 else 256))

/-! Flags of the sense block: `n` for an excursion of input `n`, 64 + path for an OFFSET and 200 + path for a GAIN at its end, 100 + sensor for a
die temperature error. -/

def State.snsFlag (s : State) (n : Nat) : Bool := s.snsFlags.contains n
def setSnsFlag (n : Nat) (on : Bool) (s : State) : State :=
  { s with snsFlags := (if on then [n] else []) ++ s.snsFlags.filter (fun m => decide (m ≠ n)) }

/-- `SNS_IN<i>` shows the input's code and value. The spec gives no VALUE to an invalid input: it is a free value. -/
def showInput (i : Nat) (s : State) : State :=
  let s := s.put R.snsIn_RANGE (b2n (s.outOfRange i)) i
  match s.filtered i with
  | none => s
  | some c =>
    let s := s.put R.snsIn_CODE c i
    match s.inputValue i c with
    | some v => (s.put R.snsIn_VALUE (wrapInt 16 v) i).put R.snsIn_INVALID 0 i
    | none => (s.drawn.put R.snsIn_VALUE (Config.freeNat s.freeCount) i).put R.snsIn_INVALID 1 i

/-- The range error: raised once per excursion (R406). -/
def rangeError (i : Nat) (inj : Bool) (s : State) : State :=
  let out := s.outOfRange i
  let was := s.snsFlag i
  let s := setSnsFlag i out s
  let any := (List.range 48).any s.snsFlag
  let s := s.put R.snsStat_RANGE (b2n any)
  if out ∧ was = false then raise 60 i none 0 inj s else s

/-- Readings of the die sensors. -/
def State.dieReadings (s : State) : List Int :=
  (List.range 8).filterMap fun d => (s.filtered (32 + d)).map fun _ => signed 16 (s.get R.snsIn_VALUE (32 + d))

/-- The die temperature error: raised once per rise, cleared below 106 degrees (R408). -/
def dieError (d : Nat) (inj : Bool) (s : State) : State :=
  let v := signed 16 (s.get R.snsIn_VALUE (32 + d))
  let s := match s.dieReadings with
    | [] => s
    | a :: r => s.put R.snsStat_DIEMAX (wrapInt 16 (r.foldl max a))
  if 1760 ≤ v then (if s.snsFlag (100 + d) then s else raise 62 d none 0 inj (setSnsFlag (100 + d) true s))
  else if v < 1696 then setSnsFlag (100 + d) false s else s

/-- An input's conversion (R405, R406, R408). -/
def convertInput (i code : Nat) (s : State) : State :=
  let m := meets 60 i false s
  let s := m.2.2
  let code := if m.1 then 16383 else code
  let s := { s with conv := nset [] s.conv i ((code :: s.convs i).take 16) }
  let s := showInput i (rangeError i m.2.1 s)
  if i < 32 ∨ 40 ≤ i ∨ (s.filtered i).isNone then s
  else
    let m := meets 62 (i - 32) false s
    let s := m.2.2
    dieError (i - 32) m.2.1 (if m.1 then s.put R.snsIn_VALUE 1760 i else s)

/-! Steps that wait for a line boundary: keys 2·path for OFFSET, 2·path + 1 for GAIN, 64 + strobe for TAPS; each with
its value and instant. -/

def pend (k v : Nat) (s : State) : State :=
  { s with sensePend := nset (0, 0) s.sensePend k (v + 1, match s.sensePend.lookup k with | some e => e.2 | none => s.now) }

/-- The flag of a trim that stands at the end of its range. -/
def endFlag (path : Nat) (gain : Bool) : Nat := (if gain then 200 else 64) + path

/-- A step of a trim by `d` towards its target; a trim at the end of its range does not move, and the error is raised once for its path until it
moves again (R410). -/
def stepTrim (path : Nat) (gain : Bool) (d : Int) (s : State) : State :=
  if d = 0 then s
  else
    let v : Int := if gain then s.get R.snsTrim_GAIN path else signed 8 (s.get R.snsTrim_OFFSET path)
    let lo : Int := if gain then 0 else -128
    let hi : Int := if gain then 255 else 127
    if lo ≤ v + d ∧ v + d ≤ hi then setSnsFlag (endFlag path gain) false (pend (2 * path + b2n gain) (wrapInt 8 (v + d)) s)
    else
      let raised := s.snsFlag (endFlag path true) || s.snsFlag (endFlag path false)
      let s := setSnsFlag (endFlag path gain) true s
      if raised then s else raise 61 path none 0 false s

/-- The direction towards a target that a value misses by more than 1. -/
def towards (target v : Int) : Int := if v + 1 < target then 1 else if target + 1 < v then -1 else 0

/-- A reference conversion of a path (R409); after the high one of a pair the tracker steps (R410). -/
def convertReference (path : Nat) (low : Bool) (code : Nat) (s : State) : State :=
  if low then { s with refConv := nset [] s.refConv path [code] }
  else
    match mapGet [] s.refConv path with
    | [l] =>
      let s := { s with refConv := nset [] s.refConv path [] }
      if s.flag R.snsCtrl_TRKADC = false ∨ s.flag R.snsStat_CALRUN = true then s
      else stepTrim path true (towards 14200 ((code : Int) - l)) (stepTrim path false (towards 1092 l) s)
    | _ => s

/-- The slot's one conversion: scan frames of 32 µs, of 64 slots of 500 ns, are those of device time (R405; log entry 21). -/
def execSenseConversion (t : Nat) (slot : Fin 64) (code : BitVec 14) (s : State) : Result :=
  live t s fun s =>
    let f := s.now / 32000000
    let n := s.now / 500000
    if n % 64 ≠ slot.val ∨ n < s.convSlot then s
    else
    let s := { s with convSlot := n + 1 }
    if slot.val < 48 then convertInput slot code.toNat s
    else convertReference (slot.val - 48 + 16 * (f % 2)) (decide (f / 2 % 2 = 0)) code.toNat s

/-! Delay lines (R411, R412). -/

/-- One line's measurement: used if two consecutive ones agree. -/
def measureLine (x m : Nat) (s : State) : State :=
  let e := meets 63 x false s
  let s := e.2.2
  let m := if e.1 then 0 else m
  let last := mapGet 0 s.dlyMeas x
  if m < 100 ∨ 166 < m then
    raise 63 x none 0 e.2.1 (({ s with dlyMeas := nset 0 s.dlyMeas x 0 }).put R.snsStat_DLYERR 1)
  else
    let s := { s with dlyMeas := nset 0 s.dlyMeas x m }
    if s.flag R.snsCtrl_TRKDLY ∧ last = m then pend (64 + x) ((m + 1) / 2) s else s

/-! Shadows and commit (R413 to R415). -/

/-- A write of 1 to `SNS_CTRL.COMMIT`. -/
def requestCommit (s : State) : State :=
  if s.flag R.snsCtrl_COMMIT then s else { s.put R.snsCtrl_COMMIT 1 with commitAt := some s.now }

def execSenseCommit (t : Nat) (m : Master) (s : State) : Result :=
  liveWrite m t s fun s => gated 13 0x280000 m s requestCommit

/-- Whether a request made at `t0` meets a line boundary now: a line start, or 100 µs after it (R414). -/
def State.boundaryFor (s : State) (t0 : Nat) : Bool :=
  decide (s.cad.prevStart = some s.now ∨ t0 + 100000000 ≤ s.now)

/-- Every shadow is copied to its live field. -/
def copyShadows (s : State) : State :=
  let s := forEach (List.range 32) s fun j s =>
    (s.put R.snsTrim_GAIN (s.get R.snsTrim_GAINSH j) j).put R.snsTrim_OFFSET (s.get R.snsTrim_OFFSETSH j) j
  let s := forEach (List.range 64) s fun x s =>
    (s.put R.snsDly_TAPS (s.get R.snsDly_TAPSSH x) x).put R.snsDly_SKEW (s.get R.snsDly_SKEWSH x) x
  forEach (List.range 8) s fun d s => s.put R.snsDietrim_TRIM (s.get R.snsDietrim_TRIMSH d) d

/-- A tracker step is written to the shadow and the live field together. -/
def applyStep (k v : Nat) (s : State) : State :=
  if 64 ≤ k then (s.put R.snsDly_TAPS v (k - 64)).put R.snsDly_TAPSSH v (k - 64)
  else if k % 2 = 1 then (s.put R.snsTrim_GAIN v (k / 2)).put R.snsTrim_GAINSH v (k / 2)
  else (s.put R.snsTrim_OFFSET v (k / 2)).put R.snsTrim_OFFSETSH v (k / 2)

/-- What a commit does at its boundary: the tracker steps of the same boundary are discarded. -/
def commitNow (s : State) : State := { (copyShadows s).put R.snsCtrl_COMMIT 0 with commitAt := none, sensePend := [] }

/-- A line boundary of the sense block. A commit requested while `CAL_RUN` runs waits for it (R415). -/
def execSenseCommitApply (t : Nat) (s : State) : Result :=
  live t s fun s =>
    let due := match s.commitAt with | some t0 => s.boundaryFor t0 && !s.flag R.snsStat_CALRUN | none => false
    if due then commitNow s
    else
      let now := s.sensePend.filter fun e => s.boundaryFor e.2.2
      let s := forEach now s fun e s => applyStep e.1 (e.2.1 - 1) s
      { s with sensePend := s.sensePend.filter fun e => !now.contains e }

/-! Commands. -/

/-- The registers that a calibration record saves, in order. -/
def calRegs : List RegId :=
  (List.range 32).map (fun j => ⟨.snsTrim, j, 0⟩) ++ (List.range 64).map (fun j => ⟨.snsDly, j, 0⟩)
    ++ (List.range 8).map (fun j => ⟨.snsDietrim, j, 0⟩) ++ (List.range 16).map (fun j => ⟨.snsPortcfg, j, 0⟩)
    ++ (List.range 32).map (fun i => ⟨.snsThtab, i / 16, i % 16⟩)

/-- The calibration record, 676 bytes (R417). -/
def calRecord (s : State) : List Byte :=
  let b := leBytes 4 0x4C414353 ++ leBytes 2 1 ++ leBytes 2 0
    ++ leBytes 8 (s.get R.glbUid1_UID_HI * 2 ^ 32 + s.get R.glbUid0_UID_LO) ++ leBytes 48 0
    ++ calRegs.flatMap fun r => wordBytes (s.reg r)
  b ++ wordBytes (crc32c b)

/-- MAGIC and FORMAT are correct. -/
def calNamed (b : List Byte) : Bool := decide (fieldAt b 0 4 = 0x4C414353 ∧ fieldAt b 4 2 = 1)

/-- The record is valid. -/
def calValid (b : List Byte) (s : State) : Bool :=
  calNamed b && decide (fieldAt b 8 8 = s.get R.glbUid1_UID_HI * 2 ^ 32 + s.get R.glbUid0_UID_LO
    ∧ fieldAt b 0x2A0 4 = (crc32c (b.take 0x2A0)).toNat)

/-- A saved register is applied: live fields into shadow fields, configuration as saved. -/
def applySaved (r : RegId) (v : Nat) (s : State) : State :=
  if r.k = .snsTrim then (s.put R.snsTrim_GAINSH (bitsOf v 24 8) r.i).put R.snsTrim_OFFSETSH (bitsOf v 16 8) r.i
  else if r.k = .snsDly then (s.put R.snsDly_TAPSSH (bitsOf v 24 8) r.i).put R.snsDly_SKEWSH (bitsOf v 16 5) r.i
  else if r.k = .snsDietrim then s.put R.snsDietrim_TRIMSH (bitsOf v 16 16) r.i
  else s.setReg r (BitVec.ofNat 32 v)

/-- A valid record is applied and committed. -/
def applyRecord (b : List Byte) (s : State) : State :=
  commitNow (forEach calRegs.zipIdx s fun e s => applySaved e.1 (fieldAt b (0x40 + 4 * e.2) 4) s)

/-- The calibration as the object that these commands hold (R95). -/
def calObject : Nat := 0x300
def calOps : List Nat := [0x0801, 0x0802, 0x0803]
/-- Busy queue, calibration held elsewhere, DRAM not trained (R95, R313). -/
def calFail (dram : Bool) (c : Cmd) (s : State) : Option (Nat × Nat) :=
  firstFail [(dram && !s.trained, (stNoResource, 0)), (queueBusy c s, (stBusy, 0)), (heldElsewhere c calOps calObject s, (stConflict, 0))]

def calSaveRow : OpRow := { op := 0x0801, argw := 0, states := activeStates ++ [.safe] }
def calSaveAct (c : Cmd) (s : State) : Reply := { s := openE 0x0801 c [calObject, 0] s }

def execCalSaveDone (t : Nat) (q : Queue) (s : State) : Result :=
  completion t 0x0801 q s fun o s =>
    let b := calRecord s
    finish o stOk 0 [fieldAt b 0x2A0 4] (dramWrite 7 (s.regionBase 2) b s)

def calRestoreRow : OpRow := { op := 0x0802, argw := 0, states := [.ready] }
def calRestoreAct (c : Cmd) (s : State) : Reply := { s := openE 0x0802 c [calObject, 0] s }

/-- The record to apply: the backup, else that of staging area 0, whose lock the sender must then own (R417). -/
def chooseRecord (c : Cmd) (s : State) : (Except Nat (List Byte)) × State :=
  let a := dramRead 7 (s.regionBase 2) 676 s
  let s := a.2
  let named (x : Option (List Byte)) : Bool := match x with | some b => calNamed b | none => false
  match a.1 with
  | some b => if calValid b s then (.ok b, s) else staged named (some b) s
  | none => staged named none s
where
  staged (named : Option (List Byte) → Bool) (first : Option (List Byte)) (s : State) : (Except Nat (List Byte)) × State :=
    if ownsStaging c 0 s = false ∨ areaHeld c 0 s = true then (.error stConflict, s)
    else
      let r := dramRead 7 (s.regionBase 1) 676 s
      match r.1 with
      | some b => if calValid b r.2 then (.ok b, r.2) else (.error (if named first ∨ calNamed b then stIntegrity else stNoResource), r.2)
      | none => (.error (if named first then stIntegrity else stNoResource), r.2)

/-- The completion of `CAL_RESTORE`: with a record to apply, at a line boundary (log entry 22). -/
def execCalRestoreDone (t : Nat) (q : Queue) (s : State) : Result :=
  completion t 0x0802 q s fun o s =>
    let r := chooseRecord o.cmd s
    match r.1 with
    | .error st => finish o st 0 [] r.2
    | .ok b => if s.boundaryFor o.t0 then finish o stOk 0 [] (applyRecord b r.2) else s

def calRunRow : OpRow := { op := 0x0803, argw := 1, states := [.ready] }
def calRunFail (c : Cmd) (s : State) : Option (Nat × Nat) :=
  if cmdNat c 1 = 0 ∨ 3 < cmdNat c 1 then some (stBadArgument, 0) else calFail false c s
def calRunAct (c : Cmd) (s : State) : Reply := { s := (openE 0x0803 c [calObject, 0] s).put R.snsStat_CALRUN 1 }

/-- The median of a delay line's measurements goes to its shadow; one outside 100 to 166 is not used (R412, R416). -/
def calTaps (x m : Nat) (s : State) : State :=
  if m < 100 ∨ 166 < m then raise 63 x none 0 false (s.put R.snsStat_DLYERR 1) else s.put R.snsDly_TAPSSH ((m + 1) / 2) x

/-- The results of the calibration, trims and the medians of the delay lines, are written to the shadows and committed at a line
boundary; a commit that was requested meanwhile waits for the next (R415, R416). -/
def execCalRunDone (t : Nat) (q : Queue) (gains offsets medians : List Nat) (s : State) : Result :=
  completion t 0x0803 q s fun o s =>
    if s.boundaryFor o.t0 = false then s
    else
      let m := cmdNat o.cmd 1
      let s := if bitOf m 0 then forEach (List.range 32) s fun j s =>
          (s.put R.snsTrim_GAINSH (gains.getD j (s.get R.snsTrim_GAINSH j)) j).put R.snsTrim_OFFSETSH
            (offsets.getD j (s.get R.snsTrim_OFFSETSH j)) j
        else s
      let s := if bitOf m 1 then forEach (medians.zipIdx.take 64) s fun e s => calTaps e.2 e.1 s else s
      let waiting := s.commitAt.isSome
      let s := (commitNow s).put R.snsStat_CALRUN 0
      finish o stOk 0 [] (if waiting then requestCommit s else s)

def execCalSave (t : Nat) (c : Cmd) (s : State) : Result := command t c s (runCommand calSaveRow (calFail true) calSaveAct)
def execCalRestore (t : Nat) (c : Cmd) (s : State) : Result := command t c s (runCommand calRestoreRow (calFail true) calRestoreAct)
def execCalRun (t : Nat) (c : Cmd) (s : State) : Result := command t c s (runCommand calRunRow calRunFail calRunAct)

end Sys2Proof.Machine
end

