-- ==== Sys2Proof/Machine/Position.lean ====
section
/-!
DEFINITION. The cadence unit's lock as commands see it (R230), the thresholds of lines and strobes (R213, R216) and the predicted
start of a line (R247).
-/
namespace Sys2Proof.Machine

/-- The unit is locked; a follower is while it receives records (R230). -/
def State.cadLocked (s : State) : Bool := if s.follows then s.cad.rcd.isSome && s.cad.held.isNone else s.cad.locked

/-- *E* has reached the threshold of line `n` at phase `phi` (R213); in PRINTING a threshold once reached stays passed
(R216). -/
def State.reached (s : State) (n : Int) (phi : Nat) : Bool :=
  let (k, p0, fb) := s.pitch
  let e := if s.dev = .printing then max s.e s.cad.eMax else s.e
  decide (((n - fb) * 1024 + phi) * k ≤ (e - p0 * 65536) * 16384)

/-- The highest effective position of PRINTING takes in the one reached by tick `u`. -/
def noteE (u : Nat) (s : State) : State :=
  if s.dev = .printing then s.setCad { s.cad with eMax := max s.cad.eMax (s.eAt u) } else s

/-- Predicted instant, in ps, at which *E* reaches the threshold of line `n` at phase `phi`, from *E* and *T_c* as at the latest count (R247): *H* is
*E* in ABSORB. None at standstill, in REVERSED or without a count period; nor while the web runs backwards outside a job, away from the
threshold (log entry 35). -/
def State.predictAt (s : State) (n : Int) (phi : Nat) : Option Nat :=
  let (k, p0, fb) := s.pitch
  let need (base : Int) : Int := p0 * 65536 - Int.fdiv (-(((n - fb) * 1024 + phi) * k)) 16384 - base
  if s.cad.everLocked = false ∨ s.fwNow = .reversed then none
  else if s.follows then
    match s.cad.rcd with
    | some r =>
      if (r.down ∧ r.fw ≠ .absorb) ∨ r.period = 0 then none
      else some (s.now + ((need (if r.fw = .absorb then r.hw * 65536 else r.pf s.chainTime)).toNat * (5 * r.period) / 512) * 1000 / 65536)
    | none => none
  else if s.cad.still ∨ (s.cad.lastDir ≤ 0 ∧ s.cad.fw ≠ .absorb) then none
  else match s.cad.tc8 with
    | some t => some ((s.cad.tc + ((need ((if s.cad.fw = .absorb then s.cad.hw else s.cad.pos) * 65536)).toNat * t + 2 ^ 24 - 1) / 2 ^ 24) * 2500)
    | none => none

/-- Predicted instant, in ps, at which line `n` starts. -/
def State.predict (s : State) (n : Int) : Option Nat := s.predictAt n 0

end Sys2Proof.Machine
end

