-- ==== Sys2Proof/Machine/Firing.lean ====
section
/-!
DEFINITION. What a port does with a fire line: hub steps 2 to 6 (R176, R177, R195), uncompensable columns (R192), the codes
of a line (R195, R246), which lines are due (R109), confirmation (R248, R249), the judgement of a line at a port and its
ledger entries (R255, R259, R260, R381).
-/
namespace Sys2Proof.Machine

/-! Lines that are due. -/

/-- First image line of the job that is due, and the first that the device decodes: after a restore the job lines below *j_c* are
discarded (R109, R131). -/
def State.firstDue (s : State) : Option Int := s.job.bind Job.y0
def State.firstData (s : State) : Option Int := s.job.bind fun j => j.y0.map fun y => y + j.jc.getD 0

/-- The last image line of a segment that has ended; no last while it may go on (R129). -/
def SegSt.lastLine (g : SegSt) : Option Int :=
  if g.ended then (match g.endPage with
    | some e => some (if e ≤ g.page then g.pageStart - 1 else g.pageEnd - 1)
    | none => none) else none
def State.lastDue (s : State) : Option Int :=
  (s.jobSegs.map fun e => (s.seg e.1 e.2).lastLine).foldl (fun m x => match m, x with | some a, some b => some (max a b) | _, _ => none)
    (s.jobSegs.head?.bind fun e => (s.seg e.1 e.2).lastLine)

/-- Image line *y* of row group `r` at fire line `f` (R8, R221). -/
def State.imageLine (s : State) (p r : Nat) (f : Int) : Int := f - s.shift - s.baseOff p - s.rowOff p r

/-- An image line is due to print. -/
def State.lineDue (s : State) (y : Int) : Bool :=
  match s.firstDue with
  | some a => decide (a ≤ y) && (match s.lastDue with | some b => decide (y ≤ b) | none => true)
  | none => false

/-- Row groups in use at fire line `f`, each under the tables of its own image line (R12, R176, R184). -/
def State.rowsOf (s : State) (p : Nat) (f : Int) : List Nat :=
  (List.range 8).filter fun r => ((s.tab (p / 4) (s.imageLine p r f)).rows p).contains r

/-- Fire line `f` is due at a port: some row group prints a line of the job. -/
def State.portDue (s : State) (p : Nat) (f : Int) : Bool := (s.rowsOf p f).any fun r => s.lineDue (s.imageLine p r f)

/-- Image lines whose decode reference at a port lies at fire line `f`, *y* + *D_p* + *S* = `f`, in rising order (R161, R261). -/
def State.linesAt (s : State) (p : Nat) (f : Int) : List Int :=
  ((List.range 64).reverse.map fun (k : Nat) => f - s.shift - s.baseOff p - k).filter fun y => decide (y + s.dRef p y + s.shift = f)

/-! Codes of a fire line (R195, R246). -/

/-- What the stagger buffer of a port holds of image line `y`. -/
def State.slot (s : State) (p : Nat) (y : Int) : Option (List (Nat × Nat)) :=
  match s.stagger.lookup (72 * p + (y % 72).toNat) with
  | some (z, l, _) => if z = y then some l else none
  | none => none

/-- When the codes of fire line `f` were all written: the row groups of lines due (R247). -/
def State.writtenAt (s : State) (p : Nat) (f : Int) : Nat :=
  listMax ((s.rowsOf p f).map fun r =>
    let y := s.imageLine p r f
    match s.stagger.lookup (72 * p + (y % 72).toNat) with | some (z, _, u) => if z = y ∧ s.lineDue y = true then u else 0 | none => 0)

/-- Drop codes of a port for fire line `f`, by port jet, those that are not 0. -/
def State.lineCodes (s : State) (p : Nat) (f : Int) : List (Nat × Nat) :=
  (s.rowsOf p f).flatMap fun r =>
    let y := s.imageLine p r f
    if s.lineDue y = false then []
    else match s.slot p y with
    | some l => l.filter fun e => decide (jeRow (mapGet 0 (s.tab (p / 4) y).jets (16384 * (p % 4) + e.1)) = r ∧ e.1 < s.sentJets p)
    | none => []

/-! Hub steps 2 to 6. -/

/-- A jet of the port prints one of a range of columns of a channel on line `y`. -/
def State.printsCols (s : State) (p ch a b : Nat) (y : Int) : Bool :=
  let T := s.tab ch y
  decide (p / 4 = ch) && T.jets.any fun e => decide (portOfJet ch e.1 = p ∧ a ≤ jeColumn e.2 ∧ jeColumn e.2 < b) && jeMapped e.2
      && (decide (T.printer (jeColumn e.2) y = some e.1) || (decide (jeStatus e.2 = 3) && !T.live (jeColumn e.2)))

/-- The segment has a column that a jet of the port prints on line `y`. -/
def State.printsOn (s : State) (p ch g : Nat) (y : Int) : Bool :=
  s.printsCols p ch (s.seg ch g).first ((s.seg ch g).first + (s.seg ch g).width) y

/-- Uncompensable columns of line `y` attributed to a port, by segment (R192). -/
def State.lostAt (s : State) (p : Nat) (y : Int) : List Nat :=
  let ch := p / 4
  let T := s.tab ch y
  (List.range (s.chan ch).n).filterMap fun x =>
    let at_ := match (T.serving x).map (·.1) with | [] => homePort ch x | l => portOfJet ch (listMin l)
    if at_ = p ∧ (s.takeover ch x y).lost then s.segOf ch x else none

/-- Page and page line of an image line not yet decoded, and the page's last line. -/
def SegSt.locate (g : SegSt) (y : Int) : Nat × Nat × Int :=
  if y < g.pageEnd then (g.page, (y - g.pageStart).toNat, g.pageEnd - 1)
  else
    let d := (y - g.pageEnd).toNat
    (g.page + 1 + d / g.pageLen, d % g.pageLen, g.pageEnd + ((d / g.pageLen + 1) * g.pageLen : Nat) - 1)

/-- The page of an image line of a segment, and whether the line is the page's last. -/
def SegSt.pageOf (g : SegSt) (y : Int) : Nat × Bool :=
  match g.lines.find? fun l => decide (l.y = y) with
  | none => ((g.locate y).1, decide (y = (g.locate y).2.2))
  | some l =>
    let next := g.lines.find? fun m => decide (m.y = y + 1)
    (l.page, (match next with | some m => decide (m.page ≠ l.page) | none => decide (g.page = l.page ∧ g.pageEnd ≤ y + 1)))

/-- Records of pages that have passed step 3 are written once the first line's instant is known (R192, R261). -/
def flushLost (ch g : Nat) (s : State) : State :=
  let ready := (s.seg ch g).lost.filter fun e => e.2.2.2.2 && decide (e.2.2.2.1 ≠ 0)
  let s := s.setSeg ch g { s.seg ch g with lost := (s.seg ch g).lost.filter fun e => !ready.contains e }
  forEach ready s fun e s => ledgerWhole e.1.2 g 6 true e.2.1 e.2.2.1 e.2.2.2.1 s

/-- Line `y` passes step 3 at a port: its uncompensable columns are counted (R192). -/
def countLost (p : Nat) (y : Int) (s : State) : State :=
  let ch := p / 4
  let cols := s.lostAt p y
  let s := (s.bump R.chUncomp_LOST ch 0 cols.length).tally 0x0109 ch cols.length
  forEach (s.jobSegs.filter fun e => decide (e.1 = ch)) s fun e s =>
    let g := s.seg ch e.2
    let (pg, last) := g.pageOf y
    let old := g.lost.lookup (pg, p)
    let n := if cols.contains e.2 then 1 else 0
    let x : Option (Int × Nat × Nat × Bool) := match old with
      | some (f, k, ct, d) => some (f, k + n, ct, d || last)
      | none => if n = 0 then none else some (y + s.dRef p y + s.shift, 1, 0, last)
    let rest := g.lost.filter fun e => decide (e.1 ≠ (pg, p))
    flushLost ch e.2 (s.setSeg ch e.2 { g with lost := match x with | some v => ((pg, p), v) :: rest | none => rest })

/-- A member boundary whose records flow into a hub lacks them for line `y` (R302). -/
def State.edgeMissing (s : State) (p : Nat) (y : Int) : Bool :=
  let ch := p / 4
  let x := s.chan ch
  let lacks (side : Nat) (e : Option (Nat × Nat)) : Bool :=
    e.isSome && decide (s.edgePort ch side = p) && s.edgeIn y ch side && (s.fab.edgeIn.lookup (ch, side, y)).isNone
  lacks 0 x.edgeL || lacks 1 x.edgeR

/-- A segment that the port prints halts the job for underrun at or below line `y`: the line waits for the resume (R128). -/
def State.heldBack (s : State) (p : Nat) (y : Int) : Bool :=
  s.jobSegs.any fun e => decide (e.1 = p / 4) && (match (s.seg e.1 e.2).under with | some u => decide (u ≤ y) | none => false)
    && s.printsOn p e.1 e.2 y

/-- The channel takes part in the job. -/
def State.chanOn (s : State) (ch : Nat) : Bool := match s.job with | some j => bitOf j.mask ch | none => false

/-- The hub of a port has steps 2 to 6 of line `y` still to do. -/
def State.hubOwes (s : State) (p : Nat) (y : Int) : Bool :=
  s.chanOn (p / 4) && s.lineDue y && (match s.firstData with | some a => decide (a ≤ y) | none => false) && (s.slot p y).isNone
    && s.hubUsed p y && !s.heldBack p y

/-- Hub steps 2 to 6 of line `y` at a port: a segment's line that is not released is late at the port and carries dose 0 there (R161,
R163, R176, R177, R195, R302). -/
def hubStep (p : Nat) (y : Int) (s : State) : State :=
  if s.hubOwes p y = false then s
  else
    let ch := p / 4
    let lack := s.edgeMissing p y
    let rows := !((s.tab ch y).rows p).isEmpty
    let s := forEach (s.jobSegs.filter fun e => decide (e.1 = ch)) s fun e s =>
      let g := s.seg ch e.2
      let prints := s.printsOn p ch e.2 y && !g.past y
      let m := meets 7 ch (lack || !g.released y) s
      let s := if prints then m.2.2 else s
      if prints ∧ m.1 then s.setSeg ch e.2 { s.seg ch e.2 with late := ((p, y), m.2.1) :: (s.seg ch e.2).late } else s
    let held := (s.jobSegs.filter fun e => decide (e.1 = ch)).filter fun e => ((s.seg ch e.2).late.lookup (p, y)).isSome
    let seen := forEach held s fun e s =>
      s.setSeg ch e.2 { s.seg ch e.2 with lines := (s.seg ch e.2).lines.filter fun l => decide (l.y ≠ y) }
    let codes := if lack then [] else seen.dropCodes p y
    let key := 72 * p + (y % 72).toNat
    let rest := s.stagger.filter fun e => decide (e.1 ≠ key)
    let s := countLost p y { s with stagger := mapInsert natLt key (y, codes, s.now) rest }
    if lack ∨ rows = false then s else traceImage p y 3 (traceImage p y 2 ((s.tally 0x0106 ch).tally 0x0108 ch (s.addsOn p y)))

/-- A segment has columns from `a` to before `b`. -/
def SegSt.spans (g : SegSt) (a b : Nat) : Bool := decide (a < g.first + g.width ∧ g.first < b)

/-- A segment's columns of line `y` reach the hub of a port: home columns, or the 128 columns of a flow from an adjoining port (R185,
R188). -/
def State.reachesHub (s : State) (p : Nat) (y : Int) (g : SegSt) : Bool :=
  let k := p % 4
  let T := s.tab (p / 4) y
  g.spans (16384 * k) (16384 * (k + 1)) || (decide (k ≠ 0) && s.flows T (p - 1) p && g.spans (16384 * k - 128) (16384 * k))
    || (decide (k ≠ 3) && s.flows T (p + 1) p && g.spans (16384 * (k + 1)) (16384 * (k + 1) + 128))

/-- Every segment whose columns reach the hub of a port has released line `y`, and records across member boundaries have come (R161, R177,
R302). -/
def State.hubReady (s : State) (p : Nat) (y : Int) : Bool :=
  let ch := p / 4
  let x := s.chan ch
  let beyond (c : Option Nat) (side : Nat) (g : Nat × Nat) : Bool := match c with
    | some m => decide (g.1 = m) && decide (s.edgePort ch side = p) && s.edgeIn y ch side &&
        (if side = 0 then (s.seg g.1 g.2).spans ((s.chan m).n - 128) (s.chan m).n else (s.seg g.1 g.2).spans 0 128)
    | none => false
  !s.edgeMissing p y && s.jobSegs.all fun e =>
    let g := s.seg e.1 e.2
    !((decide (e.1 = ch) && s.reachesHub p y g) || beyond x.left 0 e || beyond x.right 1 e) || g.released y || g.past y

/-- Steps 2 to 6 begin when a line is released (R177): every line that a hub has begun and whose deadline is to come. -/
def runHubs (s : State) : State :=
  forEach (List.range 16) s fun p s =>
    if s.chanOn (p / 4) = false then s
    else
      let hi := s.fire - s.shift - s.baseOff p + (s.chan (p / 4)).l
      forEach ((List.range ((s.chan (p / 4)).l + 64)).reverse.map fun (k : Nat) => hi - k) s fun y s =>
        if (s.slot p y).isNone ∧ s.decodeDue p y = true ∧ s.fire + 1 < y + s.dRef p y + s.shift ∧ s.hubReady p y = true then hubStep p y s else s

/-! Confirmation (R248, R249). -/

/-- The start-of-scan window in ps. -/
def State.sosWindow (s : State) (p : Nat) : Nat := s.get R.hptPcfg_SOSWIN p * 1000

/-- Frame `f` of a port is confirmed. -/
def State.confirmed (s : State) (p : Nat) (f : Int) : Bool :=
  match (s.port p).frame with
  | some x => decide (x.f = f) && x.confirmed
  | none => false

/-- The frame of a line is judged against its fired start: an edge inside the window confirms it, one before it counts as
early. The fired start is known at the trigger at the earliest: an edge less than 40 ns before it came when the frame awaited no more, and
counts as spurious now (R248; log entry 130: DEDUCED). -/
def confirm (p : Nat) (l : LineFire) (s : State) : State :=
  match (s.port p).frame with
  | none => s
  | some x =>
    if x.f ≠ l.f ∨ x.judged then s
    else
      let w := s.sosWindow p
      let ok := match x.sosAt with | some u => decide (l.fired ≤ u + w ∧ u + 40000 ≤ l.fired) | none => false
      let early := match x.sosAt with | some u => decide (u + w < l.fired) | none => false
      let after := match x.sosAt with | some u => decide (l.fired < u + 40000) | none => false
      let s := if early then s.bump R.hptLinkerr_EARLY p else s
      let s := if after then raise 17 p none 0 false (s.bump R.hptLinkerr_SPURIOUS p) else s
      (s.setPort p { s.port p with frame := some { x with awaiting := false, confirmed := ok, judged := true } }).tally 0x0302 p (b2n ok)

/-! The judgement of a line. -/

/-- A blanked span takes columns that the port prints of a segment's line (R166, R192). -/
def State.blanked (s : State) (p ch g : Nat) (y : Int) (b : Blank) : Bool :=
  let sg := s.seg ch g
  let c := b.cols sg.width y
  decide (b.first ≤ y ∧ y ≤ b.last ∧ b.page = (sg.pageOf y).1) && s.printsCols p ch (sg.first + c.1) (sg.first + c.2) y

/-- Ledger causes of the segments at a port for fire line `f`: blanked spans, late lines (R128, R163, R166). A line that the record of a
halt tells of is not ledgered again (R18; log entry 80). -/
def segCauses (p : Nat) (f : Int) (ct : Nat) (s : State) : State :=
  let ch := p / 4
  let part := !(s.lineCodes p f).isEmpty
  forEach (s.linesAt p f) s fun y s => forEach (s.jobSegs.filter fun e => decide (e.1 = ch)) s fun e s =>
    let g := s.seg ch e.2
    if s.printsOn p ch e.2 y = false ∨ g.halted.contains (p, y) then s
    else
      let spans := ((g.blanks.filter (s.blanked p ch e.2 y)).map Blank.cause).eraseDups
      let causes := if spans = [] ∧ (g.late.lookup (p, y)).isSome then [2] else spans
      forEach causes s fun c s => ledgerLine p e.2 c part f ct s

/-- No strobe of line `f` has issued at a port for a port-wide cause found after its judgement: the segment causes and the lateness
recorded for the line give way to it (R260). -/
def retract (p : Nat) (f : Int) (s : State) : State :=
  let mine (r : Run) : Bool := decide (r.port = p ∧ r.next = f + 1) && (decide (r.cause = 5) || !portCause r.cause)
  let less (r : Run) : Run := if mine r then { r with count := r.count - 1, next := f } else r
  s.setLedger { s.ledger with runs := (s.ledger.runs.filter fun r => !(mine r && decide (r.count = 1))).map less }

/-- Instants of uncompensable records whose first line this is (R261). -/
def stampLost (p : Nat) (l : LineFire) (fired : Bool) (s : State) : State :=
  forEach (s.jobSegs.filter fun e => decide (e.1 = p / 4)) s fun e s =>
    let g := s.seg e.1 e.2
    if g.lost = [] then s
    else
      let ct := if fired then l.ctFired else l.ctTrig
      flushLost e.1 e.2 (s.setSeg e.1 e.2 { g with lost := g.lost.map fun x =>
        if x.1.2 = p ∧ x.2.1 = l.f ∧ x.2.2.2.1 = 0 then (x.1, x.2.1, x.2.2.1, ct, x.2.2.2.2) else x })

/-- The interval from the latest line that fired at the port is below the port's minimum (R381). -/
def State.tooSoon (s : State) (p : Nat) (l : LineFire) : Bool :=
  match (s.port p).periodRef with
  | some u => decide (l.fired < u + s.get R.rdgPortTime_MINPER p * 1000)
  | none => false

/-- Lines are due for the job (R20, R98, R255). -/
def State.printing (s : State) : Bool := match s.job with | some j => j.printing | none => false

/-- A frame of line `f` has been sent to the port, and no strobe of the line is awaited from an earlier one. -/
def State.lineFramed (s : State) (p : Nat) (f : Int) : Bool :=
  match (s.port p).frame with | some x => decide (x.f = f) && !x.judged | none => false

/-! Strobes of a line. -/

/-- Strobes of a port that a row group in use at fire line `f` is assigned to, with their phase (R251). -/
def State.strobesOf (s : State) (p : Nat) (f : Int) : List (Nat × Nat) :=
  (List.range 4).filterMap fun k =>
    ((s.rowsOf p f).find? fun r => decide (s.get R.hptRg_STROBE p r = k)).map fun r => (k, s.get R.hptRg_PHASE p r)

/-- A strobe has not been issued or suppressed for line `f`. -/
def State.strobePending (s : State) (p k : Nat) (f : Int) : Bool :=
  match (s.strobe p k).lastLine with | some g => decide (g < f) | none => true

/-- The strobe of a line is passed over. -/
def passStrobe (p k : Nat) (f : Int) (s : State) : State := s.setStrobe p k { s.strobe p k with lastLine := some f, width := 0 }

/-- Some strobe of the port has issued on line `f`. -/
def State.someIssued (s : State) (p : Nat) (f : Int) : Bool :=
  (List.range 4).any fun k => decide ((s.strobe p k).lastLine = some f ∧ 0 < (s.strobe p k).width)

/-- The port has judged line `f`. -/
def State.judged (s : State) (p : Nat) (f : Int) : Bool := match (s.port p).lastDue with | some g => decide (f ≤ g) | none => false

/-- Strobes of line `f` issue at a port: the line is due there, confirmed, and no cause has stopped it whole. -/
def State.fires (s : State) (p : Nat) (f : Int) : Bool := s.portDue p f && s.confirmed p f && decide ((s.port p).gated ≠ some f)

/-- A strobe of a line is high, or still to issue. -/
def State.strobing (s : State) (p : Nat) (l : LineFire) : Bool :=
  ((List.range 4).any fun k => (s.strobe p k).high && decide ((s.strobe p k).lastLine = some l.f))
    || (!l.dropped && s.fires p l.f && (s.strobesOf p l.f).any fun e => s.strobePending p e.1 l.f)

/-- A line due at the port has still to be judged there. -/
def State.unjudged (s : State) (p : Nat) (f : Int) : Bool := !s.judged p f && (s.portDue p f || s.lineFramed p f)

/-- Something of a line is still to come at an armed port (R218). -/
def State.lineLive (s : State) (l : LineFire) : Bool :=
  s.printing && (armedPorts s).any fun p => s.unjudged p l.f || s.strobing p l

/-! Runs that a line breaks (R262). -/

/-- All that line `f` can bring to a run of the port has come: it has passed, and where it is still held it is judged there and, for a
cause that cuts pulses (`strobes`), none of its strobes is to come. -/
def State.lineSpent (s : State) (p : Nat) (strobes : Bool) (f : Int) : Bool :=
  match s.liveLines.find? fun l => decide (l.f = f) with
  | none => decide (f < s.cad.line)
  | some l => !(s.printing && s.flag R.hptPstat_ARMED p && (s.unjudged p f || (strobes && s.strobing p l)))
      && (decide (f < s.cad.line) || s.judged p f)

/-- The line that would extend a run has come and has not extended it (R262). Runs of image lines stand while no line is due (R220). -/
def State.broken (s : State) (r : Run) : Bool :=
  r.whole || s.superseded r || ((portCause r.cause || s.printing) && decide (r.next ≤ s.cad.line)
    && s.lineSpent r.port (decide (r.cause = 7 ∨ r.cause = 10 ∨ (r.cause = 8 ∧ r.part = true))) r.next)

/-- Runs that are broken close together, in the order of R262. -/
def settleRuns (s : State) : State := closeRuns s.broken false s

/-! The judgement of a line at a port (R249, R259, R260). -/

/-- A frame is judged against its fired start: one not confirmed counts in `HPT_NOSOS` and raises `SOS_MISSING`, whatever else stops the
line (R249); while the device does not print, only a frame that has been sent is one (log entry 129). A line whose link is down is not
confirmed, whatever came before (R250). Answers whether the line is unconfirmed. -/
def judgeFrame (p : Nat) (l : LineFire) (s : State) : Bool × State :=
  let sent : Bool := match (s.port p).frame with | some x => decide (x.f = l.f) | none => false
  let s := confirm p l s
  let m := meets 18 p ((sent || decide (s.dev = .printing)) && (!s.confirmed p l.f || !s.flag R.hptPstat_LINKUP p)) s
  (m.1, if m.1 then raise 18 p none 0 m.2.1 (m.2.2.bump R.hptNosos_LINES p) else m.2.2)

/-- The period gate of a line that reaches the port (R381): whether it stops the line. -/
def gateLine (p : Nat) (l : LineFire) (s : State) : Bool × State :=
  let m := meets 50 p (s.tooSoon p l) s
  (m.1, if m.1 then raise 50 p none 0 m.2.1 (m.2.2.bump R.rdgPstat_PERDROP p) else m.2.2)

/-- A line due at an armed port is judged once: a cause that stops every strobe is recorded alone, the first of R260; otherwise segment
causes, and `LATE_FIRE` besides. A line that REVERSED has stopped whole is on record. -/
def judgeLine (p : Nat) (l : LineFire) (s : State) : State :=
  if s.judged p l.f ∨ s.flag R.hptPstat_ARMED p = false then s
  else if s.portDue p l.f = false then
    (if s.lineFramed p l.f then (judgeFrame p l (s.setPort p { s.port p with lastDue := some l.f })).2 else s)
  else
    let told := decide ((s.port p).gated = some l.f)
    let j := judgeFrame p l (s.setPort p { s.port p with lastDue := some l.f })
    let s := j.2
    if told then s
    else if hpen s p = false then stopped 8 s
    else if l.dropped then stopped 4 s
    else
      let g := gateLine p l s
      let s := g.2
      if g.1 then stopped 4 s
      else if j.1 then stopped 1 s
      else
        let s := segCauses p l.f l.ctFired s
        let s := if l.trigger < l.fired then ledgerLine p 0xFF 5 false l.f l.ctFired s else s
        stampLost p l true s
where
  /-- no strobe of the line issues at the port, for a port-wide cause -/
  stopped (cause : Nat) (s : State) : State :=
    stampLost p l false (ledgerLine p 0xFF cause false l.f l.ctTrig (s.setPort p { s.port p with gated := some l.f }))

/-- A line judged at every armed port; a record of uncompensable columns takes its instant at the other ports too (R192, R261). -/
def judgeAll (l : LineFire) (s : State) : State :=
  if s.printing then forEach (List.range 16) s fun p s => stampLost p l false (judgeLine p l s) else s

/-- A line is judged at a port, and before it any older line. -/
def judgeTo (p : Nat) (l : LineFire) (s : State) : State :=
  forEach (s.liveLines.filter fun m => decide (m.f ≤ l.f)) s (judgeLine p)

/-- Entering REVERSED: a strobe that had fallen due and has not issued is never issued (R216, R259). With no strobe of the line issued and
none to come the line is recorded whole and alone (R260), else in part; strobes at positions not yet reached wait. -/
def reverseStrobes (s : State) : State :=
  if s.printing = false then s
  else settleRuns (forEach s.liveLines s fun l s => forEach (armedPorts s) s fun p s =>
    let stopped := decide ((s.port p).gated = some l.f) || (s.judged p l.f && !s.confirmed p l.f)
    let open_ := (s.strobesOf p l.f).filter fun e => s.strobePending p e.1 l.f
    let due := open_.filter fun e => s.reached l.f e.2
    if due = [] ∨ stopped ∨ l.dropped ∨ s.portDue p l.f = false ∨ hpen s p = false then s
    else
      let part := s.someIssued p l.f || decide (due.length < open_.length)
      let s := forEach due s fun e s => passStrobe p e.1 l.f s
      if part then ledgerLine p 0xFF 10 true l.f l.ctFired s
      else ledgerLine p 0xFF 10 false l.f l.ctTrig (retract p l.f (s.setPort p { s.port p with gated := some l.f })))

/-- Strobes of on-time lines that are still to issue at the line boundary at which firing stops are held low from it on: their lines,
which do not fire as intended, are recorded with cause `SAFE_STATE`, for which the spec names no cause (R18, R27; log entry 128). A line
that was to fire late is on record as such. -/
def recordCut (s : State) : State :=
  if s.printing = false then s
  else forEach s.liveLines s fun l s => forEach (armedPorts s) s fun p s =>
    let left := l.dropped = false ∧ l.fired = l.trigger ∧ s.fires p l.f = true ∧ ((s.strobesOf p l.f).any fun e => s.strobePending p e.1 l.f) = true
    if left then
      let part := s.someIssued p l.f
      ledgerLine p 0xFF 8 part l.f (if part then l.ctFired else l.ctTrig) (if part then s else retract p l.f s)
    else s

end Sys2Proof.Machine
end

