-- ==== Sys2Proof/Machine/Lines.lean ====
section
/-!
DEFINITION. What happens at a line start (R213, R214): the speed measurement (R217), the device's transitions (R20, R98, R128,
R129, R220 to R222), the fired start (R218), the underrun test (R127, R128) and the hubs' release deadlines (R161); and the decoding
of band lines and the ends of blocks, which release lines to the hubs (R158, R161, R164, R177).
-/
namespace Sys2Proof.Machine

/-! Speed (R217). -/

/-- The warning changes; each raise and clear posts `SPEED`. -/
def setWarn (on : Bool) (tp : Nat) (s : State) : State :=
  if s.cad.warn = on then s else event 0x0F08 (b2n on) [min 0xFFFFFFFF tp] (s.setCad { s.cad with warn := on })

/-- The predicted period in whole ns of the 17 latest periods, newest first, in ps (R217). -/
def predicted (periods : List Nat) (horizon : Nat) : Nat :=
  let tn := periods.headD 0
  let sum := (periods.take 16).sum
  (Int.fdiv ((tn : Int) * sum + ((tn : Int) - periods.getLastD 0) * (horizon * 100000000)) (sum * 1000)).toNat

/-- A line starts: the period, the prediction and the warning; at standstill there is none of them. -/
def measure (s : State) : State :=
  if s.stands then setWarn false 0 s
  else
  let periods := match s.cad.prevStart with | some u => ((s.now - u) :: s.cad.periods).take 17 | none => []
  let s := s.setCad { s.cad with periods := periods, starts := s.cad.starts + 1 }
  let s := s.put R.cadLineper_TN (min 0xFFFFFFFF (periods.headD 0 / 1000))
  if periods.length < 17 then setWarn false 0 (s.put R.cadPredper_TP 0)
  else
    let tp := predicted periods (s.get R.cadWarncfg_HORIZON)
    let tn := periods.headD 0
    let tw := s.get R.cadWarncfg_WARNPER
    let s := s.put R.cadPredper_TP (min 0xFFFFFFFF tp)
    if tp < tw ∨ tn < tw * 1000 then setWarn true tp s
    else if tw * 33 ≤ tp * 32 ∧ tw * 33000 ≤ tn * 32 then setWarn false tp s else s

/-- The count of line starts begins again: no prediction, no warning (R217). -/
def endCount (s : State) : State :=
  let s := s.setCad { s.cad with periods := [], starts := 0, prevStart := none }
  setWarn false 0 ((s.put R.cadLineper_TN 0).put R.cadPredper_TP 0)

/-! Transitions (R98). -/

/-- The device enters PRINTING at line `f`: *H* := *P*, FORWARD (R215). With the on-chip ledger store full it stops at that same boundary
(R19). -/
def enterPrinting (f : Int) (s : State) : State :=
  let e := s.e
  let s := setDev .printing 0 (keepPast s)
  let s := s.setCad { s.cad with fw := .forward, hw := s.cad.pos, eMax := e }
  match s.job with
  | some j => if 64 ≤ s.ledger.onchip.length ∨ s.ledger.moved < s.ledger.overflow then
      haltAtLine f 5 (s.setJob (some { j with ledgerPause := true })) else s
  | none => s

/-- The start line of the job is reached (R98, R229). -/
def startJob (f : Int) (j : Job) (s : State) : State :=
  let wait := match j.startAt with | some (_, true) => j.y0.isNone | _ => false
  enterPrinting f (s.setJob (some { j with startLine := some f, printing := true, startAt := if wait then j.startAt else none }))

/-- The last image line that a port's hub had to print, in any row group, before fire line `f` under shift `old`. -/
def State.begunBefore (s : State) (q : Nat) (f old : Int) : Option Int :=
  let y (m : Nat) : Int := f - old - 1 - s.baseOff q - m
  ((List.range 64).find? fun m => !((s.tab (q / 4) (y m)).rows q).isEmpty && decide (s.minOff (s.tab (q / 4) (y m)) q ≤ m)).map y

/-- The first image line that some row group of a port prints at or after fire line `f` under shift `old`. -/
def State.openAfter (s : State) (p : Nat) (f old : Int) : Option Int :=
  let y (m : Nat) : Int := f - old - s.baseOff p - m
  ((List.range 64).reverse.find? fun m => !((s.tab (p / 4) (y m)).rows p).isEmpty && decide (m ≤ s.maxOff (s.tab (p / 4) (y m)) p)).map y

/-- The seam of a resume: one `LATE_FIRE` record for each port, its lines under their own tables (R222, R12). -/
def seam (fh fr : Int) (old : Int) (s : State) : State :=
  let ports := armedPorts s
  match s.job.bind Job.y0, ports.filterMap fun q => s.begunBefore q fh old with
  | some y0, h :: r =>
    let hi := r.foldl max h
    forEach ports s fun p s =>
      match s.openAfter p fh old with
      | some a =>
        let lo := max y0 a
        if lo ≤ hi then ledgerWhole p 0xFF 5 false fr (hi - lo + 1).toNat s.chainTime s else s
      | none => s
  | _, _ => s

/-- The resume line is reached (R98, R221, R222): no strobe of an earlier line issues. A line that was to fire late is on record as such
(R18, R27). -/
def resumeJob (f : Int) (j : Job) (s : State) : State :=
  let d := f - j.stoppedAt
  let recs := j.haltRecs.map fun r => (r.1, r.2.1, r.2.2.1, r.2.2.2.1 + d, r.2.2.2.2 + d)
  let s := s.setJob (some (({ j with shift := j.shift + d, resumeAt := none, printing := true, ledgerPause := false, haltRecs := recs }).rehalt))
  let s := shiftRuns d (showShift s)
  let s := forEach (List.range 16) s fun p s => forEach (List.range 4) s fun k s => passStrobe p k (f - 1) s
  enterPrinting f (if d = 0 then s else seam j.stoppedAt f j.shift s)

/-- The job pauses at line `f` (R98, R128, R220): 0 for a command, 5 for a full ledger, 1 for a policy. Halts of later lines stand (R128,
R166). -/
def pauseJob (f : Int) (cause : Nat) (j : Job) (s : State) : State :=
  let s := recordCut s
  let s := s.setJob (some (({ j with pauseAt := none, haltRecs := j.haltRecs.filter fun r => decide (f < r.2.2.2.2), stoppedAt := f, printing := false }).rehalt))
  setDev .paused cause s

/-- Every segment has ended and every row group has passed the last job line before `f` (R129). -/
def State.jobOver (s : State) (f : Int) : Bool :=
  (s.job.bind Job.y0).isSome && s.jobSegs.all (fun e => (s.seg e.1 e.2).ended) &&
    if s.jobSegs.all fun e => decide ((s.seg e.1 e.2).endPage = some 0) then true else match s.lastDue with
    | none => true
    | some y => (armedPorts s).all fun p => (List.range 64).all fun (i : Nat) =>
        decide (y - i + s.baseOff p + s.maxOff (s.tab (p / 4) (y - i)) p + s.shift < f)

/-- A strobe of a line is high or still to issue, or a late line is still to be judged, at an armed port. -/
def State.strobesLeft (s : State) : Bool :=
  (armedPorts s).any (fun p => (List.range 4).any fun k => (s.strobe p k).high) || s.liveLines.any s.lineLive

/-- After a strobe, runs that can grow no more close (R262); and the job ends once its last line has fired, where a late strobe outlasted the
line (R129, R218); a FATAL error that waits for the line boundary goes before. -/
def endAfterStrobe (s : State) : State :=
  let s := settleRuns s
  if s.dev = .printing ∧ s.jobOver s.cad.line ∧ s.strobesLeft = false then (if s.fatalWaits then enterFault s else unloadJob 4 s) else s

/-- Transitions out of PRINTING that fall on line `f`: a FATAL error of the firing path first (R20). -/
def stopAt (f : Int) (s : State) : State :=
  match s.job with
  | none => s
  | some j =>
    if s.dev ≠ .printing then s
    else if j.fatal then enterFault s
    else if (match j.abortAt with | some g => decide (g ≤ f) | none => false) = true then unloadJob 0 (recordCut s)
    else if s.jobOver f then (if s.strobesLeft then s else unloadJob 4 s)
    else match j.haltAt, j.pauseAt with
    | some (g, c), other =>
      if g ≤ f then
        let s := forEach (j.haltRecs.filter fun r => decide (r.2.2.2.2 ≤ f)) s fun r s => ledgerWhole r.1 r.2.1 r.2.2.1 false r.2.2.2.1 1 s.chainTime s
        pauseJob f (if c = 5 then 5 else 1) j s
      else (match other with | some h => if h ≤ f then pauseJob f 0 j s else s | none => s)
    | none, some h => if h ≤ f then pauseJob f 0 j s else s
    | none, none => s

/-- The device's transitions at line `f`. -/
def atLine (f : Int) (s : State) : State :=
  let s := match s.job with
    | none => s
    | some j =>
      match s.dev, j.startAt, j.resumeAt with
      | .armed, some (g, _), _ => if g ≤ f then startJob f j s else s
      | .paused, _, some g => if g ≤ f then resumeJob f j s else s
      | _, _, _ => s
  stopAt f s

/-! Fired starts (R218). -/

/-- Chain time of an instant not before now, at the present rate. -/
def State.chainAhead (s : State) (u : Nat) : Nat := (s.chain + chainStep s.rho (u / 2500 - s.now / 2500)) / 2 ^ 40 % 2 ^ 64

/-- The line in progress. -/
def setLine (f : Int) (fired : Nat) (dropped : Bool) (s : State) : State :=
  let l : LineFire := { f := f, trigger := s.now, fired := fired, dropped := dropped, ctTrig := s.chainTime, ctFired := s.chainAhead fired }
  s.setCad { s.cad with cur := some l, prevFired := if s.dev ≠ .printing ∨ dropped then s.cad.prevFired else some fired }

/-- The fired start of line `f`: on time, late within the slack, dropped, or the job halts there; in a chain a halt treats
the line as dropped until the chain line (R218, R303). -/
def fireLine (f : Int) (s : State) : State :=
  if s.dev ≠ .printing then setLine f s.now false s
  else
    let tmin := s.get R.cadFirecfg_MINPER * 1000
    let fired := match s.cad.prevFired with | some u => max s.now (u + tmin) | none => s.now
    let late := fired - s.now
    if late * 1024 ≤ s.get R.cadFirecfg_SLACK * tmin then
      setLine f fired false (if late = 0 then s else (s.bump R.cadLatedrop_LATE).tally 0x0403 0)
    else
      let drop := match s.job with | some j => bitOf j.policy 2 | none => true
      if drop then setLine f s.now true (s.bump R.cadLatedrop_DROP)
      else if s.chained then setLine f s.now true ((decideHalt f 4 s).bump R.cadLatedrop_DROP)
      else match s.job with
      | none => s
      | some j =>
        let s := forEach (armedPorts s) s fun p s => ledgerWhole p 0xFF 4 false f 1 s.chainTime s
        setLine f s.now false (pauseJob f 1 j s)

/-! Underrun (R127, R128). -/

/-- The line is not posted, or its post joined in the core cycle of this instant or later (R127). -/
def SegSt.lacks (now : Nat) (g : SegSt) (y : Int) : Bool :=
  let (pg, k, _) := g.locate y
  let ended := match g.endPage with | some e => decide (e ≤ pg) | none => false
  let given := match g.gaveFrom pg with | some u => decide (u ≤ y) | none => false
  !ended && !(decide (g.pageLen ≤ k) && decide (0 < g.pageLen)) && !given && (g.postWhere (Post.inBefore now) pg k).isNone

/-- The segment gives up the rest of a page from line `u` on, under the blank policy of R128. -/
def giveUpPage (ch g : Nat) (u : Int) (s : State) : State :=
  let sg := s.seg ch g
  let (pg, _, last) := sg.locate u
  s.setSeg ch g { sg with gave := sg.gave ++ [(pg, u, true)],
                          blanks := sg.blanks ++ [{ page := pg, first := u, col := 0, last := last, stop := sg.width, cause := 2 }] }

/-- The decode instants of line start `f`: the first line due that has not been posted is in underrun. Records flow only from a smaller
decode reference to a larger one (R185), and a port prints no column that does not reach it so (R188): of the hubs that need a
segment's line, its home hub judges it first (R127). -/
def testUnderrun (f : Int) (ch g : Nat) (s : State) : State :=
  let sg := s.seg ch g
  match s.job, s.firstData with
  | some j, some first =>
    let hi := f + (s.chan ch).l - s.baseOff (homeOf ch g) - s.shift
    if sg.under.isSome ∨ hi < first then s
    else match ((List.range (hi - sg.y + 1).toNat).map fun (i : Nat) => sg.y + (i : Int)).find? fun y => s.dueBy (homeOf ch g) y f && sg.lacks s.now y with
    | none => s
    | some u =>
      let part := [(u, sg.first, sg.first + sg.width)]
      if bitOf j.policy 0 ∨ (s.printsAt ch u sg.first (sg.first + sg.width)).isEmpty then watchRunway ch g (giveUpPage ch g u) s
      else if s.chained then haltFor ch g 2 false part (giveUpPage ch g u s)
      else haltFor ch g 2 true part (s.setSeg ch g { sg with under := some u })
  | _, _ => s

/-- Lines that no port can need any more leave the segment's store: offsets within a port span 64 lines. Ring space is freed as each
line is over (R122). -/
def pruneLines (f : Int) (ch g : Nat) (s : State) : State :=
  let far := listMax ((List.range 16).map s.baseOff) + 63
  let keep (y : Int) : Bool := decide (f ≤ y + far + s.shift)
  let sg := s.seg ch g
  let sg := { sg with lines := sg.lines.filter fun l => keep l.y, blanks := sg.blanks.filter fun b => keep b.last }
  let sg := { sg with late := sg.late.filter fun e => keep e.1.2, lateSeen := sg.lateSeen.filter fun e => keep e.2,
                      halted := sg.halted.filter fun e => keep e.2 }
  freeSpace ch g (s.setSeg ch g sg)

/-- The tracer at the decode instants of a channel: the line due at its lowest port, followed at its port with the smallest decode
reference (R437, R438). -/
def traceLine (f : Int) (ch : Nat) (s : State) : State :=
  match s.firstData with
  | some first =>
    let due := (s.linesAt (4 * ch) (f + (s.chan ch).l)).filter fun y => decide (first ≤ y) && s.jobSegs.any fun e => decide (e.1 = ch ∧ (s.seg e.1 e.2).y ≤ y)
    forEach due s fun y s =>
      let ports := (List.range 4).map fun k => 4 * ch + k
      let p := ports.foldl (fun b q => if s.dRef q y < s.dRef b y then q else b) (4 * ch)
      traceDecode ch p y (y + s.dRef p y + s.shift) s
  | none => s

/-- Line `f` comes before the last line ahead of a resume: what its lines need has passed before the pause (R220, R221). -/
def State.beforeResume (s : State) (f : Int) : Bool :=
  match s.dev, s.job.bind Job.resumeAt with | .paused, some r => decide (f + 1 < r) | _, _ => false

/-- Decode instants and release deadlines fall due at line starts (R13, R161, R220). -/
def dataDue (f : Int) (s : State) : State :=
  if s.decoding = false then s
  else
    let s := if s.beforeResume f then s else forEach s.jobSegs s fun e s => testUnderrun f e.1 e.2 s
    let s := if s.dev = .paused then s else forEach (List.range 4) s (traceLine f)
    let s := if s.beforeResume f then s else forEach (List.range 16) s fun p s => forEach (s.linesAt p (f + 1)) s (hubStep p)
    forEach s.jobSegs s fun e s => pruneLines f e.1 e.2 s

/-- Lines whose fired start has come are judged, in their order; one that fires late is judged when it starts (R218). -/
def judgeStarted (s : State) : State := forEach (s.liveLines.takeWhile fun l => decide (l.fired ≤ s.now)) s judgeAll

/-- Line `f` starts (R213). -/
def startLine (f : Int) (s : State) : State :=
  let s := measure (judgeStarted (s.tally 0x0402 0))
  let s := s.setCad { s.cad with line := f, prevStart := some s.now, prev := s.cad.cur, older := (s.cad.prev.toList ++ s.cad.older).filter s.lineLive }
  let s := settleRuns (judgeStarted (fireLine f (atLine f s)))
  dataDue f s

/-! Decoding and releasing (R158, R161, R164, R177). -/

/-- A release: EDGE packets leave, and the hubs that wait for the line go on (R177, R302). -/
def released (ch : Nat) (s : State) : State := runHubs (sendEdges ch s)

/-- A spoke decodes its next band line: every segment of the band whose next line has fallen due (R158). -/
def execLineDecodeStart (t : Nat) (ch : Chan) (b : Band) (s : State) : Result :=
  liveReading [1, 2, 3, 4, 5, 6, 7] t s fun s =>
    let p := 4 * ch.val + b.val / 4
    let gs := (s.bandSegs ch b).filter fun g => s.decodeDue p (s.seg ch g).y && !(s.seg ch g).stops
    if gs = [] then s
    else
      let r := gs.foldl (fun (acc : State × Nat) g =>
        let y := (acc.1.seg ch g).y
        let before := (acc.1.seg ch g).runway
        let x := decodeSegLine ch g (traceImage p y 0 acc.1)
        let s := if (x.1.seg ch g).y = y + 1 then traceImage p y 1 (x.1.tally 0x0101 ch (x.1.seg ch g).width) else x.1
        (lowRunway ch g before s, acc.2 + 6 + x.2)) (s, 44)
      let s := r.1.tally 0x0102 ch r.2
      released ch (s.put R.chDecmax_MAXCYC (max (s.get R.chDecmax_MAXCYC ch) (min 0xFFFF r.2)) ch)

/-- The oldest end of a block of a segment is judged (R161, R164 to R167); the hubs that go on with a released line read their tables (R352). -/
def execBlockVerify (t : Nat) (ch : Chan) (g : Seg) (s : State) : Result :=
  liveReading [1, 2, 3, 7] t s fun s =>
    let sg := s.seg ch g
    match sg.ends with
    | [] => s
    | e :: rest =>
      let m := meets 8 ch (decide (e.name ≠ 0 ∨ e.codesCrc ≠ e.carried)) (s.setSeg ch g { sg with ends := rest })
      released ch (if m.1 then blockFault ch g e m.2.1 m.2.2 else m.2.2)

end Sys2Proof.Machine
end

