-- ==== Sys2Proof/Machine/Cadence.lean ====
section
/-!
DEFINITION. Encoder counts and the freewheel (R202 to R206, R215, R216), lock (R207), standstill (R212), print marks and page
boundaries (R223 to R229), and the commands `CAD_CONFIG`, `CAD_SPEED`, `CAD_MARK`, `CAD_STATUS`.
-/
namespace Sys2Proof.Machine

/-! Lock (R207). -/

/-- Lock is lost: PRINTING halts at the next line start, ARMED cancels a pending start. -/
def unlock (s : State) : State :=
  if s.cad.locked = false then s
  else
    let s := s.setCad { s.cad with locked := false }
    if s.dev = .printing then haltAtLine (s.cad.line + 1) 0 s else if s.dev = .armed then cancelStart s else s

/-- The encoder input number in force. -/
def State.encoder (s : State) : Nat := s.get R.cadCtrl_ENC

/-- The other encoder is selected: the lock is declared again 1 ms later, and no legal count has been seen (R204, R207). Its first change is
judged from the pair (A, B) last seen of the encoder selected before; R203 does not say from which pair (log entry 131: DESIGN CHOICE). -/
def selectEncoder (s : State) : State :=
  let s := if s.cad.selected.isSome then unlock s else s
  s.setCad { s.cad with lockFrom := s.now, fault := false, lastIllegal := none, lastDir := 0, intervals := [] }

/-- A new line begins: *P*0 := floor(*E*), *F*_base := *F* + 1 (R209). -/
def rebase (s : State) : State :=
  if s.cad.everLocked = false ∨ s.follows then s
  else
    let f := s.fire + 1
    startLine f (s.setCad { s.cad with p0 := Int.fdiv s.e 65536, fbase := f, recChanged := true })

/-- One millisecond has passed without an encoder fault: the unit is locked; at the first lock line 0 starts (R207, R209). -/
def execCadenceLock (t : Nat) (s : State) : Result :=
  live t s fun s =>
    if s.cad.selected.isNone ∨ s.cad.locked ∨ s.follows ∨ s.now < s.cad.lockFrom + 1000000000 then s
    else
      let s := s.setCad { s.cad with locked := true, fault := false, markSeq := 0, recChanged := true }
      if s.cad.everLocked then s
      else startLine 0 (s.setCad { s.cad with everLocked := true, p0 := s.cad.pos, fbase := 0 })

/-! Counts (R203, R204, R211, R215). -/

/-- The step of a quadrature change: +1, -1, or 0 for an illegal one; `n` numbers (A, B) along the cycle (R203). -/
def quadStep (a b a' b' : Bool) : Int :=
  let n (a b : Bool) : Nat := if a then (if b then 2 else 1) else (if b then 3 else 0)
  match (n a' b' + 4 - n a b) % 4 with | 1 => 1 | 3 => -1 | _ => 0

/-- 40-bit position as 64 bits, sign-extended. -/
def pos64 (p : Int) : Nat := wrapInt 64 (signed 40 (wrapInt 40 p))

/-- REVERSED is entered: the error and the event (R216). -/
def enterReversed (inj : Bool) (s : State) : State :=
  let s := reverseStrobes s
  let s := s.setCad { s.cad with fw := .reversed }
  let s := raise 12 s.encoder none 0 inj s
  event 0x0F0A s.encoder (twoWords (pos64 s.cad.pos) ++ twoWords (pos64 s.cad.hw)) s

/-- The freewheel after a count (R215). In ABSORB a count that reaches *H* leaves *H* as it is. -/
def freewheel (inj : Bool) (s : State) : State :=
  let c := s.cad
  if s.dev ≠ .printing then fallLine (s.setCad { c with hw := c.pos, fw := .track })
  else
    let w : Int := s.get R.cadCtrl_FWWIN
    match c.fw with
    | .reversed => if c.hw < c.pos then s.setCad { c with fw := .forward, hw := c.pos } else s
    | _ =>
      if c.pos < c.hw - w then enterReversed inj s
      else if c.pos < c.hw then s.setCad { c with fw := .absorb }
      else s.setCad { c with fw := .forward, hw := if c.fw = .absorb then c.hw else c.pos }

/-- An accepted count by `d` (R204, R208, R211). *F* has followed the web down until then (R210). The count of line starts begins again
where standstill ends (R217). An illegal step of two counts enters the count period as one interval, for R211 does not say how it enters (log entry
132: DESIGN CHOICE). -/
def countBy (d : Int) (inj : Bool) (s : State) : State :=
  let u := s.tick
  let s := keepPast (noteE (u - 1) (fallLine (s.tally 0x0401 0 d.natAbs)))
  let s := if s.cad.still then s.setCad { s.cad with periods := [], starts := 0, prevStart := none } else s
  let dir : Int := if d < 0 then -1 else 1
  let c := s.cad
  let intervals := if dir ≠ c.lastDir then [] else ((u - c.tc) :: c.intervals).take 8
  freewheel inj (s.setCad { c with pos := c.pos + d, lastDir := dir, intervals := intervals, tc := u, tcChain := s.chainAt (u * 2500), still := false })

/-- An illegal transition: two counts in the direction of the last legal one; two within 256 accepted changes are a fault
(R204, R207). With no earlier direction it adds 2, whatever INV, which R204 does not say (log entry 133: DESIGN CHOICE). -/
def illegalCount (inj fault : Bool) (s : State) : State :=
  let x := s.encoder
  let s := countBy (if s.cad.lastDir < 0 then -2 else 2) false s
  let s := raise 10 x none 0 inj (s.bump R.cadIllegal_COUNT)
  let two : Bool := match s.cad.lastIllegal with | some n => decide (s.cad.changes - n < 256) | none => false
  let s := s.setCad { s.cad with lastIllegal := some s.cad.changes }
  let s := if s.cad.fault then s.setCad { s.cad with lockFrom := s.now } else s
  if two then
    let s := unlock (raise 11 x none 0 fault s)
    s.setCad { s.cad with lockFrom := s.now, fault := true }
  else s

/-- Counts fed to the decoder one after the other. -/
def feed : List Int → State → State
  | [], s => s
  | d :: r, s => feed r (countBy d true s)

/-- The unit takes counts from the encoder's inputs: the selected encoder, with its balls claimed (R202). -/
def State.counts (s : State) (enc : Bool) : Bool :=
  !s.follows && decide (s.encoder = b2n enc) && (!enc || decide (s.owner false 0 = 2))

/-- The levels of encoder 1 stand on balls of group G0, each pair true and inverted (R38, R42). -/
def tellEncoder (enc a b : Bool) (s : State) : State :=
  if enc then (((s.tellBall 0 a).tellBall 1 (!a)).tellBall 2 b).tellBall 3 (!b) else s

/-- An accepted change of A and B (R203, R204), with the injections of R429. -/
def execEncoderCount (t : Nat) (enc a b : Bool) (s : State) : Result :=
  live t s fun s =>
    let s := tellEncoder enc a b s
    if s.counts enc = false ∨ (s.cad.a = a ∧ s.cad.b = b) then s
    else
      let step := quadStep s.cad.a s.cad.b a b * (if s.flag R.cadCtrl_INV then -1 else 1)
      let s := s.setCad { s.cad with a := a, b := b, changes := s.cad.changes + 1 }
      let x := b2n enc
      if armedFor 10 x s then illegalCount true false (disarm s)
      else if armedFor 11 x s then illegalCount false true (illegalCount false true (disarm s))
      else
        let s := if step = 0 then illegalCount false false s else countBy step false s
        if armedFor 12 x s ∧ s.dev = .printing then
          let w := s.get R.cadCtrl_FWWIN + 1
          feed (List.replicate w (-1) ++ List.replicate w 1) (disarm s)
        else s

/-- A rising edge of Z (R206): after the counts of its tick. -/
def execZEdge (t : Nat) (enc : Bool) (s : State) : Result :=
  live t s fun s =>
    let s := if enc then (s.tellBall 4 true).tellBall 5 false else s
    if s.counts enc then s.setCad { s.cad with zpos := s.cad.pos } else s

/-- No count for 16 periods or 2^20 ticks (R212, R217). -/
def execStandstill (t : Nat) (s : State) : Result :=
  live t s fun s =>
    let quiet := s.tick - s.cad.tc
    let long := match s.cad.tc8 with | some p => decide (p ≤ quiet * 16) | none => false
    if s.follows ∨ s.cad.still ∨ (long = false ∧ quiet < 2 ^ 20) then s
    else
      let s := keepPast (noteE (s.tick - 1) (fallLine s))
      fallLine (endCount (s.setCad { s.cad with still := true }))

/-! Marks (R223 to R229). -/

/-- A mark fault: the error, the event, and a pause under policy bit 3 (R227, R228). -/
def markFault (ch g : Nat) (ye : Int) (id code : Nat) (line : Int) (inj : Bool) (s : State) : State :=
  let s := raise id ch none 0 inj s
  let s := event 0x0F09 (ch * 256 + g) [code, wrapInt 32 line] s
  let sg := s.seg ch g
  match s.job with
  | none => s
  | some j =>
    if bitOf j.policy 3 = false then s
    else
      let first := match s.printsAt ch ye sg.first (sg.first + sg.width) with
        | [] => s.baseOff (homeOf ch g)
        | e :: r => r.foldl (fun m x => min m x.2) e.2
      decideHalt (max (ye + first + s.shift) (s.fire + 1)) 0 s

/-- A mark of a source in fire line `fm`, for one following segment. -/
def markSegment (ch g : Nat) (fm : Int) (inj : Bool) (s : State) : State :=
  let sg := s.seg ch g
  match sg.ye with
  | none => s
  | some ye =>
    let ym := fm - s.shift + sg.u
    if sg.suppressed ∧ inj = false then s
    else if (sg.win : Int) < (ym - ye).natAbs then markFault ch g ye 13 1 fm inj s
    else match sg.accepted with
    | none => s.setSeg ch g { sg with accepted := some ym }
    | some _ => s.bump R.cadMk_DUP ch g

/-- The start on a mark (R229): the first line to print becomes *F_m* + *U*; after `JOB_RESTORE` that line carries job line *j_c* (R109). -/
def startMark (fm : Int) (s : State) : Option State :=
  match s.job with
  | none => none
  | some j =>
    match j.startAt, j.y0, s.markSeg with
    | some (f, true), none, some e =>
      if f ≤ fm ∧ (s.dev = .armed ∨ s.dev = .printing) then
        let s := s.setJob (some { j with startAt := if s.dev = .printing then none else some (f, false) })
        some (setOrigin (fm + (s.seg e.1 e.2).u - j.jc.getD 0) s)
      else none
    | _, _, _ => none

/-- A mark of source 1 or 2 acts. -/
def markActs (src : Nat) (fm : Int) (s : State) : State :=
  match (if src = 1 ∧ s.follows = false then startMark fm s else none) with
  | some s' => s'
  | none =>
    if s.dev ≠ .printing then s
    else forEach (s.jobSegs.filter fun e => decide ((s.seg e.1 e.2).src = src)) s fun e s => markSegment e.1 e.2 fm false s

/-- A mark edge that counts, at the last of its 40 high ticks: its position is *E* at the first of them (R223; log entry 23). -/
def execMarkEdge (t : Nat) (mark1 : Bool) (s : State) : Result :=
  live t s fun s =>
    let s := if mark1 then s.tellBall 6 true else s
    if mark1 ∧ s.owner false 1 ≠ 2 then s
    else
      let e := s.eAt (s.tick - 39)
      let fm := s.fireOf e
      let s := if mark1 then s
        else s.setCad { s.cad with markPos := Int.fdiv e 65536, markSeq := (s.cad.markSeq + 1) % 2 ^ 32, recChanged := true }
      markActs (if mark1 then 2 else 1) fm s

/-- The smallest decode reference *D_s* of the ports whose jets print a segment (R225, R467). -/
def State.segRef (s : State) (ch g : Nat) (y : Int) : Nat :=
  match ((List.range 4).filter fun k => s.printsOn (4 * ch + k) ch g y).map fun k => s.dRef (4 * ch + k) y with
  | [] => s.baseOff (homeOf ch g)
  | l => listMin l

/-- The fire line at whose start the boundary expected at `ye` is fixed. -/
def State.fixLine (s : State) (ch g : Nat) (ye : Int) : Int :=
  ye - (s.seg ch g).slew + s.segRef ch g ye - (s.chan ch).l + s.shift

/-- The boundary is fixed (R225, R226, R228). -/
def fixBoundary (ch g : Nat) (ye : Int) (s : State) : State := watchRunway ch g fix s
where
  /-- the boundary itself; a page that ends early takes lines from the runway -/
  fix (s : State) : State :=
  let sg := s.seg ch g
  let m : Int := sg.slew
  let d := match sg.accepted with | some ym => max (-m) (min m (ym - ye)) | none => 0
  let miss := if sg.accepted.isSome then 0 else sg.miss + 1
  let lost := decide (miss = sg.missLimit)
  let s := (s.put R.cadMk_MISS (min 255 miss) ch g).put R.cadMk_ACCEPT (b2n sg.accepted.isSome) ch g
  let s := s.put R.cadMk_DELTA (wrapInt 9 d) ch g
  let s := if sg.accepted.isSome then s.put R.cadMk_LOST 0 ch g else if lost then s.put R.cadMk_LOST 1 ch g else s
  let sg' : SegSt := { sg with deltas := sg.deltas ++ [(sg.fixPage, d)], fixPage := sg.fixPage + 1, ye := some (ye + d + sg.pageLen) }
  let s := s.setSeg ch g { sg' with accepted := none, miss := miss, suppressed := sg.suppressed && !lost }
  let s := boundaryKnown ch g (ye + d) s
  if lost ∧ sg.accepted.isNone then markFault ch g ye 14 2 s.fire sg.suppressed s else s

/-- A boundary falls due to be fixed, before the start line too where its page is short: none is from a pause until the resume (R220,
R225). -/
def execBoundaryFix (t : Nat) (ch : Chan) (g : Seg) (s : State) : Result :=
  live t s fun s =>
    match (s.seg ch g).ye with
    | none => s
    | some ye =>
      if ¬ (s.dev = .printing ∨ s.dev = .armed) ∨ s.inJob ch (s.seg ch g) = false ∨ s.fire < s.fixLine ch g ye then s else fixBoundary ch g ye s

/-- Injections of marks act at a line start (R429). -/
def injectMarks (s : State) : State :=
  if s.dev ≠ .printing then s
  else forEach (List.range 4) s fun ch s =>
    let segs := s.jobSegs.filter fun e => decide (e.1 = ch ∧ 0 < (s.seg e.1 e.2).src)
    if segs = [] then s
    else if armedFor 13 ch s then forEach segs (disarm s) fun e s => markSegment e.1 e.2 (s.fireOf s.e) true s
    else if armedFor 14 ch s then forEach segs (disarm s) fun e s => s.setSeg e.1 e.2 { s.seg e.1 e.2 with suppressed := true }
    else s

/-- The next line starts when *E* reaches its threshold (R213, R216). -/
def execLineStart (t : Nat) (s : State) : Result :=
  liveReading [0, 1, 2, 3, 7, 21] t s fun s =>
    if s.cad.everLocked = false ∨ s.reached (s.cad.line + 1) 0 = false then s else injectMarks (startLine (s.cad.line + 1) s)

/-! Commands. -/

def cadConfigRow : OpRow := { op := 0x0501, argw := 4, states := [.ready] }
def cadConfigFail (c : Cmd) (_ : State) : Option (Nat × Nat) :=
  if 1 < cmdNat c 1 ∨ cmdNat c 2 < 0x100000 ∨ 15 < cmdNat c 3 ∨ 1 < cmdNat c 4 then some (stBadArgument, 0) else none
def cadConfigAct (c : Cmd) (s : State) : Reply :=
  let e := cmdNat c 1
  let claim := if e = 1 then claimFor false 0 2 s else (true, s)
  if claim.1 = false then { status := stConflict, s := claim.2 }
  else
    let s := claim.2
    let same := s.cad.selected = some (decide (e = 1))
    let s := ((s.put R.cadCtrl_FWWIN (cmdNat c 3)).put R.cadCtrl_INV (cmdNat c 4)).put R.cadCtrl_ENC e
    let s := s.put R.cadPitch_K (cmdNat c 2)
    let s := if same then s else selectEncoder s
    let s := s.setCad { s.cad with selected := some (decide (e = 1)) }
    { s := rebase s }

def cadSpeedRow : OpRow := { op := 0x0502, argw := 4, states := [.ready] }
def cadSpeedFail (c : Cmd) (_ : State) : Option (Nat × Nat) :=
  if 1048575 < cmdNat c 1 ∨ cmdNat c 2 < 1 ∨ 1000 < cmdNat c 2 ∨ 256 < cmdNat c 3 ∨ cmdNat c 4 < 5000 ∨ 65535 < cmdNat c 4 then
    some (stBadArgument, 0) else none
def cadSpeedAct (c : Cmd) (s : State) : Reply :=
  let s := (s.put R.cadWarncfg_WARNPER (cmdNat c 1)).put R.cadWarncfg_HORIZON (cmdNat c 2)
  { s := (s.put R.cadFirecfg_SLACK (cmdNat c 3)).put R.cadFirecfg_MINPER (cmdNat c 4) }

def cadMarkRow : OpRow := { op := 0x0503, argw := 8, states := [.ready] }
def cadMarkFail (c : Cmd) (s : State) : Option (Nat × Nat) :=
  let ch := cmdNat c 1
  let n := cmdNat c 8
  let (u, w, m, q) := (cmdNat c 4, cmdNat c 5, cmdNat c 6, cmdNat c 7)
  let follows := decide (w ≤ 4095 ∧ m ≤ 255 ∧ m < n ∧ 1 ≤ q ∧ q ≤ 255 ∧ w + m + (s.chan ch).l + 2 ≤ u ∧ u ≤ 16777215)
  if 3 < ch ∨ (s.chan ch).configured = false ∨ 127 < cmdNat c 2 ∨ 2 < cmdNat c 3 ∨ n = 0 ∨ 16777215 < n ∨ (cmdNat c 3 ≠ 0 ∧ follows = false) then
    some (stBadArgument, 0) else none
def cadMarkAct (c : Cmd) (s : State) : Reply :=
  let src := cmdNat c 3
  let claim := if src = 2 then claimFor false 1 2 s else (true, s)
  if claim.1 = false then { status := stConflict, s := claim.2 }
  else
    let s := claim.2
    let g := s.seg (cmdNat c 1) (cmdNat c 2)
    { s := s.setSeg (cmdNat c 1) (cmdNat c 2) { g with src := src, u := cmdNat c 4, win := cmdNat c 5, slew := cmdNat c 6, missLimit := cmdNat c 7,
                                                       pageLen := cmdNat c 8 } }

def cadStatusRow : OpRow := { op := 0x0504, argw := 0, states := anyState }
def cadStatusAct (_ : Cmd) (s : State) : Reply :=
  { s := s, words := twoWords (pos64 s.cad.pos) ++
      [s.get R.cadLineper_TN, b2n s.cadLocked + 2 * b2n (decide (s.fwNow = .reversed)) + 4 * b2n s.cad.warn] }

/-- A read of `CAD_POSLO` captures *P*, *H*, the Z position and *F* for the reading master (R208). -/
def capturePos (m : Master) (s : State) : Word × State :=
  let v := [wrapInt 40 s.cad.pos, wrapInt 40 s.cad.hw, wrapInt 40 s.cad.zpos, wrapInt 64 s.fire]
  (BitVec.ofNat 32 (wrapInt 40 s.cad.pos), s.setCad { s.cad with caps := nset [] s.cad.caps m.num v })

def execCadPosloRead (t : Nat) (m : Master) (s : State) : Result :=
  liveRead m t s fun s => (capturePos m s).2.emit (.readData (capturePos m s).1)

def execCadConfig (t : Nat) (c : Cmd) (s : State) : Result := command t c s (runCommand cadConfigRow cadConfigFail cadConfigAct)
def execCadSpeed (t : Nat) (c : Cmd) (s : State) : Result := command t c s (runCommand cadSpeedRow cadSpeedFail cadSpeedAct)
def execCadMark (t : Nat) (c : Cmd) (s : State) : Result := command t c s (runCommand cadMarkRow cadMarkFail cadMarkAct)
def execCadStatus (t : Nat) (c : Cmd) (s : State) : Result := command t c s (runCommand cadStatusRow noFail cadStatusAct)

end Sys2Proof.Machine
end

