-- ==== Sys2Proof/Machine/Links.lean ====
section
/-!
DEFINITION. Head ports and links (spec 11): `HP_CONFIG`, `HP_ROWGROUP`, `HP_STROBE`, `HP_TEMPTABLE`, `HP_LINK`; frames sent and
received (R236 to R249); link state (R242, R250). Lane basics that the ports use (R264 to R268).
-/
namespace Sys2Proof.Machine

/-! Lanes (R264 to R268). -/

/-- The default coefficients of a rate: PRE, MAIN, POST (R270). -/
def txDefaults (rate : Nat) : Nat × Nat × Nat := if rate = 0 then (0, 56, 4) else if rate = 1 then (0, 54, 6) else (4, 46, 10)

/-- The control firmware loads the defaults for the rate that it sets. -/
def loadTxeq (l rate : Nat) (s : State) : State :=
  let (pre, main, post) := txDefaults rate
  ((s.put R.lnsTxeq_PRE pre l).put R.lnsTxeq_MAIN main l).put R.lnsTxeq_POST post l

/-- The lanes at a rate (R265). -/
def State.lanesAt (s : State) (rate : Nat) : List Nat := (List.range 24).filter fun l => s.laneOn l && decide (s.laneRate l = rate)

/-- A lane PLL runs while a lane uses its rate; each lane shows the lock of its rate's (R265, R268). -/
def settlePlls (s : State) : State :=
  let s := { s with lanePll := s.lanePll.filter fun r => !(s.lanesAt r).isEmpty }
  forEach (List.range 24) s fun l s => s.put R.lnsStat_PLL (b2n (s.laneOn l && s.lanePll.contains (s.laneRate l))) l

/-- CTLE peaking and the five DFE taps as they stand, free values: they adapt with every bit received, and `FREEZE` holds those of the
instant at which it is set (R268, R270). -/
def adaptLane (l : Nat) (s : State) : State :=
  let now := (List.range 6).map fun i => Config.freeNat (s.freeCount + i)
  { s with freeCount := s.freeCount + 6, laneEq := mapInsert natLt l now (s.laneEq.filter fun e => decide (e.1 ≠ l)) }

/-- A fabric lane's block lock as its port shows it. -/
def lockField (j : Nat) : Fld := if j = 0 then R.fabPstat_L0LOCK else R.fabPstat_L1LOCK

/-- Block lock is lost: each loss counts (R267). -/
def blockLost (l : Nat) (s : State) (inj : Bool := false) : State :=
  let s := (raise 25 l none 0 inj (s.bump R.lnsStat_LOSSES l)).put R.lnsStat_LOCK 0 l
  if l < 16 then s else s.put (lockField (fabLane l).2) 0 (fabLane l).1

/-- A lane that has block lock loses it. -/
def dropLock (l : Nat) (s : State) : State := if s.flag R.lnsStat_LOCK l then blockLost l s else s

/-- The receiver restarts at bring-up step 3: adaptation starts again, whatever `FREEZE` holds (R268, R270). -/
def laneRestart (l : Nat) (s : State) : State :=
  let s := { s with laneEq := s.laneEq.filter fun e => decide (e.1 ≠ l) }
  ((s.put R.lnsStat_CDR 0 l).put R.lnsStat_ADAPTED 0 l).put R.lnsStat_LOCK 0 l

/-- The lane is disabled. -/
def laneOff (l : Nat) (s : State) : State := settlePlls (laneRestart l s)

/-- A test mode that keeps traffic off the lane (R272). -/
def State.laneTested (s : State) (l : Nat) : Bool :=
  s.flag R.lnsCtrl_GENEN l || s.flag R.lnsCtrl_CHKEN l || decide (s.get R.lnsCtrl_LOOP l = 1 ∨ s.get R.lnsCtrl_LOOP l = 2)

/-! Link state (R242, R250). -/

/-- A frame not judged when the link goes down awaits no edge any more, and one that came does not confirm it: strobes resume with the first
frame confirmed after the link returns (R250). -/
def loseFrame (p : Nat) (s : State) : State :=
  match (s.port p).frame with
  | some x => if x.judged then s else s.setPort p { s.port p with frame := some { x with awaiting := false, sosAt := none } }
  | none => s

/-- The link of a port goes down: on an armed port the error is raised once. -/
def headDown (p : Nat) (inj : Bool) (s : State) : State :=
  let was := s.flag R.hptPstat_LINKUP p
  let s := (loseFrame p s).setPort p { (loseFrame p s).port p with rxUp := false, farUp := false, aseqRun := 0, rx := none }
  let s := s.put R.hptPstat_LINKUP 0 p
  if was ∧ s.flag R.hptPstat_ARMED p then raise 19 p none 0 inj s else s

/-- The END block of a frame completes now, or, after frames of the same instant, behind them; an ALIGN block follows it (R237, R242; log entry 91).
What the lane sent before, and injections written since then, act on its blocks (R266, R274). -/
def sendFrame (p : Nat) (start data : List Byte) (s : State) : State :=
  let bs := frameBlocks start data
  s.transmit fun r =>
    let r := s.makeRoom p (bs.length + 1) (s.upTo p (s.now - bs.length * s.slotPs p) r)
    let a := s.putAligns p (bs.foldl (s.putBlock p) ([], r.1))
    (a.2, r.2 ++ [.frame p (a.1.map (·.2))])

/-- The CONFIG frame of a module: four words at address 0 (R240, R244). -/
def configFrame (p m : Nat) (s : State) : State :=
  let w := sliceWidth (s.get R.hptPcfg_MODULES p)
  let b := (s.chan (p / 4)).b
  let data := [b, m * w, w, p + 256 * s.memberId].flatMap (leBytes 4)
  sendFrame p ([2, BitVec.ofNat 8 m] ++ leBytes 2 0 ++ [4, 0, 0]) data s

/-- CONFIG frames to every module of a port. -/
def configModules (p : Nat) (s : State) : State := forEach (List.range (s.get R.hptPcfg_MODULES p)) s fun m s => configFrame p m s

/-- An open `HP_LINK` that brings the port up. -/
def State.linkOpen (s : State) (p : Nat) : Bool := s.fw.opens.any fun o => decide (o.op = 0x0605 ∧ cmdNat o.cmd 1 = p ∧ cmdNat o.cmd 2 = 1)

/-- The link comes up: the frame sequence begins at 0 and no module has answered (R239, R244). -/
def headUp (p : Nat) (s : State) : State :=
  let s := (s.put R.hptPstat_LINKUP 1 p).put R.hptPstat_MODANS 0 p
  let s := s.setPort p { s.port p with seq := 0, upSince := s.now, answered := 0, askedAt := s.now }
  if s.linkOpen p then configModules p s else s

/-- The link state that both receive sides give. -/
def settleLink (p : Nat) (s : State) : State :=
  let up := (s.port p).rxUp && (s.port p).farUp && s.flag R.hptPcfg_UP p
  if up = s.flag R.hptPstat_LINKUP p then s else if up then headUp p s else headDown p false s

/-- An ALIGN block at a port (R242): four consecutive ones under block lock raise the receive side; a SENDER of 0xF0 + *n* - 1 is
the far end's sign that its own side is up (log entry 25). -/
def takeAlign (p aseq sender : Nat) (s : State) : State :=
  if s.flag R.hptPcfg_UP p = false ∨ s.flag R.lnsStat_LOCK p = false ∨ s.laneTested p = true ∨ armedFor 19 p s = true then s
  else
    let h := s.port p
    let run := if h.aseqRun ≠ 0 ∧ aseq = (h.lastAseq + 1) % 65536 then min 4 (h.aseqRun + 1) else 1
    let far := decide (sender = 0xF0 + s.get R.hptPcfg_MODULES p - 1)
    settleLink p (s.setPort p { h with aseqRun := run, lastAseq := aseq, lastAlign := s.now, rxUp := h.rxUp || decide (4 ≤ run), farUp := far })

def execHeadAlignBlock (t : Nat) (p : Port) (aseq : BitVec 16) (sender : Byte) (s : State) : Result :=
  live t s fun s => takeAlign p aseq.toNat sender.toNat s

/-- 8,192 blocks without an ALIGN: the receive side goes down (R242, R250). -/
def execHeadLinkDown (t : Nat) (p : Port) (s : State) : Result :=
  live t s fun s =>
    let h := s.port p
    if h.rxUp = false ∨ s.now < h.lastAlign + 8192 * blockPs (s.laneRate p) then s
    else if armedFor 19 p s then headDown p true (disarm s) else headDown p false s

/-! Telemetry (R241, R243, R250). -/

/-- A received frame, or a data block outside any, is discarded. -/
def discardFrame (p : Nat) (inj : Bool) (s : State) : State := raise 16 p none 0 inj (s.bump R.hptLinkerr_FRAMEERR p)

/-- KIND 0 answers a CONFIG frame; KIND 1 is a module's status. `start` is START bytes 1 to 7. -/
def takeTelemetry (p : Nat) (start data : List Byte) (s : State) : State :=
  let m := (start.getD 1 0).toNat % 8
  let kind := (start.getD 2 0).toNat
  if s.get R.hptPcfg_MODULES p ≤ m then s
  else if kind = 0 ∧ fieldAt start 3 2 = 0 ∧ s.flag R.hptPstat_LINKUP p then
    (s.setPort p { s.port p with answered := (s.port p).answered ||| 2 ^ m }).put R.hptPstat_MODANS (s.get R.hptPstat_MODANS p ||| 2 ^ m) p
  else if kind = 1 then
    let x : ModTel := { temp := signed 16 (fieldAt data 0 2), valid := bitOf (fieldAt data 6 2) 0, at_ := s.now }
    let h := s.port p
    s.setPort p { h with tel := mapInsert natLt m x (h.tel.filter fun e => decide (e.1 ≠ m)), lostRaised := h.lostRaised.filter fun k => decide (k ≠ m) }
  else s

/-- A frame ends with the check of its END block (R243); an armed injection discards a good one (R429). -/
def endFrame (p : Nat) (start data crc : List Byte) (blocksOk : Bool) (s : State) : State :=
  let inj := armedFor 16 p s
  let s := (if inj then disarm s else s)
  let ok := blocksOk && decide (crc = leBytes 4 (crc32c (start ++ data)).toNat) && decide (start.headD 0 = 3 ∧ data.length = 16) && !inj
  if ok then takeTelemetry p start data s else discardFrame p inj s

/-- A block received at a port (R236, R242, R243). -/
def takeBlock (p : Nat) (b : Block) (s : State) : State :=
  let h := s.port p
  let inside (f : Option (List Byte × List Byte × Bool)) (s : State) : State := s.setPort p { s.port p with rx := f }
  match blockKind b, h.rx with
  | .bad, some (st, d, _) => inside (some (st, d, false)) (s.bump R.hptLinkerr_BLOCKERR p)
  | .bad, none => s.bump R.hptLinkerr_BLOCKERR p
  | .data, some (st, d, ok) => inside (some (st, d ++ blockBytes b, ok)) s
  | .data, none => discardFrame p false s
  | .start, some _ => inside (some ((blockBytes b).drop 1, [], true)) (discardFrame p false s)
  | .start, none => inside (some ((blockBytes b).drop 1, [], true)) s
  | .fin, some (st, d, ok) => endFrame p st d (((blockBytes b).drop 1).take 4) ok (inside none s)
  | .align, _ => takeAlign p (fieldAt (blockBytes b) 2 2) (fieldAt (blockBytes b) 4 1) s
  | .idle, _ | .fin, none => s

/-- Blocks from the head end (R241, R243, R266). -/
def execTelemetryFrame (t : Nat) (p : Port) (r : Received) (s : State) : Result :=
  live t s fun s =>
    if s.flag R.hptPcfg_UP p = false ∨ s.laneTested p = true ∨ armedFor 20 p s = true then s
    else forEach (offLane r.before r.blocks) s fun b s => takeBlock p b s

/-- Ten ms without KIND 1 telemetry from a module: raised once until it reports again (R250). -/
def execModuleLost (t : Nat) (p : Port) (m : Fin 8) (s : State) : Result :=
  live t s fun s =>
    let h := s.port p
    let last := max h.upSince (match h.tel.lookup m.val with | some x => x.at_ | none => 0)
    if s.flag R.hptPcfg_UP p = false ∨ h.upSince = 0 ∨ s.get R.hptPcfg_MODULES p ≤ m ∨ h.lostRaised.contains m.val ∨ s.now < last + 10000000000 then s
    else
      let inj := armedFor 20 p s
      let s := if inj then disarm s else s
      raise 20 p none 0 inj (s.setPort p { h with lostRaised := m.val :: h.lostRaised })

/-! LINE frames (R239, R246, R247). -/

/-- The payload: port jet *i* in bits *b·i* to *b·i* + *b* - 1. -/
def linePayload (b jets : Nat) (codes : List (Nat × Nat)) : List Byte :=
  leBytes (jets * b / 8) (codes.foldl (fun m e => m + e.2 % 2 ^ b * 2 ^ (b * e.1)) 0)

/-- The line whose frame is next: the one in progress while it fires late and has none, else the one after (R247). -/
def State.frameLine (s : State) (p : Nat) : Int :=
  match s.cad.cur with
  | some l =>
    let sent : Bool := match (s.port p).frame with | some x => decide (l.f ≤ x.f) | none => false
    if sent = false ∧ s.now < l.fired then l.f else s.cad.line + 1
  | none => s.cad.line + 1

/-- The predicted fired start: the predicted trigger, or later by the minimum period after the line before (R218, R247). -/
def State.predictFired (s : State) (f : Int) : Option Nat :=
  (s.predict f).map fun u => match s.cad.prevFired with
    | some v => max u (v + s.get R.cadFirecfg_MINPER * 1000)
    | none => u

/-- The fired start of a line, known or predicted (R247). -/
def State.startOf (s : State) (f : Int) : Option Nat :=
  match s.cad.cur with
  | some l => if l.f = f then some l.fired else s.predictFired f
  | none => s.predictFired f

/-- A fire line has a frame while the device is ARMED or PRINTING: at or after the start line, before a line at which a pause
stops the job, and not for a line at which the job has ended (R129, R246; log entry 35). -/
def State.frameWanted (s : State) (f : Int) : Bool :=
  match s.job with
  | none => false
  | some j =>
    let first := match j.startLine, j.startAt with | some g, _ => some g | none, some (g, _) => some g | none, none => none
    let stops := [j.pauseAt, j.haltAt.map (·.1)].filterMap id
    match s.dev, first with
    | .armed, some g => decide (g ≤ f) && stops.all fun h => decide (f < h)
    | .printing, some g => decide (g ≤ f) && stops.all (fun h => decide (f < h)) && !s.jobOver f
    | _, _ => false

/-- A strobe of the line before may still fire, or fell less than 10 ns ago (R247, instant 3). -/
def State.strobesBusy (s : State) (p : Nat) (f : Int) : Bool :=
  let g := f - 1
  let issues := s.printing && s.fires p g
  (List.range 4).any fun k => (s.strobe p k).high || decide ((s.strobe p k).fallAt ≠ 0 ∧ s.now < (s.strobe p k).fallAt + 10000)
    || (issues && (s.strobesOf p g).any fun e => decide (e.1 = k) && s.strobePending p k g)

/-- Blocks of a LINE frame, from START to END (R239). -/
def State.lineBlocks (s : State) (p : Nat) : Nat := s.sentJets p * (s.chan (p / 4)).b / 64 + 2

/-- The codes of a line are not complete, or were not a frame's duration ago (R247, instant 2). -/
def State.codesWait (s : State) (p : Nat) (f : Int) : Bool :=
  ((s.rowsOf p f).any fun r => s.hubOwes p (s.imageLine p r f)) || decide (s.now < s.writtenAt p f + s.lineBlocks p * blockPs (s.laneRate p))

/-- The END block of a LINE frame completes. -/
def sendLine (p : Nat) (f : Int) (s : State) : State :=
  let n := s.get R.hptPcfg_MODULES p
  let b := (s.chan (p / 4)).b
  let h := s.port p
  let start := [1, BitVec.ofNat 8 ((n - 1) * 8 + (b - 1) * 64)] ++ leBytes 4 (wrapInt 32 f) ++ [BitVec.ofNat 8 h.seq]
  let s := s.setPort p { h with seq := (h.seq + 1) % 256, frame := some { f := f, awaiting := true, confirmed := false, sosAt := none, judged := false, endAt := s.now } }
  traceFire p f 4 (sendFrame p start (linePayload b (s.sentJets p) (s.lineCodes p f)) (s.tally 0x0301 p))

/-- The frame's END completes at the command's instant, not before the three instants of R247. -/
def execLineFrameSend (t : Nat) (p : Port) (s : State) : Result :=
  liveReading [0, 20] t s fun s =>
    let f := s.frameLine p
    let sent : Bool := match (s.port p).frame with | some x => decide (f ≤ x.f) | none => false
    let early : Bool := match s.startOf f with | some u => decide (s.now + s.sosWindow p < u) | none => true
    if s.flag R.hptPstat_ARMED p = false ∨ s.flag R.hptPstat_LINKUP p = false ∨ s.laneTested p = true ∨ s.frameWanted f = false ∨ sent ∨ early
      ∨ s.codesWait p f = true ∨ s.strobesBusy p f = true then s
    else sendLine p f s

/-! Start of scan (R248, R249). -/

/-- The sample at which an edge is accepted: the first of two that are high, the tick before this one (R248). -/
def State.sosTick (s : State) : Nat := (s.tick - 1) * 2500

/-- A frame awaits its edge: from the end of its END block until 40 ns before its fired start, which is known once the line is triggered
(R248). -/
def State.awaits (s : State) (p : Nat) : Bool :=
  match (s.port p).frame with
  | none => false
  | some x => x.awaiting && decide (x.endAt ≤ s.sosTick) && (match s.cad.cur with
    | some l => !decide (l.f = x.f) || decide (s.sosTick + 40000 ≤ l.fired)
    | none => true)

/-- An edge is accepted: the second of two consecutive high samples is taken now. -/
def sosAt (p : Nat) (inj : Bool) (s : State) : State :=
  match (s.port p).frame with
  | some x =>
    if s.awaits p ∧ inj = false then traceFire p x.f 5 (s.setPort p { s.port p with frame := some { x with awaiting := false, sosAt := some s.sosTick } })
    else raise 17 p none 0 inj (s.bump R.hptLinkerr_SPURIOUS p)
  | none => raise 17 p none 0 inj (s.bump R.hptLinkerr_SPURIOUS p)

/-- A rising edge of `SOS<p>`, seen at its second high sample; an armed injection adds an edge with no frame awaiting. -/
def execSosEdge (t : Nat) (p : Port) (s : State) : Result :=
  live t s fun s => if armedFor 17 p s then sosAt p false (sosAt p true (disarm s)) else sosAt p false s

/-- The confirmation window has closed, 40 ns before the fired start of a line that fires late, and the sample after its last is taken: the
line is judged. Before its trigger a line's fired start is not known and its frame still awaits (R248). -/
def execSosWindowClose (t : Nat) (p : Port) (s : State) : Result :=
  live t s fun s =>
    match (s.port p).frame, s.cad.cur with
    | some x, some l =>
      if l.f = x.f then (if l.fired < s.now + 37500 ∧ s.printing then settleRuns (judgeTo p l s) else s)
      else s
    | _, _ => s

/-! Configuration commands (R101, R201, R258). -/

def hpConfigRow : OpRow := { op := 0x0601, argw := 5, states := [.ready] }
/-- The port as the command would set it. -/
def hpConfigured (c : Cmd) (s : State) : State :=
  let p := cmdNat c 1
  let s := ((s.put R.hptPcfg_RATE (cmdNat c 2) p).put R.hptPcfg_MODULES (cmdNat c 3) p).put R.hptPcfg_SOSWIN (cmdNat c 5) p
  let s := s.put R.hptBaseoff_BASE (cmdNat c 4) p
  s.setPort p { s.port p with conf := true }
def hpConfigFail (c : Cmd) (s : State) : Option (Nat × Nat) :=
  if 15 < cmdNat c 1 ∨ 2 < cmdNat c 2 ∨ cmdNat c 3 = 0 ∨ 8 < cmdNat c 3 ∨ 131071 < cmdNat c 4 ∨ cmdNat c 5 < 100 ∨ 65535 < cmdNat c 5 then
    some (stBadArgument, 0)
  else
    let s := hpConfigured c s
    let ch := cmdNat c 1 / 4
    let T := (s.chan ch).active
    (firstFail [(reachBad s T ch, 0x0907), (skewBad s ch, 0x0909), (modulesBad s T ch, 0x0B01)]).map fun d => (stBadArgument, d)
/-- A rate that changes restarts the lane's bring-up, and with it its link; block lock is lost (R265, R267, R268). -/
def headRate (p was : Nat) (s : State) : State :=
  if s.get R.hptPcfg_RATE p = was ∨ s.flag R.hptPcfg_UP p = false then s else settlePlls (laneRestart p (headDown p false (dropLock p s)))
def hpConfigAct (c : Cmd) (s : State) : Reply :=
  let p := cmdNat c 1
  { s := headRate p (s.get R.hptPcfg_RATE p) (loadTxeq p (cmdNat c 2) (hpConfigured c (catchUp p s))) }

def hpRowgroupRow : OpRow := { op := 0x0602, argw := 5, states := [.ready] }
def rowgroupSet (c : Cmd) (s : State) : State :=
  let p := cmdNat c 1
  let r := cmdNat c 2
  (((s.put R.hptRg_OFFSET (cmdNat c 3) p r).put R.hptRg_STROBE (cmdNat c 4) p r).put R.hptRg_PHASE (cmdNat c 5) p r).put R.hptRg_CONF 1 p r
/-- Two configured row groups on one strobe differ in phase. -/
def phaseBad (s : State) (p : Nat) : Bool :=
  (List.range 8).any fun a => (List.range 8).any fun b => s.flag R.hptRg_CONF p a && s.flag R.hptRg_CONF p b &&
    decide (s.get R.hptRg_STROBE p a = s.get R.hptRg_STROBE p b ∧ s.get R.hptRg_PHASE p a ≠ s.get R.hptRg_PHASE p b)
def hpRowgroupFail (c : Cmd) (s : State) : Option (Nat × Nat) :=
  if 15 < cmdNat c 1 ∨ 7 < cmdNat c 2 ∨ 63 < cmdNat c 3 ∨ 3 < cmdNat c 4 ∨ 1023 < cmdNat c 5 then some (stBadArgument, 0)
  else
    let s := rowgroupSet c s
    let ch := cmdNat c 1 / 4
    let T := (s.chan ch).active
    (firstFail [(rowsBad s T ch, 0x0906), (reachBad s T ch, 0x0907), (staggerBad s T ch (s.chan ch).l, 0x0908),
      (phaseBad s (cmdNat c 1), 0x0B02)]).map fun d => (stBadArgument, d)
def hpRowgroupAct (c : Cmd) (s : State) : Reply := { s := rowgroupSet c s }

def hpStrobeRow : OpRow := { op := 0x0603, argw := 4, states := [.ready, .armed] }
def hpStrobeFail (c : Cmd) (_ : State) : Option (Nat × Nat) :=
  let v := cmdNat c 4
  if 15 < cmdNat c 1 ∨ 3 < cmdNat c 2 then some (stBadArgument, 0)
  else if cmdNat c 3 < 16 ∨ 16376 < cmdNat c 3 ∨ (v ≠ 0 ∧ (v < 1000 ∨ 60000 < v)) then some (stBadArgument, 0x0B06)
  else none
def hpStrobeAct (c : Cmd) (s : State) : Reply :=
  let s := s.put R.hptStrobe_W0 (cmdNat c 3) (cmdNat c 1) (cmdNat c 2)
  { s := if cmdNat c 4 = 0 then s else s.put R.hptVnom_V0 (cmdNat c 4) (cmdNat c 1) }

/-- E commands on a head port (R95). -/
abbrev portOps : List Nat := [0x0604, 0x0605]

/-- Another queue's open command with one of the opcodes, or its `JOB_ARM`, holds the port (R95). -/
def portHeld (c : Cmd) (ops : List Nat) (p : Nat) (s : State) : Bool :=
  heldElsewhere c ops p s || s.fw.opens.any fun o => decide (o.cmd.q ≠ c.q ∧ o.op = 0x0403) && bitOf (o.data.headD 0) p

def hpTemptableRow : OpRow := { op := 0x0604, argw := 5, states := [.ready, .armed] }
def hpTemptableFail (c : Cmd) (s : State) : Option (Nat × Nat) :=
  if 15 < cmdNat c 1 ∨ cmdNat c 4 ≠ 64 then some (stBadArgument, 0)
  else match stagingArea (cmdDword c 2) 64 s with
  | none => some (stBadArgument, 0)
  | some i => firstFail [(queueBusy c s, (stBusy, 0)), (!ownsStaging c i s || areaHeld c i s || portHeld c portOps (cmdNat c 1) s, (stConflict, 0))]
def hpTemptableAct (c : Cmd) (s : State) : Reply :=
  { s := openE 0x0604 c [cmdNat c 1, (stagingArea (cmdDword c 2) 64 s).getD 0 + 1] s }

/-- Temperatures that strictly rise. -/
def strictlyUp : List Int → Bool
  | a :: b :: r => decide (a < b) && strictlyUp (b :: r)
  | _ => true

/-- The staged table is tested and takes effect, or the table in force is kept (R104, R105, R252). -/
def execHpTemptableDone (t : Nat) (q : Queue) (s : State) : Result :=
  completion t 0x0604 q s fun o s =>
    let c := o.cmd
    let p := cmdNat c 1
    if o.lockLost then finish o stConflict 0 [] s
    else
      let r := dmaFetch (cmdDword c 2) 64 s
      match r.1 with
      | .bytes bs =>
        let s := r.2
        let entry (i : Nat) : Nat := fieldAt bs (4 * i) 4
        if crc32c bs ≠ c.w 5 then finish o stIntegrity 0 [] s
        else if strictlyUp ((List.range 16).map fun i => signed 16 (entry i)) = false then finish o stBadArgument 0x0B05 [] s
        else finish o stOk 0 [] (forEach (List.range 16) s fun i s =>
          (s.put R.hptTt_TEMP (entry i % 65536) p i).put R.hptTt_FACT (entry i / 65536) p i)
      | _ => finish o stIntegrity 0 [] r.2

def hpLinkRow : OpRow := { op := 0x0605, argw := 2, states := [.ready] }
def hpLinkFail (c : Cmd) (s : State) : Option (Nat × Nat) :=
  if 15 < cmdNat c 1 ∨ 1 < cmdNat c 2 then some (stBadArgument, 0)
  else firstFail [(queueBusy c s, (stBusy, 0)), (portHeld c (0x0A05 :: portOps) (cmdNat c 1) s, (stConflict, 0))]
def hpLinkAct (c : Cmd) (s : State) : Reply :=
  let p := cmdNat c 1
  let s := openE 0x0605 c [p, s.get R.hptPcfg_UP p, 0] s
  if cmdNat c 2 = 0 then
    let s := laneOff p (headDown p false (s.put R.hptPcfg_UP 0 p))
    { s := s.setPort p { s.port p with upSince := 0 } }
  else if s.flag R.hptPstat_LINKUP p then { s := configModules p (s.setPort p { s.port p with answered := 0, askedAt := s.now }) }
  else { s := settlePlls (s.put R.hptPcfg_UP 1 p) }

/-- The link is up and its modules have answered or had 10 ms; or it has not come up within 100 ms (R244). -/
def execHpLinkDone (t : Nat) (q : Queue) (s : State) : Result :=
  completion t 0x0605 q s fun o s =>
    let p := cmdNat o.cmd 1
    let mask := (s.port p).answered
    let all := (List.range (s.get R.hptPcfg_MODULES p)).all (bitOf mask)
    if cmdNat o.cmd 2 = 0 then finish o stOk 0 [0] s
    else if s.flag R.hptPstat_LINKUP p then (if all ∨ (s.port p).askedAt + 10000000000 ≤ s.now then finish o stOk 0 [mask] s else s)
    else if o.t0 + 100000000000 ≤ s.now then
      finish o stTimeout 0 [] (if o.data.getD 1 0 = 1 then s else laneOff p (headDown p false (s.put R.hptPcfg_UP 0 p)))
    else s

def execHpConfig (t : Nat) (c : Cmd) (s : State) : Result := command t c s (runCommand hpConfigRow hpConfigFail hpConfigAct)
def execHpRowgroup (t : Nat) (c : Cmd) (s : State) : Result := command t c s (runCommand hpRowgroupRow hpRowgroupFail hpRowgroupAct)
def execHpStrobe (t : Nat) (c : Cmd) (s : State) : Result := command t c s (runCommand hpStrobeRow hpStrobeFail hpStrobeAct)
def execHpTemptable (t : Nat) (c : Cmd) (s : State) : Result := command t c s (runCommand hpTemptableRow hpTemptableFail hpTemptableAct)
def execHpLink (t : Nat) (c : Cmd) (s : State) : Result := command t c s (runCommand hpLinkRow hpLinkFail hpLinkAct)

end Sys2Proof.Machine
end

