-- ==== Sys2Proof/Machine/Heads.lean ====
section
/-!
DEFINITION. Strobes and their watchdogs (R251, R255 to R257), widths and head temperature (R252 to R254, R382), arming
(R98, R245, R258) and the ledger's commands and timers (R262, R263).
-/
namespace Sys2Proof.Machine

/-! Strobes (R251). -/

/-- The width of a strobe at a line: the one in force at the line's fired start (R254). -/
def State.widthOf (s : State) (p k : Nat) (l : LineFire) : Nat :=
  match (s.port p).widths.find? fun e => decide (e.1 < l.fired) with
  | some e => e.2.getD k 0
  | none => 0

/-- Predicted rise of a strobe of line `f` with a phase (R213, R218). -/
def State.riseAt (s : State) (f : Int) (phi : Nat) : Option Nat :=
  match s.predictAt f phi, s.predict f, s.predictFired f with | some u, some a, some b => some (u + (b - a)) | _, _, _ => none

/-- The delay lines of a port may be measured now (R411): no strobe of the line is high or still due, 10 ns have passed since the last
fall, and the next predicted rise leaves a gap; where none is predicted, every 10 µs. -/
def State.mayMeasure (s : State) (p : Nat) : Bool :=
  let f := s.cad.line + 1
  let rises := if s.printing && s.flag R.hptPstat_ARMED p then (s.strobesOf p f).filterMap fun e => s.riseAt f e.2 else []
  !s.strobesBusy p f && match rises with
  | [] => decide ((s.port p).dlyAt = 0 ∨ (s.port p).dlyAt + 10000000 ≤ s.now)
  | u :: r =>
    let stop := r.foldl min u
    let start := listMax ((List.range 4).map fun k => (s.strobe p k).fallAt) + 10000
    decide (s.now + 20000 ≤ stop ∧ start + 80000 ≤ stop)

/-- A port's measurement, in a gap that allows it (R411, R412). -/
def execDelayMeasure (t : Nat) (p : Port) (m : List Nat) (s : State) : Result :=
  live t s fun s =>
    if s.mayMeasure p = false then s
    else forEach (m.zipIdx.take 4) (s.setPort p { s.port p with dlyAt := s.now }) fun e s => measureLine (4 * p.val + e.2) e.1 s

/-- The width lies within the ridge's limits (R17, item 5). -/
def State.widthOk (s : State) (p w : Nat) : Bool := decide (s.get R.rdgPortWidth_WMIN p ≤ w ∧ w ≤ s.get R.rdgPortWidth_WMAX p)

/-- The pulse rises; the interval of the fire period gate is measured from its line (R381). -/
def riseStrobe (p k : Nat) (l : LineFire) (s : State) : State :=
  let w := s.widthOf p k l
  let s := s.setStrobe p k { s.strobe p k with high := true, genHigh := true, riseAt := s.now, width := w, lastLine := some l.f }
  let s := s.setPort p { s.port p with periodRef := some l.fired }
  let s := match s.job with | some j => s.setJob (some { j with fired := true }) | none => s
  traceStrobe p k ((s.strobesOf p l.f).map (·.1)) l.f ((s.tally 0x0303 p).emit (.strobeRise p k w))

/-- The strobe of line `l` is due: it rises, or is passed over with the ledger entry of the cause that stops it here
(R251, R255, R257). A cause that has come since the line was judged, before any strobe of it rose, stands alone (R260). A width outside
the ridge's limits is not issued; the strobe's link of the integrity chain names its cause (R17; log entry 92). -/
def dueStrobe (p k : Nat) (l : LineFire) (s : State) : State :=
  let s := judgeTo p l s
  if l.dropped || !s.fires p l.f then passStrobe p k l.f s
  else if hpen s p = false then
    let part := s.someIssued p l.f
    let s := if part then s else retract p l.f s
    passStrobe p k l.f (ledgerLine p 0xFF 8 part l.f (if part then l.ctFired else l.ctTrig) s)
  else if wdFault s p k ∨ s.widthOk p (s.widthOf p k l) = false then passStrobe p k l.f (ledgerLine p 0xFF 7 true l.f l.ctFired s)
  else riseStrobe p k l s

/-- The lateness of a line has passed since its strobe with phase `phi` fell due (R218): *E* had reached the threshold one lateness ago. -/
def State.latenessPassed (s : State) (l : LineFire) (phi : Nat) : Bool :=
  let late := l.fired - l.trigger
  if late = 0 ∨ phi = 0 then true
  else
    let (k, p0, fb) := s.pitch
    decide (((l.f - fb) * 1024 + phi) * k ≤ (s.eAt ((s.now - late) / 2500) - p0 * 65536) * 16384)

/-- The oldest line of which a strobe has fallen due, among those that may still fire at the port (R218). -/
def State.strobeLine (s : State) (p k : Nat) : Option LineFire :=
  s.liveLines.find? fun l => match (s.strobesOf p l.f).lookup k with
    | some phi => !l.dropped && (!s.judged p l.f || s.fires p l.f) && s.strobePending p k l.f && s.reached l.f phi && decide (l.fired ≤ s.now) && s.latenessPassed l phi
    | none => false

/-- A strobe of a line has fallen due. In PAUSED no strobe rises: those of a line that fires late
across the boundary are held low (R27; log entry 89). -/
def execStrobeDue (t : Nat) (p : Port) (k : StrobeIx) (s : State) : Result :=
  live t s fun s =>
    match s.strobeLine p k with
    | none => s
    | some l =>
      if s.flag R.hptPstat_ARMED p = false ∨ s.printing = false then passStrobe p k l.f s
      else if s.fwNow = .reversed then s
      else endAfterStrobe (dueStrobe p k l s)

/-- The generator's pulse ends (R252). -/
def execStrobeFall (t : Nat) (p : Port) (k : StrobeIx) (s : State) : Result :=
  live t s fun s =>
    let x := s.strobe p k
    if x.genHigh = false ∨ s.now < x.riseAt + x.width * 1250 then s
    else
      let s' := s.setStrobe p k { x with high := false, genHigh := false, fallAt := if x.high then s.now else x.fallAt }
      endAfterStrobe (if x.high then s'.emit (.strobeFall p k) else s')

/-- The watchdog of an output (R256): a pulse that ends at the limit is no fault. The injection acts at its input. A fault trips a port
that is armed or granted (R382). -/
def execStrobeWatchdog (t : Nat) (p : Port) (k : StrobeIx) (s : State) : Result :=
  live t s fun s =>
    let x := s.strobe p k
    let excess := x.high && decide (x.riseAt + s.get R.rdgPortTime_WDLIM p * 2500 < s.now)
    let m := meets 24 (4 * p + k) excess s
    if m.1 = false ∨ wdFault s p k then s
    else
      let s := m.2.2
      let s := if x.high then (s.setStrobe p k { x with high := false, fallAt := s.now }).emit (.strobeFall p k) else s
      let s := s.setReg ⟨.hptWdfault, p / 8, 0⟩ (s.reg ⟨.hptWdfault, p / 8, 0⟩ ||| BitVec.ofNat 32 (2 ^ wdBit p k))
      let s := raise 24 (4 * p + k) none 0 m.2.1 s
      let s := match x.lastLine with
        | some f => if x.high then ledgerLine p 0xFF 7 true f (s.firedAt f) s else s
        | none => s
      let s := if s.flag R.rdgPstat_WDDROP p ∧ (s.flag R.hptPstat_ARMED p = true ∨ bitOf (s.get R.rdgHpen_GRANT) p = true) then tripPort p s else s
      endAfterStrobe s

/-! Widths and temperature (R252 to R254). -/

/-- The temperature factor of a table. -/
def tempFactor (tab : List (Int × Int)) (theta : Int) : Int :=
  match tab with
  | [] => 0
  | (t0, f0) :: r => if theta ≤ t0 then f0 else go (t0, f0) r
where
  /-- the interval that holds θ -/
  go (a : Int × Int) : List (Int × Int) → Int
    | [] => a.2
    | b :: r => if theta < b.1 then a.2 + Int.fdiv ((b.2 - a.2) * (theta - a.1)) (b.1 - a.1) else go b r

/-- The supply factor. -/
def supplyFactor (v v0 : Nat) : Nat :=
  let vc := min (max v (v0 / 2)) (2 * v0)
  4096 * v0 * v0 / (vc * vc)

/-- The width before the ridge's clamp. -/
def rawWidth (w0 : Nat) (ft : Int) (fv : Nat) : Nat := (Int.fdiv ((w0 : Int) * ft * fv) 16777216).toNat

/-- A port's temperature table. -/
def State.tempTable (s : State) (p : Nat) : List (Int × Int) :=
  (List.range 16).map fun i => (signed 16 (s.get R.hptTt_TEMP p i), (s.get R.hptTt_FACT p i : Int))

/-- θ and whether it comes from telemetry (R253). -/
def State.thetaOf (s : State) (p : Nat) : Option (Int × Bool) :=
  let reports := (List.range (s.get R.hptPcfg_MODULES p)).map fun m => (s.port p).tel.lookup m
  let fresh (x : Option ModTel) : Bool := match x with | some r => r.valid && decide (s.now ≤ r.at_ + 10000000000) | none => false
  match reports.filterMap id with
  | r :: rest => if reports.all fresh then some (rest.foldl (fun m x => max m x.temp) r.temp, true) else (s.thermistorOf p).map fun v => (v, false)
  | [] => (s.thermistorOf p).map fun v => (v, false)

/-- The ridge's comparator for a port that is armed or granted (R382). -/
def ridgeCheck (p : Nat) (theta : Option Int) (inj51 inj52 : Bool) (s : State) : State :=
  if s.flag R.hptPstat_ARMED p = false ∧ bitOf (s.get R.rdgHpen_GRANT) p = false then s
  else
    let trip := signed 16 (s.get R.rdgPortTemp_TTRIP p)
    let warn := signed 16 (s.get R.rdgPortTemp_TWARN p)
    match (if inj51 then some trip else if inj52 then some warn else theta) with
    | none => tripPort p s
    | some th =>
      let s := if th < trip ∨ s.flag R.rdgPstat_TRIP p = true then s else tripPort p (raise 51 p none (wrapInt 32 th) inj51 s)
      if warn ≤ th then
        if s.flag R.rdgPstat_WARN p then s else raise 52 p none (wrapInt 32 th) inj52 (s.put R.rdgPstat_WARN 1 p)
      else if th < warn - 32 then s.put R.rdgPstat_WARN 0 p else s

/-- The width of one strobe, with the ridge's clamp (R252). -/
def computeWidth (p k : Nat) (theta : Int) (v : Nat) (s : State) : State :=
  let m := meets 21 p false s
  let raw := if m.1 then 0 else rawWidth (s.get R.hptStrobe_W0 p k) (tempFactor (s.tempTable p) theta) (supplyFactor v (s.get R.hptVnom_V0 p))
  let w := min (max raw (s.get R.rdgPortWidth_WMIN p)) (s.get R.rdgPortWidth_WMAX p)
  let s := m.2.2.put R.hptStrobe_WIDTH w p k
  if w ≠ raw then raise 21 p none 0 m.2.1 s else s

/-- Computations that a strobe of a line fired at `u` or later may need, the latest first (R254). -/
def keepWidths (u : Nat) : List (Nat × List Nat) → List (Nat × List Nat)
  | [] => []
  | e :: r => if e.1 < u then [e] else e :: keepWidths u r

/-- The widths that a computation has left take effect with the first line fired after it (R254). -/
def noteWidths (p : Nat) (s : State) : State :=
  let oldest := s.liveLines.foldl (fun m l => min m l.fired) s.now
  s.setPort p { s.port p with
    widths := (s.now, (List.range 4).map fun k => s.get R.hptStrobe_WIDTH p k) :: keepWidths oldest (s.port p).widths }

/-- A port's computation: θ, *v*, their errors once per excursion (log entry 26), and the widths; with no valid θ the widths stand. -/
def computePort (p : Nat) (s : State) : State :=
  let th := s.thetaOf p
  let m := meets 23 p th.isNone s
  let s := m.2.2
  let th := if m.1 then none else th
  let h := s.port p
  let s := if th.isNone ∧ (m.2.1 ∨ h.tempInvRaised = false) then raise 23 p none 0 m.2.1 s else s
  let n := meets 22 p false s
  let s := n.2.2
  let v := if n.1 then 0 else s.supplyOf p
  let v0 := s.get R.hptVnom_V0 p
  let out := decide (v < v0 / 2 ∨ 2 * v0 < v)
  let s := if out ∧ (n.2.1 ∨ h.supplyOut = false) then raise 22 p none v n.2.1 s else s
  let s := s.setPort p { s.port p with tempInvRaised := th.isNone, supplyOut := out, theta := th.map (·.1), thetaAt := if th.isSome then s.now else h.thetaAt }
  let s := (s.put R.hptPstat_VRANGE (b2n out) p).put R.hptPstat_TEMPINV (b2n th.isNone) p
  let s := s.put R.hptSense_V v p
  let s := match th with
    | none => s
    | some (x, tele) =>
      let s := (s.put R.hptSense_THETA (wrapInt 16 x) p).put R.hptPstat_TEMPSRC (b2n tele) p
      forEach (List.range 4) s fun k s => computeWidth p k x v s
  let a := meets 51 p false s
  let b := meets 52 p false a.2.2
  ridgeCheck p (th.map (·.1)) a.1 b.1 (noteWidths p b.2.2)

/-- The computation of every 1 ms: all 64 widths, and the ridge's checks (R254, R382). The sense configuration is taken then
(R415). -/
def execWidthCompute (t : Nat) (s : State) : Result :=
  live t s fun s =>
    if (match (s.port 0).widths with | e :: _ => decide (s.now < e.1 + 1000000000) | [] => false) = true then s
    else
    let s := { s with snsCfg := s.regs.filter fun e => decide (e.1.k = .snsPortcfg ∨ e.1.k = .snsThtab) }
    forEach (List.range 16) s computePort

/-- No θ delivered for 5 ms trips a port that is armed or granted (R382). -/
def execRidgeThetaTimeout (t : Nat) (p : Port) (s : State) : Result :=
  live t s fun s =>
    if (s.flag R.hptPstat_ARMED p = false ∧ bitOf (s.get R.rdgHpen_GRANT) p = false) ∨ s.now < (s.port p).thetaAt + 5000000000 then s
    else tripPort p s

/-! Arming (R201, R207, R245, R258). -/

/-- A reserved bit stands in a table in force. -/
def reservedBad (T : Tables) : Bool :=
  (T.jets.any fun e => decide (bitsOf e.2.toNat 22 2 ≠ 0 ∨ bitsOf e.2.toNat 37 27 ≠ 0)) || (T.curves.any fun e => decide (e.2.toNat / 16 ≠ 0))
    || entryDetail T 2 0 64 4 = some 0x0901
def takeoverBad (T : Tables) : Bool := decide (T.reach = 0 ∨ T.reach = 3)

/-- A side whose neighbour does not name the channel back, or that has a neighbour and an edge member (R201). -/
def edgeBad (s : State) (ch : Nat) : Bool :=
  let x := s.chan ch
  (match x.left with | some l => decide ((s.chan l).right ≠ some ch) | none => false) || (match x.right with | some r => decide ((s.chan r).left ≠ some ch) | none => false)
    || (x.left.isSome && x.edgeL.isSome) || (x.right.isSome && x.edgeR.isSome)

/-- The detail code of what the members named by `CHAIN_EDGE` answer (R302). -/
def remoteDetail (s : State) (ch : Nat) : Option Nat :=
  let x := s.chan ch
  let ask (e : Option (Nat × Nat)) (n : Nat) : Option Nat :=
    match e with
    | none => none
    | some (m, c) => if s.lineLocked = false then some 0x0D01
        else match (Config.remoteEdge m c n).val with | 0 => none | 1 => some 0x090A | 2 => some 0x0D01 | _ => some 0x0D02
  match ask x.edgeL s.freeCount with | some d => some d | none => ask x.edgeR (s.freeCount + 1)

/-- The condition of R201 that a channel's configuration breaks. -/
def armDetail (s : State) (ch : Nat) : Option Nat :=
  let x := s.chan ch
  let T := x.active
  match firstFail [(reservedBad T, 0x0901), (curvesBad T x.b, 0x0902), (takeoverBad T, 0x0903), (columnsBad T x.n, 0x0904), (servingBad T, 0x0905),
    (rowsBad s T ch, 0x0906), (reachBad s T ch, 0x0907), (staggerBad s T ch x.l, 0x0908), (skewBad s ch, 0x0909), (edgeBad s ch, 0x090A)] with
  | some d => some d
  | none => match remoteDetail s ch with
    | some d => some d
    | none => if modulesBad s T ch then some 0x0B01 else none

/-- The frame time of a port in ps, one gap block included (R258). -/
def State.frameTime (s : State) (p : Nat) : Nat := (s.lineBlocks p + 1) * blockPs (s.get R.hptPcfg_RATE p)

/-- The conditions of R258 for a port: LINK_TIME, STROBE_LATE. -/
def portDetail (s : State) (p : Nat) : Option Nat :=
  let tr := s.get R.rdgPortTime_MINPER p * 1000
  let ws := s.sosWindow p
  let phi := listMax (((s.chan (p / 4)).active.rows p).map fun r => s.get R.hptRg_PHASE p r)
  firstFail [(decide (tr < s.frameTime p + 1300000 + ws), 0x0B03),
    (decide (1024 * tr < phi * tr + 1024 * (s.get R.rdgPortWidth_WMAX p * 1250 + ws + 10000)), 0x0B04)]

/-- The channels of the loaded job. -/
def State.jobChans (s : State) : List Nat := match s.job with | some j => maskList 4 j.mask | none => []

def jobArmRow : OpRow := { op := 0x0403, argw := 2, states := [.ready], needsJob := true }
/-- The configuration as a whole (R201): its tests are made of the channels of the loaded job, and not of others that are configured (log entry
98: DESIGN CHOICE). -/
def jobArmFail (c : Cmd) (s : State) : Option (Nat × Nat) :=
  let m := cmdNat c 2
  let ports := maskList 16 m
  if namesJob c s = false ∨ m = 0 ∨ 65535 < m ∨ (ports.any fun p => !s.jobChans.contains (p / 4)) = true then some (stBadArgument, 0)
  else if queueBusy c s then some (stBusy, 0)
  else if s.fw.opens.any fun o => decide (o.cmd.q ≠ c.q ∧ o.op ∈ 0x0403 :: 0x0A05 :: portOps) && (decide (o.op = 0x0403) || ports.contains (o.data.headD 0)) then
    some (stConflict, 0)
  else if s.flag R.rdgLock_LOCK = false then some (stBadArgument, 0x1101)
  else match s.jobChans.findSome? (armDetail s) with
  | some d => some (stBadArgument, d)
  | none => match ports.findSome? (portDetail s) with
    | some d => some (stBadArgument, d)
    | none => if ports.any fun p => decide (s.get R.cadFirecfg_MINPER < s.get R.rdgPortTime_MINPER p) then some (stBadArgument, 0) else none

/-- A decode reference as an open command keeps it. -/
def keepRef (r : Option Nat) : Nat := match r with | some n => n + 1 | none => 0
def keptRef (n : Nat) : Option Nat := if n = 0 then none else some (n - 1)

/-- The decode references of the channels as they were when a `JOB_ARM` was accepted (R97). -/
def restoreRefs (data : List Nat) (s : State) : State :=
  forEach (List.range 4) s fun ch s => s.setChan ch { s.chan ch with refL := keptRef (data.getD (1 + 2 * ch) 0), refR := keptRef (data.getD (2 + 2 * ch) 0) }

/-- The command is accepted: decode references are exchanged with edge members (R302). -/
def jobArmAct (c : Cmd) (s : State) : Reply :=
  let old := (List.range 4).flatMap fun ch => [keepRef (s.chan ch).refL, keepRef (s.chan ch).refR]
  let s := forEach s.jobChans s fun ch s =>
    let x := s.chan ch
    let ref (e : Option (Nat × Nat)) (n : Nat) : Option Nat := match e with | some (m, r) => Config.remoteRef m r n | none => none
    s.setChan ch { x with refL := ref x.edgeL s.freeCount, refR := ref x.edgeR (s.freeCount + 1) }
  { s := openE 0x0403 c (cmdNat c 2 :: old ++ [0]) { s with freeCount := s.freeCount + 2 } }

/-- The port meets the conditions of R245. -/
def State.armable (s : State) (p : Nat) : Bool :=
  s.flag R.hptPstat_LINKUP p && ((List.range (s.get R.hptPcfg_MODULES p)).all (bitOf (s.get R.hptPstat_MODANS p))) && (s.thetaOf p).isSome

/-- Arming completes, or has waited 2 s (R98, R245). -/
def execJobArmDone (t : Nat) (q : Queue) (s : State) : Result :=
  completion t 0x0403 q s fun o s =>
    let m := cmdNat o.cmd 2
    let ok := (maskList 16 m).filter s.armable
    let old := restoreRefs o.data s
    match s.job with
    | none => finish o stWrongState 0 [] old
    | some j =>
      if j.id ≠ o.cmd.w 1 then finish o stWrongState 0 [] old
      else if ok = maskList 16 m ∧ s.cadLocked ∧ s.dev = .ready then
        let s := s.setJob (some { j with ports := m, startAt := none, startLine := none, printing := false })
        let s := forEach (List.range 16) s fun p s =>
          let s := (if bitOf m p then watchTheta p s else s).put R.hptPstat_ARMED (b2n (bitOf m p)) p
          if bitOf m p then s.setPort p { s.port p with frame := none, lastDue := none, gated := none } else s
        setDev .armed 0 (finish o stOk 0 [m] (setGrant (s.get R.rdgHpen_GRANT ||| s.grantable m) s))
      else if o.t0 + 2000000000000 ≤ s.now then finish o stTimeout 0 [(ok.map (2 ^ ·)).sum] old
      else s

/-! The ledger's commands and timers (R114, R262, R263). -/

def ledgerConfigRow : OpRow := { op := 0x0606, argw := 4, states := [.ready] }
def ledgerConfigFail (c : Cmd) (s : State) : Option (Nat × Nat) :=
  let a := cmdDword c 1
  let n := cmdNat c 3
  if a % 32 ≠ 0 ∨ n < 2 ∨ 1015808 < n ∨ a < s.regionBase 4 ∨ s.overflowBase < a + 32 * n then some (stBadArgument, 0) else none

/-- The ring is set; the same ring as before an orderly reset goes on where it stood. Records held follow into whichever ring is set, for
none is ever discarded (R19, R114; log entry 24). -/
def ledgerConfigAct (c : Cmd) (s : State) : Reply :=
  let l := s.ledger
  let (wr, rd) : Nat × Nat := match l.was with
    | some (a, n, wr, rd) => if a = cmdDword c 1 ∧ n = cmdNat c 3 then (wr, rd) else (0, 0)
    | none => (0, 0)
  let s := (s.put R.hptLdbase_ADDR (cmdDword c 1 / 32)).put R.hptLdsize_SIZE (cmdNat c 3)
  let s := (s.put R.hptLdwr_WR wr).put R.hptLdrd_RD rd
  let s := s.setLedger { l with was := none, threshold := cmdNat c 4, seq := 0, fresh := 0, freshSince := none }
  { s := drainLedger s.ledgerHeld s }

def ledgerAdvanceRow : OpRow := { op := 0x0607, argw := 1, states := anyState }
def ledgerAdvanceFail (c : Cmd) (s : State) : Option (Nat × Nat) :=
  let n := s.ringSlots
  let rd := s.get R.hptLdrd_RD
  let v := cmdNat c 1
  if n < 2 then (if v = rd then none else some (stBadArgument, 0))
  else if v < n ∧ (v + n - rd) % n ≤ (s.get R.hptLdwr_WR + n - rd) % n then none else some (stBadArgument, 0)
def ledgerAdvanceAct (c : Cmd) (s : State) : Reply :=
  let s := s.put R.hptLdrd_RD (cmdNat c 1)
  let s := drainLedger s.ledgerHeld s
  { s := s, words := [s.get R.hptLdwr_WR] }

/-- A record open for 1 ms closes with LIMIT; one whose run is broken closes without it (R262). -/
def execLedgerRecordLimit (t : Nat) (s : State) : Result :=
  live t s fun s =>
    let due (r : Run) : Bool := decide (r.opened + 1000000000 ≤ s.now)
    forEach (sortRuns (s.ledger.runs.filter due)) s fun r s => closeRun r (!s.broken r) s

/-- `LEDGER_NEW` 10 ms after the first record since the last one (R263). -/
def execLedgerNewTimer (t : Nat) (s : State) : Result :=
  live t s fun s => match s.ledger.freshSince with
  | some u => if u + 10000000000 ≤ s.now then ledgerNew s else s
  | none => s

def execJobArm (t : Nat) (c : Cmd) (s : State) : Result := command t c s (runCommand jobArmRow jobArmFail jobArmAct)
def execLedgerConfig (t : Nat) (c : Cmd) (s : State) : Result := command t c s (runCommand ledgerConfigRow ledgerConfigFail ledgerConfigAct)
def execLedgerAdvance (t : Nat) (c : Cmd) (s : State) : Result := command t c s (runCommand ledgerAdvanceRow ledgerAdvanceFail ledgerAdvanceAct)

end Sys2Proof.Machine
end

