-- ==== Sys2Proof/Machine/FabNet.lean ====
section
/-!
DEFINITION. Fabric ports and packets as they arrive (R283 to R292, R308, R309), MGMT packets (R293), what the root knows of the
chain and the routes, modes and parents that it sets (R294, R295, R304 to R307, R310).
-/
namespace Sys2Proof.Machine

/-! Packets that arrive. -/

/-- A packet as a forwarding member sends it on: TTL decremented, the check that of the new header. A packet forwarded before its check has
verified keeps what is wrong with it (R285, R287; log entry 145). -/
def hop (p : Pkt) : Pkt :=
  let h := { p with ttl := p.ttl - 1 }
  { h with crc := crc32c (pktHeader h ++ h.payload) ^^^ (crc32c (pktHeader p ++ p.payload) ^^^ p.crc) }

/-- The TAG is newer than the last accepted from the source, by 1 to 32,767 (R292). -/
def State.newer (s : State) (src tag : Nat) : Bool :=
  match s.fab.lastTag.lookup src with
  | none => true
  | some l => decide (1 ≤ (tag + 65536 - l) % 65536 ∧ (tag + 65536 - l) % 65536 ≤ 32767)

/-- MGMT payload fields (R293). -/
def mgmtOp (p : Pkt) : Nat := fieldAt p.payload 0 1
def mgmtHops (p : Pkt) : Nat := fieldAt p.payload 1 1
def mgmtIdx (p : Pkt) : Nat := fieldAt p.payload 2 1
def mgmtStatus (p : Pkt) : Nat := fieldAt p.payload 3 1
def mgmtPath (p : Pkt) : List Byte := (p.payload.drop 4).take 63
def mgmtBody (p : Pkt) : List Byte := p.payload.drop 0x48
/-- Output port of hop `h`. -/
def pathPort (path : List Byte) (h : Nat) : Nat := fieldAt path (h / 4) 1 / 4 ^ (h % 4) % 4
/-- The path as ports. -/
def pktPath (p : Pkt) : List Nat := (List.range (mgmtHops p)).map (pathPort (mgmtPath p))
/-- Ports as path bytes. -/
def pathBytes (l : List Nat) : List Byte := leBytes 63 ((l.zipIdx.map fun e => e.1 % 4 * 4 ^ e.2).sum)
/-- A MGMT payload. -/
def mgmtPayload (op hops idx status : Nat) (path : List Byte) (body : List Byte) : List Byte :=
  [BitVec.ofNat 8 op, BitVec.ofNat 8 hops, BitVec.ofNat 8 idx, BitVec.ofNat 8 status] ++ path ++ List.replicate 5 0 ++ body

/-- A packet is discarded for a cause other than its check (R286, R433). -/
def dropPacket (q : Nat) (s : State) : State := (s.bump R.fabPerr_DROPS q).tally 0x0504 q

/-- Directed MGMT (R293): a request follows its path, a response the way its request came (log entry 29). A packet whose TTL would reach 0 goes
no further (R286). -/
def directed (q : Nat) (p : Pkt) (s : State) (act : State → State) : State :=
  let key := (p.tag.toNat, mgmtPath p)
  if mgmtStatus p = 0 then
    if mgmtHops p ≤ mgmtIdx p then act s
    else
      let out := pathPort (mgmtPath p) (mgmtIdx p)
      if p.ttl = 1 then dropPacket q s
      else if out = q ∨ s.fabUp out = false then s
      else
        let s := s.setFab { s.fab with back := (key, q) :: s.fab.back.filter fun e => decide (e.1 ≠ key) }
        sendPacket out (hop { p with payload := p.payload.set 2 (BitVec.ofNat 8 (mgmtIdx p + 1)) }) s
  else match s.fab.back.lookup key with
  | some r =>
    let s := s.setFab { s.fab with back := s.fab.back.filter fun e => decide (e.1 ≠ key) }
    if p.ttl = 1 then dropPacket q s else if s.fabUp r then sendPacket r (hop p) s else s
  | none => act s

/-- A packet that is for other members goes on: a broadcast that is newer than the last of its source by the flood, another by its route (R291,
R292). -/
def forward (q : Nat) (p : Pkt) (s : State) : State :=
  if p.dest = 255 ∧ (p.src.toNat = s.memberId ∨ s.newer p.src.toNat p.tag.toNat = false) then s
  else if p.dest ≠ 255 ∧ routePort p.dest.toNat s = some 4 then s
  else if p.ttl = 1 then dropPacket q s
  else if p.dest = 255 then flood (some q) (hop p) s
  else sendUnicast (some q) (hop p) s

/-- The age of a TC0 packet: its arrival chain time minus SENDTIME, in 2^-16 ns (R288). -/
def State.tc0Age (s : State) (p : Pkt) : Int := signed 64 (wrapInt 64 ((s.chainTime : Int) - fieldAt p.payload 0 8))

/-- A packet at a port that the firmware serves: checked (R286), a TC0 packet by its age also (R288), forwarded (R291, R292, R293), and acted on
where it is for this member and of the kind that the command names. A TC0 packet is forwarded cut-through: one whose check fails has gone on by
then (R287). -/
def receive (q : Nat) (p : Pkt) (mine : Pkt → Bool) (act : State → State) (s : State) : State :=
  let inj := armedFor 29 q s
  let own (s : State) : State := if mine p then act s else s
  if s.fabUp q = false then s
  else if pktCrcOk p = false ∨ inj = true then
    let s := if p.cls = 0 ∧ p.ty ≠ 0x30 ∧ pktFormOk p = true ∧ p.ttl ≠ 0 ∧ p.dest ≠ 0 then forward q p s else s
    raise 29 q none 0 inj (((if inj then disarm s else s).bump R.fabPerr_CRCERR q).tally 0x0504 q)
  else if pktFormOk p = false ∨ p.ttl = 0 ∨ (p.dest = 0 ∧ p.ty ≠ 0x22 ∧ p.ty ≠ 0x30) then dropPacket q s
  else if p.ty = 0x30 then own s
  else
    let m := if p.cls = 0 then meets 30 q (decide (((s.get R.fabLookahead_NS : Int) - 4000) * 65536 < s.tc0Age p)) s else (false, false, s)
    let s := m.2.2
    if m.1 then raise 30 q none 0 m.2.1 ((s.bump R.fabPerr_LATE q).tally 0x0504 q)
    else if p.dest = 0 then directed q p s own
    else if p.dest ≠ 255 then (if routePort p.dest.toNat s = some 4 then own s else forward q p s)
    else if p.src.toNat = s.memberId ∨ s.newer p.src.toNat p.tag.toNat = false then s
    else
      let s := forward q p s
      own (s.setFab { s.fab with lastTag := (p.src.toNat, p.tag.toNat) :: s.fab.lastTag.filter fun e => decide (e.1 ≠ p.src.toNat) })

/-- The port that a port is paired with in kickstand (R308). -/
def kickPair (q : Nat) : Nat := if q % 2 = 0 then q + 1 else q - 1

/-- A packet at a port: in kickstand it passes to the paired port (R308); without running firmware nothing serves it. -/
def packetRow (t : Nat) (q : Nat) (s : State) (p : Pkt) (f : State → State) : Result :=
  let s := atTime t s
  let pair := kickPair q
  .next (conclude s (if s.kicking then (if s.get R.fabPctrl_RATE q = s.get R.fabPctrl_RATE pair then queuePacket pair p s else s)
    else if s.asserted ∨ s.fw.running = false then s else reads [18, 19] (f s)))

/-- Only a LINE_LOCKED member acts on a TC0 packet (R300, R310). -/
def tc0 (f : State → State) (s : State) : State := if s.lineLocked then f s else s

/-! The chain as the root knows it. -/

/-- CHAINPROTO of this member: of its control image (R310). -/
def State.chainProto (s : State) : Nat := fieldAt s.boot.ctlHeader 0x10 2
def State.uid (s : State) : Nat := s.otp.uid.toNat

/-- This member may be the root (R293). -/
def State.rootable (s : State) : Bool := !s.straps.rootN && s.hostLink
/-- This member is the root. -/
def State.isRoot (s : State) : Bool := decide (s.memberId ≠ 0 ∧ s.get R.fabId_ROOT = s.memberId)

/-- The delay of a link in 1/16 ns, as the root knows it: its own measurement, or what it learns of a link between others, which
no packet carries: an opaque value (R294, R304; log entry 30). -/
def State.linkDelay (s : State) (a b : Nat × Nat) : Nat :=
  if a.1 = s.uid then s.get R.fabPdly_DELAY a.2 else if b.1 = s.uid then s.get R.fabPdly_DELAY b.2 else Config.linkDelay a.1 a.2

/-- Where a link from a port leads. -/
def linkFrom (links : List ((Nat × Nat) × (Nat × Nat))) (a : Nat × Nat) : Option (Nat × Nat) :=
  links.findSome? fun e => if e.1 = a then some e.2 else if e.2 = a then some e.1 else none

/-- A member of the tree: its port towards the parent (7 at the root), the parent, and Λ in 1/16 ns (R304). -/
structure TNode where
  uid : Nat
  id : Nat
  path : List Nat
  up : Nat
  parent : Nat
  lat : Nat
  /-- the delay of its link to the parent in 1/16 ns -/
  hop : Nat := 0
deriving DecidableEq, Repr

/-- The lowest ID from 2 to 250 that none holds. -/
def freeId (used : List Nat) : Nat := ((List.range 249).map (· + 2)).find? (fun i => !used.contains i) |>.getD 0

/-- Ports 0 to 3 of a member explored: a responder not seen becomes its child (R294). -/
def exploreOne (s : State) (links : List ((Nat × Nat) × (Nat × Nat))) (ids : List (Nat × Nat)) (m : TNode) (tree : List TNode) : List TNode :=
  [0, 1, 2, 3].foldl (fun tree k =>
    match linkFrom links (m.uid, k) with
    | none => tree
    | some (v, vp) =>
      if tree.any fun x => decide (x.uid = v) then tree
      else
        let held := match ids.lookup v with | some i => i | none => 0
        let id := if held = 0 then freeId (ids.map (·.2) ++ tree.map (·.id)) else held
        let d := s.linkDelay (m.uid, k) (v, vp)
        tree ++ [{ uid := v, id := id, path := m.path ++ [k], up := vp, parent := m.uid, lat := m.lat + d + 3040, hop := d }]) tree

/-- Members sorted by ID. -/
def sortById (l : List TNode) : List TNode :=
  l.foldl (fun acc x => (acc.takeWhile fun y => decide (y.id ≤ x.id)) ++ [x] ++ (acc.dropWhile fun y => decide (y.id ≤ x.id))) []

/-- Hop by hop, and by ID within a hop count. -/
def exploreAll (s : State) (links : List ((Nat × Nat) × (Nat × Nat))) (ids : List (Nat × Nat)) : Nat → List TNode → List TNode → List TNode
  | 0, _, tree => tree
  | fuel + 1, level, tree =>
    let tree' := level.foldl (fun t m => exploreOne s links ids m t) tree
    let next := tree'.drop tree.length
    if next = [] then tree else exploreAll s links ids fuel (sortById next) tree'

/-- The tree that the root forms (R294, R305). -/
def State.tree (s : State) (links : List ((Nat × Nat) × (Nat × Nat))) (rootId : Nat) (ids : List (Nat × Nat)) : List TNode :=
  let r : TNode := { uid := s.uid, id := rootId, path := [], up := 7, parent := 0, lat := 0 }
  exploreAll s links ids 250 [r] [r]

/-- The link is a tree link. -/
def treeLink (T : List TNode) (a b : Nat × Nat) : Bool :=
  T.any fun x => decide ((x.uid = a.1 ∧ x.up = a.2 ∧ x.parent = b.1) ∨ (x.uid = b.1 ∧ x.up = b.2 ∧ x.parent = a.1))

/-- Standby ports of a member: ports whose link is not in the tree. -/
def standbyPorts (links : List ((Nat × Nat) × (Nat × Nat))) (T : List TNode) (m : TNode) : List (Nat × (Nat × Nat)) :=
  [0, 1, 2, 3].filterMap fun k => match linkFrom links (m.uid, k) with
    | some v => if treeLink T (m.uid, k) v ∨ !(T.any fun x => decide (x.uid = v.1)) then none else some (k, v)
    | none => none

/-- Primary port of a member towards another (R291, R294). -/
def primary (m d : TNode) : Nat :=
  if m.uid = d.uid then 4
  else if d.path.take m.path.length = m.path then d.path.getD m.path.length 7 else m.up

/-- The tree path from `n` to `d` crosses the link at port `pr` of member `m`. -/
def crosses (links : List ((Nat × Nat) × (Nat × Nat))) (T : List TNode) (m : TNode) (pr : Nat) (d : TNode) : Nat → TNode → Bool
  | 0, _ => true
  | fuel + 1, n =>
    if n.uid = d.uid then false
    else
      let k := primary n d
      match linkFrom links (n.uid, k) with
      | none => true
      | some v =>
        if (n.uid = m.uid ∧ k = pr) ∨ (v.1 = m.uid ∧ v.2 = pr) then true
        else match T.find? fun x => decide (x.uid = v.1) with
        | some x => crosses links T m pr d fuel x
        | none => true

/-- The alternate port of a member for a destination; 7 discards (R294). -/
def alternate (links : List ((Nat × Nat) × (Nat × Nat))) (T : List TNode) (m d : TNode) : Nat :=
  let pr := primary m d
  if m.uid = d.uid then 7
  else
    ((standbyPorts links T m).find? fun e => match T.find? (fun x => decide (x.uid = e.2.1)) with
      | some n => !crosses links T m pr d 256 n
      | none => false).map (·.1) |>.getD 7

/-- The 256 routing entries of a member. -/
def routesOf (links : List ((Nat × Nat) × (Nat × Nat))) (T : List TNode) (m : TNode) : List Nat :=
  (List.range 256).map fun id => match T.find? fun x => decide (x.id = id) with
    | some d => primary m d + 16 * alternate links T m d
    | none => 0x77

/-- A member's CHAINPROTO as it answered. -/
def State.protoOf (s : State) (uid : Nat) : Nat :=
  if uid = s.uid then s.chainProto else match s.fab.nodes.find? fun n => decide (n.uid = uid) with | some n => n.proto | none => 0

/-- The mode of a member (R304, R310). -/
def State.modeOf (s : State) (m : TNode) : Nat :=
  if s.protoOf m.uid / 256 ≠ s.chainProto / 256 then 3
  else if 2 * m.lat ≤ (s.get R.fabLookahead_NS - 4000) * 16 then 2 else 4

/-- The CHAINPROTO minor in use: the lowest among LINE_LOCKED members (R310). -/
def State.minorOf (s : State) (T : List TNode) : Nat :=
  listMin ((T.filter fun m => decide (s.modeOf m = 2)).map fun m => s.protoOf m.uid % 256)

/-- The ASSIGN body of a member (R293). -/
def assignBody (s : State) (links : List ((Nat × Nat) × (Nat × Nat))) (T : List TNode) (rootId : Nat) (m : TNode) : List Byte :=
  let mask := ((standbyPorts links T m).map fun e => 2 ^ e.1).sum
  [m.id, rootId, s.modeOf m, m.up, mask, s.minorOf T].map (BitVec.ofNat 8) ++ [0, 0] ++ leBytes 4 (s.get R.fabLookahead_NS)

/-- What the root sets for every member. -/
def State.planOf (s : State) (links : List ((Nat × Nat) × (Nat × Nat))) (rootId : Nat) (T : List TNode) : List (Nat × (List Nat × List Byte)) :=
  T.map fun m => (m.uid, (routesOf links T m, assignBody s links T rootId m))

/-! What a member does with ASSIGN and ROUTE. -/

/-- Holdover: the parent port is down (R298). -/
def showHold (s : State) : State :=
  s.put R.fabState_HOLD (match s.fab.parentPort with | some q => b2n (!s.fabUp q) | none => 0)

/-- A member that is control-only by version is neither cadence master nor follower and has no chain edges (R310). -/
def leaveLines (s : State) : State :=
  let s := if s.get R.cadCtrl_ROLE = 0 then s else (endCount (s.put R.cadCtrl_ROLE 0))
  let s := s.setCad { s.cad with rcd := none, rcfg := none, held := none }
  { s with chans := s.chans.map fun e => (e.1, { e.2 with edgeL := none, edgeR := none, refL := none, refR := none }) }

/-- ASSIGN takes effect (R293); the rate correction of the root is 0 (R296). -/
def applyAssign (body : List Byte) (s : State) : State :=
  let parent := fieldAt body 3 1
  let mask := fieldAt body 4 1
  let s := if parent < 4 then s else (s.put R.fabRate_RHO 0).setFab { s.fab with slew := (0, 0) }
  let s := (s.put R.fabId_ID (fieldAt body 0 1)).put R.fabId_ROOT (fieldAt body 1 1)
  let s := (s.put R.fabState_MODE (fieldAt body 2 1)).put R.fabState_MINOR (fieldAt body 5 1)
  let s := s.put R.fabLookahead_NS (fieldAt body 8 4)
  let s := forEach [0, 1, 2, 3] s fun q s =>
    s.put R.fabPstat_ROLE (if q = parent then 1 else if bitOf mask q then 3 else if s.fabUp q then 2 else 0) q
  let s := if fieldAt body 2 1 = 3 then leaveLines s else s
  showHold (s.setFab { s.fab with parentPort := if parent < 4 then some parent else none, joinAt := none })

/-- ROUTE writes routing entries (R291, R293). -/
def applyRoute (body : List Byte) (s : State) : State :=
  let first := fieldAt body 0 1
  forEach (List.range (min 32 (fieldAt body 1 1))) s fun i s =>
    let e := fieldAt body (2 + i) 1
    if 256 ≤ first + i then s else (s.put R.fabRoute_PRI (e % 8) (first + i)).put R.fabRoute_ALT (e / 16 % 8) (first + i)

/-! What the root sends. -/

/-- A directed MGMT request (R293). -/
def sendDirected (op : Nat) (path : List Nat) (body : List Byte) (s : State) : State :=
  match path with
  | [] => s
  | k :: _ =>
    let tag := (s.fab.msgTag + 1) % 65536
    let s := s.setFab { s.fab with msgTag := tag }
    if s.fabUp k then sendPacket k (mkPkt 0x22 2 0 s.memberId tag (mgmtPayload op path.length 1 0 (pathBytes path) body)) s else s

/-- A MGMT packet to a member by its ID, or a broadcast. -/
def sendMgmt (op dest hops status tag : Nat) (path body : List Byte) (s : State) : State :=
  sendTo 0x22 2 dest tag (mgmtPayload op hops 0 status path body) s

/-- ROUTE and ASSIGN of a member (R294): eight ROUTEs of 32 entries, then ASSIGN. -/
def sendPlan (path : List Nat) (x : List Nat × List Byte) (s : State) : State :=
  if path = [] then
    let s := forEach x.1.zipIdx s fun e s => (s.put R.fabRoute_PRI (e.1 % 8) e.2).put R.fabRoute_ALT (e.1 / 16) e.2
    applyAssign x.2 s
  else
    let s := forEach (List.range 8) s fun i s =>
      sendDirected 3 path ([BitVec.ofNat 8 (32 * i), 32] ++ ((x.1.drop (32 * i)).take 32).map (BitVec.ofNat 8)) s
    sendDirected 2 path x.2 s

/-- The `MEMBER` event. -/
def memberEvent (id code : Nat) (s : State) : State := event 0x0F0B id [code] s

/-- What the root records of a member of the tree. One in kickstand, or LOST, stays so until it answers: `found` says that each has answered
(R294, R306). -/
def State.recordOf (s : State) (found : Bool) (m : TNode) : Member :=
  match s.fab.members.find? fun x => decide (x.uid = m.uid) with
  | some x =>
    let away := !found && decide (x.mode = 5 ∨ x.mode = 6)
    { x with id := m.id, path := m.path, latency := m.lat, hop := m.hop, mode := if away then x.mode else s.modeOf m,
             heard := if x.mode = 6 ∧ away = false then s.now else x.heard, kickEnded := if away then x.kickEnded else none }
  | none => { id := m.id, uid := m.uid, proto := s.protoOf m.uid, mode := s.modeOf m, path := m.path, latency := m.lat, hop := m.hop, heard := s.now, kickEnded := none }

/-- `MEMBER` events of a member of the tree: code 1 for a new one, code 3 for one that leaves LINE_LOCKED or is new and control-only, and in a
discovery for each that is control-only (R294, R305, R306). -/
def memberNews (found : Bool) (was : List Member) (m : Member) (s : State) : State :=
  let before := was.find? fun x => decide (x.uid = m.uid)
  let new : Bool := match before with | some x => decide (x.mode = 6 ∧ m.mode ≠ 6) | none => true
  let s := if new then memberEvent m.id 1 s else s
  let control := decide (m.mode = 3 ∨ m.mode = 4) && (found || (match before with | some x => decide (x.mode = 2) | none => true))
  if control then memberEvent m.id 3 s else s

/-- The root sets the chain from a tree: ROUTE and ASSIGN to each member whose tables or mode change, and `MEMBER` events (R294, R305). -/
def setChain (found : Bool) (links : List ((Nat × Nat) × (Nat × Nat))) (rootId : Nat) (T : List TNode) (s : State) : State :=
  let plan := s.planOf links rootId T
  let old := s.fab.plan
  let was := s.fab.members
  let members : List Member := T.map (s.recordOf found)
  let gone := was.filter fun x => !(T.any fun m => decide (m.uid = x.uid))
  let s := forEach T s fun m s =>
    match plan.lookup m.uid with
    | some x => if old.lookup m.uid = some x then s else sendPlan m.path x s
    | none => s
  let s := forEach (members.filter fun m => decide (m.uid ≠ s.uid)) s fun m s => memberNews found was m s
  s.setFab { s.fab with members := members ++ gone, links := links, plan := plan }

/-- IDs that members hold. -/
def State.heldIds (s : State) : List (Nat × Nat) := s.fab.members.map fun m => (m.uid, m.id)

/-- The root recomputes tree, routes and modes (R305). -/
def recompute (links : List ((Nat × Nat) × (Nat × Nat))) (s : State) : State :=
  setChain false links s.memberId (s.tree links s.memberId s.heldIds) s

/-! Link state of a port (R283, R305, R309). -/

/-- A break report reaches the root (R305, R309). -/
def breakReport (reporter port state far : Nat) (s : State) : State :=
  match s.fab.members.find? fun m => decide (m.id = reporter) with
  | none => s
  | some m =>
    if state = 0 then recompute (s.fab.links.filter fun e => decide (e.1 ≠ (m.uid, port) ∧ e.2 ≠ (m.uid, port))) s
    else if state = 1 then sendDirected 1 (m.path ++ [port]) [] s
    else
      let upd (x : Member) : Member :=
        if x.id ≠ far ∨ far = 0 then x else if state = 2 then { x with mode := 5, kickEnded := none } else { x with kickEnded := some s.now }
      s.setFab { s.fab with members := s.fab.members.map upd }

/-- The member reports a break: at the root at once, else by MGMT BREAK (R305). -/
def reportBreak (q state far : Nat) (s : State) : State :=
  if s.memberId = 0 then s
  else if s.isRoot then breakReport s.memberId q state far s
  else
    let tag := (s.fab.msgTag + 1) % 65536
    sendMgmt 7 (s.get R.fabId_ROOT) 0 0 tag (List.replicate 63 0) ([s.memberId, q, state, far].map (BitVec.ofNat 8)) (s.setFab { s.fab with msgTag := tag })

/-- A port goes down: deskew and the ALIGNs received begin again, also at a port that was not yet up; packets that wait at it are lost (R283, R298,
R305). -/
def fabDown (q : Nat) (s : State) : State :=
  let up := s.fabUp q
  let s := (s.put R.fabPstat_UP 0 q).put R.fabPstat_DESKEW 0 q
  let s := s.setFab { s.fab with tsync := s.fab.tsync.filter (fun e => decide (e.1 ≠ q)), alignRun := s.fab.alignRun.filter fun e => decide (e.1 ≠ q) }
  let s := { s with tx := { s.tx with queue := s.tx.queue.filter fun w => decide (w.port ≠ q) } }
  if up = false then s
  else
    reportBreak q 0 (s.get R.fabPstat_NID q) (showHold (raise 28 q none 0 false s))

/-- JOIN to the neighbour at a port (R307). -/
def sendJoin (q : Nat) (s : State) : State :=
  let body := leBytes 8 s.uid ++ leBytes 2 s.chainProto
  sendPacket q (mkPkt 0x22 2 0 0 0 (mgmtPayload 5 0 0 0 (List.replicate 63 0) body)) s

/-- JOINs every 10 ms from READY on while the member holds no ID (R307; log entry 31). -/
def joinDue (s : State) : State :=
  let due : Bool := match s.fab.joinAt with | some u => decide (u + 10000000000 ≤ s.now) | none => true
  if s.memberId ≠ 0 ∨ s.boot.served = false ∨ s.fw.running = false ∨ due = false then s
  else
    let up := [0, 1, 2, 3].filter s.fabUp
    if up = [] then s else forEach up (s.setFab { s.fab with joinAt := some s.now }) sendJoin

/-- Four ALIGN blocks with consecutive ASEQ have come at a port (R283). -/
def State.aligned (s : State) (q : Nat) : Bool := decide (4 ≤ (mapGet (0, 0) s.fab.alignRun q).1)

/-- A port comes up: block lock on both lanes, deskewed, ALIGNs received (R283). -/
def execFabricPortUp (t : Nat) (q : FabPort) (s : State) : Result :=
  live t s fun s =>
    let lanes := s.flag R.fabPstat_L0LOCK q && s.flag R.fabPstat_L1LOCK q && !s.laneTested (16 + 2 * q) && !s.laneTested (17 + 2 * q)
    if s.kicking ∨ s.flag R.fabPctrl_EN q = false ∨ lanes = false ∨ s.fabUp q = true ∨ s.flag R.fabPstat_DESKEW q = false ∨ s.aligned q = false then s
    else joinDue (reportBreak q 1 (s.get R.fabPstat_NID q) (showHold (s.put R.fabPstat_UP 1 q)))

/-- 8,192 blocks pass on the port without an ALIGN (R283, R284). -/
def execFabricPortDown (t : Nat) (q : FabPort) (s : State) : Result :=
  live t s fun s =>
    if s.now < mapGet 0 s.fab.aligns q + 4096 * blockPs (s.get R.fabPctrl_RATE q) then s else fabDown q s

/-- An ALIGN pair with ASEQ `aseq` and the next, its lanes `skewNs` apart (R283, R284): up to 64 ns of skew are taken out. -/
def noteAlign (q aseq skewNs : Nat) (s : State) : State :=
  let (run, next) := mapGet (0, 0) s.fab.alignRun q
  let run := if 0 < run ∧ aseq = next then min 4 (run + 2) else 2
  let s := s.setFab { s.fab with aligns := nset 0 s.fab.aligns q s.now, alignRun := nset (0, 0) s.fab.alignRun q (run, (aseq + 2) % 65536) }
  if skewNs ≤ 64 then s.put R.fabPstat_DESKEW 1 q else s

/-- In kickstand an ALIGN pair goes on by the paired port as it came, one block on each lane (R308, R309). -/
def passAlign (q : Nat) (far : FarEnd) (aseq : Nat) (s : State) : State :=
  let k := 16 + kickPair q
  if s.get R.fabPctrl_RATE q ≠ s.get R.fabPctrl_RATE (kickPair q) then s
  else
    let s := catchUp k (pumpPorts s)
    s.transmit fun r =>
      let block (i : Nat) (a : Sent) : Block := fabAlign (aseq + i) far.nid.toNat far.nport.toNat ((s.streamIn a.2 k).count % 2)
      let a := [0, 1].foldl (fun a i => s.putBlock k a (block i a)) ([], r.1)
      (a.2, r.2 ++ [.aligns k a.1])

/-- An ALIGN pair (R283, R284, R309): the far end's ID and port; another member's ID in place of it shows a pass-through. In kickstand it
passes on, in full reset too (R308). -/
def execFabricAlign (t : Nat) (q : FabPort) (far : FarEnd) (pair : AlignPair) (s : State) : Result :=
  always t s fun s =>
    let lanes := s.flag R.fabPstat_L0LOCK q && s.flag R.fabPstat_L1LOCK q && !s.laneTested (16 + 2 * q) && !s.laneTested (17 + 2 * q)
    if s.kicking then passAlign q far pair.aseq.toNat s
    else if s.asserted ∨ s.flag R.fabPctrl_EN q = false ∨ lanes = false then s
    else
      let old := s.get R.fabPstat_NID q
      let nid := far.nid
      let s := noteAlign q pair.aseq.toNat pair.skewNs s
      let s := (s.put R.fabPstat_NID nid.toNat q).put R.fabPstat_NPORT far.nport.toNat q
      let kicked := s.fab.kickOf.lookup q.val
      if s.flag R.fabPstat_KICK q then
        let a := kicked.getD 0
        if nid = 0 ∨ nid.toNat = a then
          reportBreak q 3 a ((s.put R.fabPstat_KICK 0 q).setFab { s.fab with kickOf := s.fab.kickOf.filter fun e => decide (e.1 ≠ q.val) })
        else s
      else if s.fabUp q ∧ old ≠ 0 ∧ nid ≠ 0 ∧ nid.toNat ≠ old then
        reportBreak q 2 old ((s.put R.fabPstat_KICK 1 q).setFab { s.fab with kickOf := (q.val, old) :: s.fab.kickOf })
      else s

end Sys2Proof.Machine
end

