-- ==== Sys2Proof/Machine/FabMgmt.lean ====
section
/-!
DEFINITION. MGMT operations (R293 to R295, R305 to R307), discovery, the root's heartbeats, chain time (R296 to R299), and the
commands `CHAIN_DISCOVER`, `CHAIN_STATUS`, `CHAIN_CADENCE`, `CHAIN_EDGE`.
-/
namespace Sys2Proof.Machine

/-- A MGMT packet with the operation. -/
def isMgmt (op : Nat) (p : Pkt) : Bool := decide (p.ty = 0x22) && decide (mgmtOp p = op)

/-! PROBE (R293, R294). -/

/-- The flags of a PROBE response. -/
def State.probeFlags (s : State) : Nat := b2n (!s.straps.rootN) + 2 * b2n s.hostLink + 4 * b2n (s.flag R.fabState_SYNCED)

/-- The response to a PROBE leaves by the port of arrival. -/
def answerProbe (q : Nat) (p : Pkt) (s : State) : State :=
  let body := leBytes 8 s.uid ++ leBytes 2 s.chainProto ++ [s.probeFlags, q, s.memberId, s.get R.fabId_ROOT].map (BitVec.ofNat 8) ++ leBytes 8 s.chainTime
  sendPacket q (mkPkt 0x22 2 0 s.memberId p.tag.toNat (mgmtPayload 1 (mgmtHops p) (mgmtIdx p) 1 (mgmtPath p) body)) s

/-- PROBEs to the ports of a responder, but for the one by which it was reached. -/
def probePorts (path : List Nat) (arrival : Nat) (s : State) : State :=
  if 249 ≤ path.length then s
  else forEach ([0, 1, 2, 3].filter fun k => decide (k ≠ arrival)) s fun k s => sendDirected 1 (path ++ [k]) [] s

/-- The unique ID of the member at a path. -/
def State.uidAt (s : State) (nodes : List FabNode) (path : List Nat) : Option Nat :=
  if path = [] then some s.uid else (nodes.find? fun n => decide (n.path = path)).map FabNode.uid

/-- A link is learnt. -/
def addLink (link : (Nat × Nat) × (Nat × Nat)) (links : List ((Nat × Nat) × (Nat × Nat))) : List ((Nat × Nat) × (Nat × Nat)) :=
  link :: links.filter fun e => decide (e.1 ≠ link.1 ∧ e.2 ≠ link.1 ∧ e.1 ≠ link.2 ∧ e.2 ≠ link.2)

/-- A member taken as LOST has answered a PROBE: it is a member again (R306). -/
def revive (uid : Nat) (s : State) : State :=
  match s.fab.members.find? fun m => decide (m.uid = uid ∧ m.mode = 6) with
  | some m => memberEvent m.id 1 (s.setFab { s.fab with
      members := s.fab.members.map fun x => if x.uid = uid then { x with mode := 1, heard := s.now, kickEnded := none } else x })
  | none => s

/-- A PROBE response at the root: a link is learnt; a responder not yet known is explored; outside discovery the root recomputes
the chain (R294, R305, R307). -/
def probed (p : Pkt) (s : State) : State :=
  let b := mgmtBody p
  let path := pktPath p
  let n : FabNode := { uid := fieldAt b 0 8, proto := fieldAt b 8 2, flags := fieldAt b 10 1, cur := fieldAt b 12 1, path := path }
  let arrival := fieldAt b 11 1
  let discovering := (openOp 0x0701 s).isSome
  let nodes := if discovering then s.fab.found else s.fab.nodes
  match s.uidAt nodes path.dropLast, path.getLast? with
  | some from_, some k =>
    let link := ((from_, k), (n.uid, arrival))
    let seen := decide (n.uid = s.uid) || nodes.any fun x => decide (x.uid = n.uid)
    let s := if discovering ∧ path.length = 1 ∧ bitOf n.flags 2 ∧ s.fab.parentPort = none then s.setFab { s.fab with parentPort := some k } else s
    if discovering then
      let s := s.setFab { s.fab with foundLinks := addLink link s.fab.foundLinks }
      if seen then s else probePorts path arrival (s.setFab { s.fab with found := s.fab.found ++ [n] })
    else if s.isRoot then
      let nodes := if seen then nodes.map fun x => if x.uid = n.uid then { n with path := x.path } else x else nodes ++ [n]
      recompute (addLink link s.fab.links) (revive n.uid (s.setFab { s.fab with nodes := nodes }))
    else s
  | _, _ => s

def execProbe (t : Nat) (q : FabPort) (p : Pkt) (s : State) : Result :=
  packetRow t q s p (receive q p (isMgmt 1) fun s => if mgmtStatus p = 0 then answerProbe q p s else if mgmtStatus p = 1 then probed p s else s)

/-! ASSIGN, ROUTE. -/

/-- A directed packet shows the member its own path. -/
def notePath (p : Pkt) (s : State) : State := if p.dest = 0 then s.setFab { s.fab with path := pktPath p } else s

def execAssign (t : Nat) (q : FabPort) (p : Pkt) (s : State) : Result :=
  packetRow t q s p (receive q p (isMgmt 2) fun s => if mgmtStatus p = 0 then applyAssign (mgmtBody p) (notePath p s) else s)

def execRoute (t : Nat) (q : FabPort) (p : Pkt) (s : State) : Result :=
  packetRow t q s p (receive q p (isMgmt 3) fun s => if mgmtStatus p = 0 then applyRoute (mgmtBody p) (notePath p s) else s)

/-! HEARTBEAT, LOST (R306). -/

/-- A member answers with its state; the root notes the answer. -/
def heartbeat (p : Pkt) (s : State) : State :=
  if mgmtStatus p = 0 then
    sendMgmt 4 p.src.toNat 0 1 p.tag.toNat (List.replicate 63 0) [BitVec.ofNat 8 (s.get R.fabState_MODE)] s
  else
    let st := fieldAt (mgmtBody p) 0 1
    let upd (m : Member) : Member :=
      if m.id ≠ p.src.toNat ∨ m.mode = 6 then m
      else { m with heard := s.now, kickEnded := none, mode := if m.mode = 5 ∧ 2 ≤ st ∧ st ≤ 4 then st else m.mode }
    s.setFab { s.fab with members := s.fab.members.map upd }

def execHeartbeat (t : Nat) (q : FabPort) (p : Pkt) (s : State) : Result :=
  packetRow t q s p (receive q p (isMgmt 4) (heartbeat p))

/-- The root sends HEARTBEAT to every member every 1 ms. -/
def execHeartbeatSend (t : Nat) (s : State) : Result :=
  live t s fun s =>
    let soon : Bool := match s.fab.beatAt with | some u => decide (s.now < u + 1000000000) | none => false
    if s.isRoot = false ∨ s.fw.running = false ∨ soon = true then s
    else forEach (s.fab.members.filter fun m => decide (m.uid ≠ s.uid ∧ m.mode ≠ 6)) (s.setFab { s.fab with beatAt := some s.now }) fun m s =>
      let tag := (s.fab.msgTag + 1) % 65536
      sendMgmt 4 m.id 0 0 tag (List.replicate 63 0) [] (s.setFab { s.fab with msgTag := tag })

/-- The sessions of a member end, and operations sent to it have no answer to come (R87, R290, R306). -/
def endMember (id : Nat) (s : State) : State :=
  let s := endSession .proxy (some id) s
  s.setFab { s.fab with proxyQ := s.fab.proxyQ.filter fun e => decide (e.1 ≠ id), lastPosts := s.fab.lastPosts.filter (fun e => decide (e.src ≠ id)),
                           ops := s.fab.ops.filter fun o => decide (o.dest ≠ id) }

/-- A member silent for 3 ms that is not in kickstand, or for 1 s after its kickstand ended, is LOST (R306). -/
def execMemberLost (t : Nat) (id : Byte) (s : State) : Result :=
  live t s fun s =>
    match s.fab.members.find? fun m => decide (m.id = id.toNat ∧ m.uid ≠ s.uid) with
    | none => s
    | some m =>
      let expired : Bool := match m.kickEnded with
        | some u => decide (u + 1000000000000 ≤ s.now)
        | none => decide (m.mode ≠ 5 ∧ m.heard + 3000000000 ≤ s.now)
      if s.isRoot = false ∨ m.mode = 6 ∨ expired = false then s
      else
        let s := s.setFab { s.fab with members := s.fab.members.map fun x => if x.uid = m.uid then { x with mode := 6, kickEnded := none } else x }
        let s := memberEvent m.id 2 s
        endMember m.id (broadcast 0x22 2 (mgmtPayload 6 0 0 0 (List.replicate 63 0) [BitVec.ofNat 8 m.id]) s)

def execLost (t : Nat) (q : FabPort) (p : Pkt) (s : State) : Result :=
  packetRow t q s p (receive q p (isMgmt 6) fun s => endMember (fieldAt (mgmtBody p) 0 1) s)

/-! JOIN, BREAK (R305, R307, R309). -/

/-- A JOIN: a neighbour of the joining member forwards it to the root with the path to it; the root gives it its previous ID or
the lowest free one, and probes it for the link (log entry 31). The path to a forwarding member is the one that the root knows, for a change of
routes may have passed that member by; a JOIN within 10 ms of one acted on is the same one from another neighbour, and `MEMBER` is posted once
until the member is assigned (log entry 147). -/
def joined (q : Nat) (p : Pkt) (s : State) : State :=
  let b := mgmtBody p
  let path := if p.dest = 0 then s.fab.path ++ [q] else pktPath p
  if s.isRoot then
    let uid := fieldAt b 0 8
    let path := if p.dest = 0 then [q] else match s.fab.members.find? fun m => decide (m.id = p.src.toNat) with
      | some m => m.path ++ (path.drop (path.length - 1))
      | none => path
    let known := s.fab.members.find? fun m => decide (m.uid = uid)
    let joining : Bool := match known with | some m => decide (m.mode = 1) | none => false
    let again : Bool := match known with | some m => (match m.joinAt with | some u => decide (s.now < u + 10000000000) | none => false) | none => false
    if again then s else
    let id := match known with | some m => m.id | none => freeId (s.fab.members.map Member.id)
    let m : Member := { id := id, uid := uid, proto := fieldAt b 8 2, mode := 1, path := path, latency := 0, heard := s.now, kickEnded := none,
                        joinAt := some s.now }
    let n : FabNode := { uid := uid, proto := m.proto, flags := 0, cur := 0, path := path }
    let s := s.setFab { s.fab with
      members := s.fab.members.filter (fun x => decide (x.uid ≠ uid)) ++ [m],
      nodes := s.fab.nodes.filter (fun x => decide (x.uid ≠ uid)) ++ [n],
      plan := s.fab.plan.filter fun e => decide (e.1 ≠ uid) }
    sendDirected 1 path [] (if joining then s else memberEvent id 1 s)
  else if p.dest = 0 ∧ s.memberId ≠ 0 then
    let tag := (s.fab.msgTag + 1) % 65536
    sendMgmt 5 (s.get R.fabId_ROOT) path.length 0 tag (pathBytes path) (b.take 10) (s.setFab { s.fab with msgTag := tag })
  else s

def execJoin (t : Nat) (q : FabPort) (p : Pkt) (s : State) : Result :=
  packetRow t q s p (receive q p (isMgmt 5) (joined q p))

def execBreak (t : Nat) (q : FabPort) (p : Pkt) (s : State) : Result :=
  packetRow t q s p (receive q p (isMgmt 7) fun s =>
    let b := mgmtBody p
    if s.isRoot then breakReport (fieldAt b 0 1) (fieldAt b 1 1) (fieldAt b 2 1) (fieldAt b 3 1) s else s)

/-! CHAIN_DISCOVER (R293 to R295). -/

def chainDiscoverRow : OpRow := { op := 0x0701, argw := 0, states := [.ready] }
def chainDiscoverFail (c : Cmd) (s : State) : Option (Nat × Nat) :=
  firstFail [(s.rootable = false || decide (c.q = .q8), (stDenied, 0)), (queueBusy c s, (stBusy, 0)), ((openOp 0x0701 s).isSome, (stConflict, 0))]
/-- Exploration begins at the root's own ports. -/
def chainDiscoverAct (c : Cmd) (s : State) : Reply :=
  let s := openE 0x0701 c [0, match s.fab.parentPort with | some k => k | none => 4, 0] s
  { s := probePorts [] 7 (s.setFab { s.fab with found := [], foundLinks := [] }) }

/-- Discovery ends when the root has the answers that come: the instant is the command's. A discovery that is refused leaves all that the root
knew of the chain, and its parent port, as they were (R97, R295). -/
def execChainDiscoverDone (t : Nat) (q : Queue) (s : State) : Result :=
  completion t 0x0701 q s fun o s =>
    let rootId := if s.memberId = 0 then 1 else s.memberId
    let held := (s.uid, rootId) :: (s.fab.found.filter fun n => decide (n.cur ≠ 0)).map fun n => (n.uid, n.cur)
    let dup := held.any fun a => held.any fun b => decide (a.1 ≠ b.1 ∧ a.2 = b.2)
    let rival := s.fab.found.any fun n => bitOf n.flags 0 && bitOf n.flags 1
    let nodes := s.fab.found
    let links := s.fab.foundLinks
    let old := s.setFab { s.fab with
      found := [], foundLinks := [], parentPort := if o.data.getD 1 4 < 4 then some (o.data.getD 1 4) else none }
    if dup ∨ rival then finish o stConflict 0 [] old
    else if 250 < nodes.length + 1 then finish o stNoResource 0 [] old
    else
      let s := s.setFab { s.fab with found := [], foundLinks := [], nodes := nodes, parentPort := none }
      let T := s.tree links rootId held
      let known := s.fab.members.filter fun m => T.any fun x => decide (x.uid = m.uid)
      let s := setChain true links rootId T (s.setFab { s.fab with members := known, plan := [] })
      let d := listMax (links.map fun e => s.linkDelay e.1 e.2)
      finish o stOk 0 [T.length, min 249 ((s.get R.fabLookahead_NS - 4000) * 16 / (2 * (3040 + d)))] s

def chainStatusRow : OpRow := { op := 0x0702, argw := 1, states := anyState }
def chainStatusFail (c : Cmd) (_ : State) : Option (Nat × Nat) := if cmdNat c 1 = 0 ∨ 250 < cmdNat c 1 then some (stBadArgument, 0) else none
/-- A member's state as this member knows it: its own, and at the root every member's. The hop latency is the delay of the member's link towards
the root and the forwarding delay, for which the bound of 150 ns stands (R287; log entry 148). -/
def chainStatusAct (c : Cmd) (s : State) : Reply :=
  let id := cmdNat c 1
  match s.fab.members.find? fun m => decide (m.id = id) with
  | some m => { s := s, words := [m.mode, m.proto, if m.path = [] then 0 else m.hop / 16 + 150] }
  | none => { s := s, words := if id = s.memberId then [s.get R.fabState_MODE, s.chainProto, 0] else [0, 0, 0] }

/-! CHAIN_CADENCE, CHAIN_EDGE (R185, R230, R310). -/

def chainCadenceRow : OpRow := { op := 0x0704, argw := 1, states := [.ready] }
def chainCadenceFail (c : Cmd) (s : State) : Option (Nat × Nat) :=
  firstFail [(decide (1 < cmdNat c 1), (stBadArgument, 0)), (decide (s.get R.fabState_MODE = 3), (stWrongState, 0))]
/-- A follower starts without records; a master's lock rule begins again where it was a follower. -/
def chainCadenceAct (c : Cmd) (s : State) : Reply :=
  let role := cmdNat c 1 + 1
  if s.get R.cadCtrl_ROLE = role then { s := s }
  else
    let s := endCount (s.put R.cadCtrl_ROLE role)
    let cad := s.cad
    if role = 2 then
      { s := s.setCad { cad with rcd := none, rcfg := none, held := none, everLocked := false, locked := false, cur := none, prev := none, older := [], eMax := 0, followFrom := s.now, past := [] } }
    else { s := s.setCad { cad with rcd := none, held := none, recCount := 0, recChanged := true, lockFrom := if cad.locked then cad.lockFrom else s.now } }

def chainEdgeRow : OpRow := { op := 0x0705, argw := 4, states := [.ready] }
def chainEdgeFail (c : Cmd) (s : State) : Option (Nat × Nat) :=
  firstFail [(decide (3 < cmdNat c 1 ∨ 1 < cmdNat c 2 ∨ cmdNat c 3 = 0 ∨ 250 < cmdNat c 3 ∨ 3 < cmdNat c 4) || !(s.chan (cmdNat c 1)).configured,
    (stBadArgument, 0)), (decide (s.get R.fabState_MODE = 3), (stWrongState, 0))]
def chainEdgeAct (c : Cmd) (s : State) : Reply :=
  let x := s.chan (cmdNat c 1)
  let e := some (cmdNat c 3, cmdNat c 4)
  { s := s.setChan (cmdNat c 1) (if cmdNat c 2 = 0 then { x with edgeL := e } else { x with edgeR := e }) }

def execChainDiscover (t : Nat) (c : Cmd) (s : State) : Result := command t c s (runCommand chainDiscoverRow chainDiscoverFail chainDiscoverAct)
def execChainStatus (t : Nat) (c : Cmd) (s : State) : Result := command t c s (runCommand chainStatusRow chainStatusFail chainStatusAct)
def execChainCadence (t : Nat) (c : Cmd) (s : State) : Result := command t c s (runCommand chainCadenceRow chainCadenceFail chainCadenceAct)
def execChainEdge (t : Nat) (c : Cmd) (s : State) : Result := command t c s (runCommand chainEdgeRow chainEdgeFail chainEdgeAct)

/-! Chain time (R296 to R299). -/

/-- A timestamp: chain time of this instant, resolved to 0.25 ns (R297). -/
def State.stamp (s : State) : Nat := (s.chainTime + s.now % 2500 * 65536 / 1000) / 16384 * 16384 % 2 ^ 64

/-- The payload of a TSYNC packet. -/
def tsyncBody (kind seq t1 t2 t3 : Nat) : List Byte :=
  [BitVec.ofNat 8 kind, BitVec.ofNat 8 seq] ++ List.replicate 6 0 ++ leBytes 8 t1 ++ leBytes 8 t2 ++ leBytes 8 t3

/-- A TSYNC exchange starts on a port, every 16 µs (R297). -/
def execTsyncSend (t : Nat) (q : FabPort) (s : State) : Result :=
  live t s fun s =>
    let soon : Bool := match s.fab.tsyncAt.lookup q.val with | some u => decide (s.now < u + 16000000) | none => false
    if s.kicking ∨ s.fabUp q = false ∨ soon = true then s
    else
      let seq := (s.fab.tsyncSeq + 1) % 256
      let s := s.setFab { s.fab with tsyncAt := (q.val, s.now) :: s.fab.tsyncAt.filter fun e => decide (e.1 ≠ q.val) }
      let s := s.setFab { s.fab with tsyncSeq := seq, tsync := (q.val, (seq, s.stamp)) :: s.fab.tsync.filter fun e => decide (e.1 ≠ q.val) }
      joinDue (sendPacket q (mkPkt 0x30 0 0 s.memberId 0 (tsyncBody 0 seq s.stamp 0 0)) s)

/-- ρ stays within 200 ppm (R296, R298). -/
def clampRho (r : Int) : Int := max (-219902325) (min 219902325 r)

/-- θ on the parent port, in 2^-16 ns (R298). -/
def applyTheta (theta : Int) (s : State) : State :=
  let s := s.put R.fabTheta_THETA (wrapInt 32 (max (-(2 ^ 31)) (min (2 ^ 31 - 1) (Int.fdiv theta 256))))
  if 1000 * 65536 < theta.natAbs then
    let s := { s with chain := (((s.chain : Int) + theta * 2 ^ 40) % 2 ^ 104).toNat }
    (s.setFab { s.fab with goodSync := 0, slew := (0, 0) }).put R.fabState_SYNCED 0
  else
    let total := theta * 2 ^ 40
    let s := { s with chain := (((s.chain : Int) + total % 6400) % 2 ^ 104).toNat }
    let s := s.put R.fabRate_RHO (wrapInt 32 (clampRho (s.rho + Int.fdiv (theta * 2 ^ 24) 64000)))
    let good := if theta.natAbs ≤ 4 * 65536 then min 16 (s.fab.goodSync + 1) else 0
    let s := s.setFab { s.fab with goodSync := good, slew := (6400, Int.fdiv total 6400) }
    if 20 * 65536 < theta.natAbs then s.put R.fabState_SYNCED 0 else if good = 16 then s.put R.fabState_SYNCED 1 else s

/-- A TSYNC packet: a request is answered at once; a response to the request under way gives the delay and θ (R297). -/
def tsync (q : Nat) (p : Pkt) (s : State) : State :=
  let b := p.payload
  let seq := fieldAt b 1 1
  if fieldAt b 0 1 = 0 then sendPacket q (mkPkt 0x30 0 0 s.memberId 0 (tsyncBody 1 seq (fieldAt b 8 8) s.stamp s.stamp)) s
  else match s.fab.tsync.lookup q with
  | none => s
  | some (k, t1) =>
    if k ≠ seq then s
    else
      let d (a b : Nat) : Int := signed 64 (wrapInt 64 ((a : Int) - b))
      let (t2, t3, t4) := (fieldAt b 16 8, fieldAt b 24 8, s.stamp)
      let delay := Int.fdiv (d t4 t1 - d t3 t2) 2
      let theta := Int.fdiv (d t2 t1 - d t4 t3 - signed 16 (s.get R.fabPdly_ASYM q) * 4096) 2
      let s := s.setFab { s.fab with tsync := s.fab.tsync.filter fun e => decide (e.1 ≠ q) }
      let s := s.put R.fabPdly_DELAY (min 65535 (Int.fdiv delay 4096).toNat) q
      if s.fab.parentPort = some q then applyTheta theta s else s

def execTsync (t : Nat) (q : FabPort) (p : Pkt) (s : State) : Result :=
  packetRow t q s p (receive q p (fun p => decide (p.ty = 0x30)) (tsync q p))

/-- A read of `FAB_TIMELO` captures chain time (R296). -/
def captureTime (m : Master) (s : State) : Word × State :=
  (BitVec.ofNat 32 s.chainTime, s.setFab { s.fab with timeCap := nset 0 s.fab.timeCap m.num s.chainTime })

def execFabTimeloRead (t : Nat) (m : Master) (s : State) : Result :=
  liveRead m t s fun s => (captureTime m s).2.emit (.readData (captureTime m s).1)

end Sys2Proof.Machine
end

