-- ==== Sys2Proof/Machine/CadChain.lean ====
section
/-!
DEFINITION. Line-locked traffic between the members of a chain: cadence records (R230 to R233, R300), EDGE packets (R301,
R302), HALT packets (R303).
-/
namespace Sys2Proof.Machine

/-! The master (R231). -/

/-- The payload of a cadence record (R300). -/
def cadenceBody (config : Bool) (s : State) : List Byte :=
  let c := s.cad
  let period := if c.still then 0 else c.tc8.getD 0
  let state := s.fwNow.code + (if c.lastDir < 0 then 4 else 0) + (if config then 128 else 0)
  leBytes 8 s.chainTime ++ leBytes 8 c.tcChain ++ leBytes 5 (wrapInt 40 c.pos) ++ leBytes 5 (wrapInt 40 c.hw)
    ++ leBytes 4 period ++ leBytes 1 state ++ leBytes 1 0 ++ leBytes 5 (wrapInt 40 c.markPos) ++ leBytes 4 c.markSeq ++ leBytes 15 0
    ++ (if config then leBytes 4 (s.get R.cadPitch_K) ++ leBytes 5 (wrapInt 40 c.p0) ++ leBytes 7 (wrapInt 56 c.fbase) else [])

/-- The cadence master sends a record, at most every 250 ns (R231); CONFIG is in every 256th and in each after a change. -/
def execCadenceRecordSend (t : Nat) (s : State) : Result :=
  live t s fun s =>
    let soon : Bool := match s.fab.recAt with | some u => decide (s.now < u + 250000) | none => false
    if s.get R.cadCtrl_ROLE ≠ 1 ∨ s.lineLocked = false ∨ soon then s
    else
      let config := s.cad.recChanged || decide (s.cad.recCount % 256 = 0)
      let s := broadcast 0x01 0 (cadenceBody config s) s
      let s := s.setFab { s.fab with recAt := some s.now }
      s.setCad { s.cad with recCount := s.cad.recCount + 1, recChanged := false }

/-! The follower (R232, R233). -/

/-- The integer nearest to `near` that a 40-bit field stands for. -/
def unwrap40 (near : Int) (v : Nat) : Int := near + signed 40 (wrapInt 40 ((v : Int) - near))

/-- Freewheel state of a code. -/
def fwOfCode (n : Nat) : FwState := match n % 4 with | 0 => .track | 1 => .forward | 2 => .absorb | _ => .reversed

/-- A received record; positions continue those of the record before (R208). -/
def cadRecOf (p : Pkt) (s : State) : CadRec :=
  let f := fieldAt p.payload
  let near : Int := match s.cad.rcd with | some r => r.pos | none => 0
  let pos := unwrap40 near (f 0x10 5)
  { tc := f 0x08 8, pos := pos, hw := unwrap40 pos (f 0x15 5), period := f 0x1A 4, fw := fwOfCode (f 0x1E 1), down := bitOf (f 0x1E 1) 2,
    markPos := unwrap40 pos (f 0x20 5), markSeq := f 0x25 4, arrived := s.now }

/-- Pitch, *P*0 and *F*_base of a record that carries them. -/
def cadConfigOf (pos : Int) (p : Pkt) : Option (Nat × Int × Int) :=
  let f := fieldAt p.payload
  if bitOf (f 0x1E 1) 7 ∧ p.payload.length = 72 then some (f 0x38 4, unwrap40 pos (f 0x3C 5), signed 56 (f 0x41 7)) else none

/-- A follower takes a record (R232). The first with CONFIG gives it its fire line; a `MARK0` edge of the master that the record
before did not tell of acts at its position (R229); one that brings REVERSED ends the strobes that had fallen due here (R216). -/
def takeRecord (p : Pkt) (s : State) : State :=
  let s := keepPast (noteE s.tick (fallLine s))
  let r := cadRecOf p s
  let s := if r.fw = .reversed ∧ s.fwNow ≠ .reversed then reverseStrobes s else s
  let seen := match s.cad.rcd with | some o => decide (o.markSeq = r.markSeq) | none => true
  let cfg := match cadConfigOf r.pos p with | some c => some c | none => s.cad.rcfg
  let s := s.setCad { s.cad with rcd := some r, rcfg := cfg, held := none }
  let s := if r.period = 0 then endCount s else s
  let s := if s.cad.everLocked ∨ cfg.isNone then fallLine s
    else
      let s := s.setCad { s.cad with everLocked := true }
      s.setCad { s.cad with line := s.fireOf s.e }
  if seen then s else (startMark (s.fireOf (r.markPos * 65536)) s).getD s

/-- A cadence packet (R232, R300); an injection of `CAD_RECORD_LOST` discards records (R429). -/
def execCadencePacket (t : Nat) (q : FabPort) (p : Pkt) (s : State) : Result :=
  packetRow t q s p (receive q p (fun p => decide (p.ty = 0x01)) (tc0 fun s =>
    if s.follows = false ∨ armedFor 15 0 s then s else takeRecord p s))

/-- No record for 8 µs, or none in the first 8 µs as a follower (R233): *E_f* is held and a job in PRINTING pauses at the next line start. -/
def execCadRecordLost (t : Nat) (s : State) : Result :=
  live t s fun s =>
    let last := match s.cad.rcd with | some r => max r.arrived s.cad.followFrom | none => s.cad.followFrom
    if s.follows = false ∨ s.cad.held.isSome ∨ s.now < last + 8000000 then s
    else
      let e := s.e
      let m := meets 15 0 true s
      let s := raise 15 0 none 0 m.2.1 m.2.2
      let s := s.setCad { s.cad with held := some e }
      if s.dev = .printing then haltAtLine (s.cad.line + 1) 0 s else s

/-! EDGE (R301, R302). -/

/-- An image line is no longer needed by any port of a channel. -/
def State.lineGone (s : State) (ch : Nat) (y : Int) : Bool :=
  let far := listMax ((List.range 4).map fun k => s.baseOff (4 * ch + k)) + 63
  decide (y + far + (match s.job with | some j => j.shift | none => 0) < s.fire)

/-- Records of one image line from the member that `CHAIN_EDGE` names, for the job in force. -/
def takeEdge (p : Pkt) (s : State) : State :=
  let f := fieldAt p.payload
  let y := signed 64 (f 0x08 8)
  let ch := f 0x15 1
  let side := f 0x16 1
  let x := s.chan ch
  let named := if side = 0 then x.edgeL else x.edgeR
  let job := match s.job with | some j => decide (j.id.toNat = f 0x10 4) | none => false
  if job = false ∨ 3 < ch ∨ 1 < side ∨ named ≠ some (p.src.toNat, f 0x14 1) then s
  else
    let begun : Bool := match s.job with | some j => j.y0.isSome && j.printing | none => false
    let keep := s.fab.edgeIn.filter fun e => !decide (e.1 = (ch, side, y)) && !(begun && s.lineGone e.1.1 e.1.2.2)
    let used := s.fab.edgeUsed.filter fun e => !(begun && s.lineGone e.1.1 e.1.2.2)
    runHubs (s.setFab { s.fab with edgeIn := ((ch, side, y), unpackRecords ((p.payload.drop 0x18).take 192)) :: keep, edgeUsed := used })

def execEdgePacket (t : Nat) (q : FabPort) (p : Pkt) (s : State) : Result :=
  packetRow t q s p (receive q p (fun p => decide (p.ty = 0x02)) (tc0 (takeEdge p)))

/-! HALT (R303). -/

/-- The member pauses at the chain line, or, where that line has started, at its next line start, whatever halt it had before it for a later line. A
job whose start line is not reached yet pauses only if it starts below the chain line. -/
def takeHalt (p : Pkt) (s : State) : State :=
  let f := fieldAt p.payload
  let fc := signed 64 (f 0x08 8)
  match s.job with
  | none => s
  | some j =>
    if j.id.toNat ≠ f 0x10 4 then s
    else if s.dev = .printing then
      if s.fire < fc then haltAtLine fc 0 s
      else haltAtLine (s.cad.line + 1) 0 (raise 31 0 none (wrapInt 32 (s.cad.line + 1)) false s)
    else match s.dev, j.startAt with
    | .armed, some (g, _) => if g < fc ∧ s.fire < fc then haltAtLine fc 0 s else s
    | _, _ => s

def execHaltPacket (t : Nat) (q : FabPort) (p : Pkt) (s : State) : Result :=
  packetRow t q s p (receive q p (fun p => decide (p.ty = 0x03)) (tc0 (takeHalt p)))

end Sys2Proof.Machine
end

