-- ==== Sys2Proof/Machine/Lanes.lean ====
section
/-!
DEFINITION. Device lanes (R264 to R275): block lock, bring-up, PLLs, `LANE_TEST`, error injection on a lane; the PCI Express
endpoint (R280, R282).
-/
namespace Sys2Proof.Machine

/-- What uses the lane loses it: the head link or the fabric port goes down (R242, R250, R272, R283). -/
def laneLost (l : Nat) (s : State) : State := if l < 16 then headDown l false s else fabDown (fabLane l).1 s

/-- The lane's PRBS generator or checker has taken it from coded blocks (R271). -/
def State.prbsOn (s : State) (l : Nat) : Bool := s.flag R.lnsCtrl_GENEN l || s.flag R.lnsCtrl_CHKEN l

/-- An adapted lane gains block lock after 64 valid sync headers (R267, R268). In near-end loopback the headers are its own (R272). -/
def execLaneBlockLock (t : Nat) (w : HeadWindow) (s : State) : Result :=
  live t s fun s =>
    let l := w.lane
    if s.laneOn l = false ∨ s.flag R.lnsStat_ADAPTED l = false ∨ s.prbsOn l = true ∨ gainsLock w.heads = false then s
    else
      let s := s.put R.lnsStat_LOCK 1 l
      if l.val < 16 then s else s.put (lockField (fabLane l).2) 1 (fabLane l).1

/-- A lane loses block lock and repeats its bring-up from step 3 (R267, R268). -/
def blockLoss (l : Nat) (inj : Bool) (s : State) : State := laneLost l (laneRestart l (blockLost l s inj))

/-- Sixteen invalid sync headers within 64 blocks; an armed injection stands for them. -/
def execLaneBlockLoss (t : Nat) (w : HeadWindow) (s : State) : Result :=
  live t s fun s =>
    let l := w.lane
    let m := meets 25 l (losesLock w.heads) s
    if s.flag R.lnsStat_LOCK l = false ∨ m.1 = false then s
    else
      blockLoss l m.2.1 m.2.2

/-- The CDR loses lock to the received signal: bring-up restarts at step 3, whatever FREEZE holds (R270). -/
def execCdrLockLoss (t : Nat) (l : Lane) (s : State) : Result :=
  live t s fun s => if s.flag R.lnsStat_LOCK l then blockLoss l false s else laneRestart l s

/-- An enabled lane passes a step of its bring-up, each after the one before (R268). From step 1 it sends IDLE blocks and
the ALIGN blocks among them (R242, R284). -/
def execLaneEnable (t : Nat) (x : LaneStep) (s : State) : Result :=
  live t s fun s =>
    let l := x.lane
    if s.laneOn l = false then s
    else match x.step with
    | .idle => startStream l s
    | .pll => settlePlls { s with lanePll := s.laneRate l :: s.lanePll.erase (s.laneRate l) }
    | .cdr => if s.flag R.lnsStat_PLL l then s.put R.lnsStat_CDR 1 l else s
    | .adapted => if s.flag R.lnsStat_CDR l then adaptLane l (s.put R.lnsStat_ADAPTED 1 l) else s

/-! PLLs (R46, R265). -/

/-- A PLL loses lock: a lane PLL takes down the lanes it clocks; any other brings FAULT (R46). -/
def execPllUnlock (t : Nat) (inst : Fin 6) (s : State) : Result :=
  live t s fun s =>
    let m := meets 4 inst true s
    let s := raise 4 inst none 0 m.2.1 m.2.2
    if inst.val < 3 then enterFault s
    else forEach (s.lanesAt (inst - 3)) (settlePlls { s with lanePll := s.lanePll.erase (inst - 3) }) fun l s =>
      if s.flag R.lnsStat_LOCK l then blockLoss l false s else laneRestart l s

/-- The PLL relocks by itself and its lanes repeat their bring-up (R265). -/
def execLanePllRelock (t : Nat) (rate : Fin 3) (s : State) : Result :=
  live t s fun s => settlePlls { s with lanePll := rate.val :: s.lanePll.erase rate }

/-! Test modes (R271 to R275). -/

/-- Bits of a test of `ms` milliseconds at a rate (R265). -/
def testBits (rate ms : Nat) : Nat := (match rate with | 0 => 10312500 | 1 => 12890625 | _ => 25781250) * ms

/-- The lane's checker sees its own generator: near-end loopback (R272). -/
def State.ownPattern (s : State) (l : Nat) : Bool := s.flag R.lnsCtrl_GENEN l && s.flag R.lnsCtrl_CHKEN l && decide (s.get R.lnsCtrl_LOOP l = 1)

/-- Bits that a lane has sent or received since an instant. -/
def State.bitsSince (s : State) (l u : Nat) : Nat := (s.now - u) * testBits (s.laneRate l) 1 / 1000000000

/-- A `LANE_TEST` of the lane is open. -/
def State.testOpen (s : State) (l : Nat) : Bool := s.fw.opens.any fun o => decide (o.op = 0x0A05 ∧ o.data.headD 0 = l)

/-- A lane's checker up to now (R271). In near-end loopback it has met the errors that were injected. Of another signal no row of the table
brings the bits: outside `LANE_TEST`, whose completion names the errors, what it has counted and whether it is synchronised are free values
(log entry 146). With far-end loopback it is bypassed. -/
def settleChecker (l : Nat) (s : State) : State :=
  match s.laneChk.lookup l with
  | none => s
  | some (u, errs, counted) =>
    if s.ownPattern l then
      let run := prbsRun errs (s.bitsSince l u)
      let s := { s with laneChk := mapInsert natLt l (u, errs, run.1) (s.laneChk.filter fun e => decide (e.1 ≠ l)) }
      (s.bump R.lnsPrbserr_ERRORS l 0 (run.1 - counted)).put R.lnsStat_PRBSLOCK (b2n run.2) l
    else if s.testOpen l ∨ s.get R.lnsCtrl_LOOP l = 2 then s
    else
      ((s.drawn.drawn.bump R.lnsPrbserr_ERRORS l 0 (Config.freeNat s.freeCount)).put R.lnsStat_PRBSLOCK (Config.freeNat (s.freeCount + 1) % 2) l)

/-- The checker begins, or stops (R271). -/
def startChecker (l : Nat) (s : State) : State :=
  let rest := s.laneChk.filter fun e => decide (e.1 ≠ l)
  { s.put R.lnsStat_PRBSLOCK 0 l with laneChk := if s.flag R.lnsCtrl_CHKEN l then mapInsert natLt l (s.now, [], 0) rest else rest }

/-- A lane's test settings change. A lane that PRBS takes from coded blocks loses block lock (R267); the equalisers hold the values they have
when `FREEZE` is set (R270). -/
def setLaneTest (l : Nat) (v : Word) (s : State) : State :=
  let s := catchUp (linkOf l) (settleChecker l s)
  let frozen := s.flag R.lnsCtrl_FREEZE l
  let s := startChecker l (s.setReg ⟨.lnsCtrl, l, 0⟩ v)
  let s := if frozen = false ∧ s.flag R.lnsCtrl_FREEZE l = true ∧ s.flag R.lnsStat_ADAPTED l = true then adaptLane l s else s
  let s := if s.prbsOn l ∧ s.flag R.lnsStat_LOCK l then blockLost l s else s
  if s.laneTested l then laneLost l s else s

def laneTestRow : OpRow := { op := 0x0A05, argw := 3, states := [.ready] }
/-- Arguments; then another test of the queue; then traffic on the lane (R273). -/
def laneTestFail (c : Cmd) (s : State) : Option (Nat × Nat) :=
  let l := cmdNat c 1
  let w := cmdNat c 2
  let d := cmdNat c 3
  let up := if l < 16 then s.flag R.hptPstat_LINKUP l else s.fabUp (fabLane l).1
  firstFail [(decide (23 < l ∨ 4 < w % 8 ∨ 2 < bitsOf w 4 2 ∨ w ≠ w % 8 + 16 * bitsOf w 4 2 ∨ d = 0 ∨ 60000 < d), (stBadArgument, 0)),
    (queueBusy c s, (stBusy, 0)), (up || heldElsewhere c [0x0A05] l s || (decide (l < 16) && portHeld c portOps l s), (stConflict, 0))]
def laneTestAct (c : Cmd) (s : State) : Reply :=
  let l := cmdNat c 1
  let w := cmdNat c 2
  let loop := bitsOf w 4 2
  let old := (s.reg ⟨.lnsCtrl, l, 0⟩).toNat
  let v := 2 * (w % 8) + 16 + (if loop = 2 then 0 else 32) + 64 * loop + bitsOf old 8 1 * 256
  let s := (setLaneTest l (BitVec.ofNat 32 v) s).put R.lnsPrbserr_ERRORS 0 l
  { s := openE 0x0A05 c [l, old, 0] s }
def execLaneTest (t : Nat) (c : Cmd) (s : State) : Result := command t c s (runCommand laneTestRow laneTestFail laneTestAct)

/-- Two rising lists as one. -/
def mergeRising : Nat → List Nat → List Nat → List Nat
  | 0, as, bs => as ++ bs
  | _, [], bs => bs
  | _, as, [] => as
  | n + 1, a :: as, b :: bs => if a < b then a :: mergeRising n as (b :: bs) else if b < a then b :: mergeRising n (a :: as) bs else mergeRising n as bs

/-- The test's duration ends: the lane is restored. `errors` are the bits that differed, in rising order, in a signal that carries the pattern,
as in near-end loopback it always does, where those injected join them; the checker counts those it met synchronised; with far-end loopback it
is not used (R271 to R274). -/
def execLaneTestDone (t : Nat) (q : Queue) (present : Bool) (errors : List Nat) (s : State) : Result :=
  completion t 0x0A05 q s fun o s =>
    if s.now < o.t0 + cmdNat o.cmd 3 * 1000000000 then s
    else
      let l := o.data.headD 0
      let loop := bitsOf (cmdNat o.cmd 2) 4 2
      let seen := decide (loop ≠ 2) && (present || decide (loop = 1))
      let mine := match s.laneChk.lookup l with | some e => if loop = 1 then e.2 else ([], 0) | none => ([], 0)
      let run := prbsRun (mergeRising (errors.length + mine.1.length) errors mine.1) (testBits (s.laneRate l) (cmdNat o.cmd 3))
      let n := if seen then min 0xFFFFFFFF (s.get R.lnsPrbserr_ERRORS l + (run.1 - mine.2)) else 0
      let s := { s with laneChk := s.laneChk.filter fun e => decide (e.1 ≠ l) }
      let s := setLaneTest l (BitVec.ofNat 32 (o.data.getD 1 0)) (s.put R.lnsPrbserr_ERRORS n l)
      finish o stOk 0 [n, b2n (run.2 && seen)] s

/-- Offset of `LNS_INJ` of a lane. -/
def lnsInjOff (l : Nat) : Nat := 0x2C0010 + 0x100 * l

/-- Injected bits that the lane's own checker is to meet, from the next bit on (R271, R272, R274). -/
def injectPattern (l bits : Nat) (s : State) : State :=
  match s.laneChk.lookup l with
  | none => s
  | some (u, errs, counted) =>
    let first := s.bitsSince l u
    let errs := mergeRising (errs.length + bits) errs ((List.range bits).map (first + ·))
    { s with laneChk := mapInsert natLt l (u, errs, counted) (s.laneChk.filter fun e => decide (e.1 ≠ l)) }

/-- A write of `LNS_INJ` injects one error into what the lane transmits next (R274): into the next block of the coded stream, or the next bits of a
pattern. A block that has begun when the write comes shows the error in the output of this command (log entry 144). -/
def laneInject (l : Nat) (v : Word) (s : State) : State :=
  let s := s.put R.lnsInj_LEN (fieldOf v 8 6) l
  let kind := fieldOf v 0 2
  let bits := if kind = 2 then fieldOf v 8 6 + 1 else 1
  if kind = 0 then s
  else
    let s := if s.ownPattern l ∧ kind ≠ 3 then injectPattern l bits s else s
    let s := if s.streamPaused (linkOf l) ∨ s.now < (s.streamIn s.tx (linkOf l)).at_ then s
      else { s with tx := { s.tx with inj := s.tx.inj ++ [(l, (s.now, kind, bits))] } }
    s.emit (.laneError l kind bits)

def execLnsInj (t : Nat) (m : Master) (l : Lane) (v : Word) (s : State) : Result :=
  liveWrite m t s fun s => gated 17 (lnsInjOff l) m s (laneInject l v)

/-! The host port (R280, R282). -/

/-- `PERST_N`, a function-level reset or the link going down: the endpoint alone is reset, the host's session ends, BAR and MSI-X settings
return to their defaults, and the host enumerates the function again; but for a function-level reset the link trains first. -/
def execPcieReset (t : Nat) (kind : PcieReset) (s : State) : Result :=
  live t s fun s =>
    if s.hostLink = false then s
    else
      let s := endSession .host none s
      match kind with
      | .flr => reEnumerate s.now (s.bump R.lnsPciestat_FLRS)
      | _ => pcieUp (s.bump R.lnsPciestat_DOWNS)

/-- An AER error (R282). The header log takes the TLP of an uncorrectable one, whose content the PCI Express specification gives and this
spec does not: four free words (log entry 139). -/
def execPcieError (t : Nat) (uncorrectable : Bool) (s : State) : Result :=
  live t s fun s =>
    if s.hostLink = false then s
    else if uncorrectable then raise 27 0 none 0 false (logHeader s)
    else
      let m := meets 26 0 true s
      raise 26 0 none 0 m.2.1 m.2.2

end Sys2Proof.Machine
end

