-- ==== Sys2Proof/Machine/DramRows.lean ====
section
/-!
DEFINITION. Commands of the DRAM controller and its code (spec 14 and 15): bursts, drains, refresh, row windows, re-measurement
and alerts; the scrubber; erasures, the poison list and the diagnosis path; the host's DRAM window (R278).
-/
namespace Sys2Proof.Machine

/-- A range lies in installed DRAM. -/
def State.inDram (s : State) (a n : Nat) : Bool := decide (a + n ≤ s.capacity)

/-! Accesses. -/

/-- A DIMM channel has a read slot: the reads made since the last one join those that wait, and the one chosen is decoded, corrected,
poisoned or failed (R318, R320, R332 to R335). No requester uses DRAM before it is trained, or beyond its capacity (R313). -/
def execDramRead (t : Nat) (d : Dimm) (made : List ReadReq) (s : State) : Result :=
  liveReading [13, 14] t s fun s =>
    let served (r : ReadReq) : Bool := s.trained && s.inDram (burstOf r.addr) 64
    let s := forEach (made.filter fun r => !served r) s fun r s => s.emit (.burst r.req none)
    let s := forEach (made.filter served) s fun r s => noteUse r.addr (s.setDram { s.dram with reads := s.dram.reads ++ [(r, s.now)] })
    match s.nextRead d with
    | none => s
    | some (c, e) => answerRead c e s

/-- A write burst enters the queue of its DIMM channel (R319). -/
def execDramWrite (t : Nat) (req : Fin 8) (addr : Nat) (data : List Byte) (s : State) : Result :=
  live t s fun s => if s.inDram addr data.length then dramWrite req addr data s else s

/-- A read waits for a DIMM channel. -/
def State.readWaits (s : State) (d : Nat) : Bool := s.dram.reads.any fun e => decide ((s.loc e.1.addr).c = d)

/-- Queued writes that may drain now: all before the first whose subchannel is held for a re-measurement (R319, R326). -/
def State.drainable (s : State) (d : Nat) : Nat := ((s.wq d).takeWhile fun w => !s.dqsHeld (s.loc w.addr)).length

/-- While no read waits for its DIMM channel, queued writes drain, oldest first (R319). -/
def execWriteDrain (t : Nat) (d : Dimm) (s : State) : Result :=
  liveReading [12] t s fun s => if s.trained ∧ s.readWaits d = false then drainN (s.drainable d) d s else s

/-- A write shorter than a burst, or not aligned to one (R341, R342). -/
def execNarrowWrite (t : Nat) (req : Fin 8) (addr : Nat) (bytes : List Byte) (s : State) : Result :=
  liveReading [12, 13, 14] t s fun s => if s.inDram addr bytes.length then dramWrite req addr bytes s else s

/-- A host read of DRAM: Unsupported Request without DRAM, Completer Abort for a bus error (R278, R313). -/
def execBar2Read (t addr len : Nat) (s : State) : Result :=
  liveReading [13, 14, 17] t s fun s =>
    if s.hostLink = false then s
    else if s.trained = false ∨ s.inDram addr len = false then s.emit .unsupported
    else
      let r := dramRead 5 addr len s
      (r.2.tally 0x0602 0 (if r.1.isSome then len else 0)).emit (match r.1 with | some bs => .bar2Data bs | none => .bar2Abort)

/-- A host write of DRAM; one that is not whole aligned bursts is completed by read-modify-write (R278, R341), and without DRAM it is an
Unsupported Request (R313). -/
def execBar2Write (t addr : Nat) (bytes : List Byte) (s : State) : Result :=
  liveReading [12, 16] t s fun s =>
    if s.hostLink = false then s
    else if s.trained = false ∨ s.inDram addr bytes.length = false then logUnsupported addr bytes.length s
    else dramWrite 5 addr bytes (s.tally 0x0601 0 bytes.length)

/-! Rows, refresh, timing (R321 to R327). -/

/-- A requester's level after a window: every second window without a crossing lowers it by 1 (R324). -/
def settleLevel (req : Nat) (s : State) : State :=
  let n := mapGet 0 s.dram.quiet req + 1
  if s.dram.crossed.contains req ∨ s.get (levelField req) = 0 then s.setDram { s.dram with quiet := nset 0 s.dram.quiet req 0 }
  else if n < 2 then s.setDram { s.dram with quiet := nset 0 s.dram.quiet req n }
  else (s.setDram { s.dram with quiet := nset 0 s.dram.quiet req 0 }).put (levelField req) (s.get (levelField req) - 1)

/-- The doubled refresh rate of a DIMM. -/
def doubleField (d : Nat) : Fld := if d = 0 then R.dmcRefstat_DOUBLE0 else R.dmcRefstat_DOUBLE1

/-- The refresh window of a DIMM: 32 ms, or 16 ms at the doubled rate (R322). -/
def State.rowWindow (s : State) (d : Nat) : Nat := if s.flag (doubleField d) then 16000000000 else 32000000000

/-- The window by which throttle levels fall: the longer of the two DIMMs' (R324; log entry 94). -/
def State.levelWindow (s : State) : Nat := max (s.rowWindow 0) (s.rowWindow 1)

/-- The refresh window of a DIMM ends: the counts of its banks return to 0 (R322). -/
def endWindow (d : Nat) (s : State) : State :=
  if s.now < mapGet 0 s.dram.windowAt d + s.rowWindow d then s
  else s.setDram { s.dram with
    trackers := s.dram.trackers.filter (fun e => decide (e.1 / 128 ≠ d)), windowAt := nset 0 s.dram.windowAt d s.now }

/-- The window of the throttle levels ends (R324). -/
def endLevels (s : State) : State :=
  if s.now < s.dram.levelAt + s.levelWindow then s
  else
    let s := forEach (List.range 8) s settleLevel
    s.setDram { s.dram with crossed := [], levelAt := s.now }

/-- Refresh windows end, of each DIMM by its own rate (R322, R324). -/
def execRowWindowEnd (t : Nat) (s : State) : Result :=
  live t s fun s => if s.trained = false then s else endWindow 1 (endWindow 0 (endLevels s))

/-- Number of a bank index of a rank: 4*rank + index, ranks by channel, subchannel and rank. -/
def debtKey (d : Nat) (sub rank : Bool) (bank : Nat) : Nat := ((d * 2 + b2n sub) * 2 + b2n rank) * 4 + bank

/-- The debt of a bank index of a rank now: one refresh in every interval (R321). -/
def State.owes (s : State) (d k : Nat) : Nat × Nat :=
  let iv := if s.flag (doubleField d) then 1950000 else 3900000
  match s.dram.debt.lookup k with
  | some (n, since) => (n + (s.now - since) / iv, since + (s.now - since) / iv * iv)
  | none => (0, s.now)

/-- The debt of each bank index of a DIMM counted up to now. -/
def settleDebt (d : Nat) (s : State) : State :=
  s.setDram { s.dram with debt := s.dram.debt.map fun e => if e.1 / 16 = d then (e.1, s.owes d e.1) else e }

/-- MR4 is read every 16 ms; the debt up to now is that of the rate before it (R321). -/
def execMr4Poll (t : Nat) (d : Dimm) (doubled : Bool) (s : State) : Result :=
  live t s fun s =>
    if s.trained = false ∨ (match s.dram.mr4At.lookup d.val with | some u => decide (s.now < u + 16000000000) | none => false) = true then s
    else
      let s := settleDebt d s
      (s.setDram { s.dram with mr4At := (d.val, s.now) :: s.dram.mr4At.filter fun e => decide (e.1 ≠ d.val) }).put (doubleField d) (b2n doubled)

/-- The debt of a rank, over its four bank indices. -/
def State.rankDebt (s : State) (d : Nat) (sub rank : Bool) : Nat :=
  ((List.range 4).map fun b => (s.owes d (debtKey d sub rank b)).1).sum

/-- One refresh of a bank index is settled. -/
def settleOne (k : Nat) (s : State) : State :=
  let e := mapGet (0, 0) s.dram.debt k
  s.setDram { s.dram with debt := s.dram.debt.map fun x => if x.1 = k then (k, (e.1 - 1, e.2)) else x }

/-- The bank index of a rank with the largest debt, the lowest on a tie. -/
def State.mostOwing (s : State) (d : Nat) (sub rank : Bool) : Nat :=
  let debt (b : Nat) : Nat := (mapGet (0, 0) s.dram.debt (debtKey d sub rank b)).1
  [1, 2, 3].foldl (fun m b => if debt m < debt b then b else m) 0

/-- All-bank refreshes, each of which settles 4 of the rank's debt, taken one by one from the index that owes most (R321; log entry 143). -/
def allBank : Nat → Nat → Bool → Bool → State → State
  | 0, _, _, _, s => s
  | n + 1, d, sub, rank, s =>
    allBank n d sub rank (forEach (List.range 4) ((s.bump R.dmcRefstat_FALLBACK).tally 0x0205 d) fun _ s =>
      settleOne (debtKey d sub rank (s.mostOwing d sub rank)) s)

/-- A queued request targets a bank of the rank. -/
def State.targets (s : State) (d : Nat) (sub rank : Bool) (bank : Nat) : Bool :=
  (((s.wq d).map (·.addr)) ++ s.dram.reads.map fun e => e.1.addr).any fun a =>
    let l := s.loc a; decide (l.c = d ∧ l.sub = b2n sub ∧ l.rank = b2n rank ∧ l.bank = bank)

/-- A refresh: from a debt of the rank of 12, all-bank refreshes until it is below 12; else a same-bank refresh, which settles one of its
bank index, once no queued request targets its banks (R321). -/
def execDramRefresh (t : Nat) (d : Dimm) (sub rank : Bool) (bank : Fin 4) (s : State) : Result :=
  live t s fun s =>
    if s.trained = false then s
    else
      let n := s.rankDebt d sub rank
      let s := settleDebt d s
      if 12 ≤ n then allBank ((n - 12) / 4 + 1) d sub rank s
      else if s.targets d sub rank bank then s
      else settleOne (debtKey d sub rank bank) s

/-- A request is queued for a subchannel. -/
def State.subBusy (s : State) (d sub : Nat) : Bool :=
  (((s.wq d).map (·.addr)) ++ s.dram.reads.map fun e => e.1.addr).any fun a => decide ((s.loc a).c = d ∧ (s.loc a).sub = sub)

/-- A gap of at least 400 ns in which no request is queued for a subchannel (R326). -/
def State.dqsGap (s : State) (d : Nat) (sub : Bool) : Bool :=
  !s.subBusy d (b2n sub) && decide (mapGet 0 s.dram.used (2 * d + b2n sub) + 400000 ≤ s.now)

/-- A subchannel re-measures its DQS timing, in a gap, or, 1 s after the latest, with its requests held for 400 ns; the new delay, a free
value, applies from the next access (R326). -/
def execDqsRemeasure (t : Nat) (d : Dimm) (sub gap drifted : Bool) (s : State) : Result :=
  live t s fun s =>
    let k := 2 * d.val + b2n sub
    let may := if gap then s.dqsGap d sub else decide (mapGet 0 s.dram.dqsAt k + 1000000000000 ≤ s.now)
    if s.trained = false ∨ may = false then s
    else
      let s := s.drawn.setDram { s.dram with dqsAt := nset 0 s.dram.dqsAt k s.now, delay := nset 0 s.dram.delay k (Config.freeNat s.freeCount) }
      let s := if gap then s else (s.bump R.dmcTrainstat_FORCED).setDram { s.dram with dqsHold := nset 0 s.dram.dqsHold k (s.now + 400000) }
      let m := meets 35 d drifted s
      if m.1 then raise 35 d none 0 m.2.1 (m.2.2.bump R.dmcTrainstat_DRIFT) else m.2.2

/-- The commands of a DIMM channel in the preceding 64 cycles are issued again, in order (R327). -/
def reissue (d : Nat) (s : State) : State :=
  forEach (s.dram.issued.filter fun e => decide ((s.loc e.addr).c = d ∧ s.now ≤ e.at_ + 64 * s.dramCycle)) s fun e s =>
    issue e.req e.addr e.data s

/-- A command parity alert: the commands of the preceding 64 cycles are issued again; a second alert within 1 ms is FATAL (R327). -/
def execDramAlert (t : Nat) (d : Dimm) (s : State) : Result :=
  live t s fun s =>
    if s.trained = false then s
    else
      let last := mapGet 0 s.dram.lastAlert d
      let m := meets 36 d (decide (last ≠ 0 ∧ s.now < last + 1000000000)) (s.bump R.dmcTrainstat_ALERTS)
      let s := m.2.2
      let s := reissue d (s.setDram { s.dram with lastAlert := nset 0 s.dram.lastAlert d s.now })
      if m.1 then fatal 36 d none 0 m.2.1 s else s

/-! The scrubber (R345 to R348). -/

/-- Bursts of a pass: all below the controller reserved region. -/
def State.scrubBursts (s : State) : Nat := s.regionBase 10 / 64

/-- The next burst not in the poison table. -/
def State.skipPoison (s : State) : Nat → Nat → Nat
  | 0, n => n
  | fuel + 1, n => if n < s.scrubBursts ∧ (s.poisonOf (64 * n)).isSome then s.skipPoison fuel (n + 1) else n

/-- A scrub read: a corrected burst is queued for writing and counted, an uncorrectable one poisoned (R346, R347). -/
def scrubBurst (a : Nat) (s : State) : State :=
  if (s.queued a).isSome then s
  else
    let (r, inj, s) := decodeRead a (issue 6 a none (awaitTurn false 6 a s))
    match r with
    | none => poisonBurst 2 6 a (raise 38 (s.loc a).c (some a) 0 inj (s.bump R.eccUncorr_COUNT))
    | some (_, []) => match s.trackOf a with | some (_, e) => if e.rewritten then untrack a s else s | none => s
    | some (w, dev) =>
      let s := raise 37 (s.loc a).c (some a) 0 inj (s.bump R.eccCorr_COUNT)
      let s := rewriteTracked a w (trackCorrected a dev s)
      let s := forEach dev s fun e s => countDevice (s.loc a) e.1 1 s
      if (s.queued a).isSome then s else queueWrite 6 a (w.take 64) s

/-- The position shows. -/
def setScrub (n : Nat) (s : State) : State := (s.setDram { s.dram with scrub := n }).put R.eccScrubpos_POS n

/-- A scrub period in ps. -/
def scrubPs (minutes : Nat) : Nat := minutes * 60 * 1000000000000

/-- The pass in progress ends at `passEnd`, with its reads spaced evenly over it: the instant at which the read of burst `n` is due
(R345). -/
def State.scrubDue (s : State) (n : Nat) : Nat :=
  s.dram.passEnd - scrubPs (s.get R.eccScrub_PERIOD) * (s.scrubBursts - n) / s.scrubBursts

/-- The end of a complete pass: every device's COUNT is halved, and the next pass begins, at the end of the period or, if that is
past, at once (R348, R349). -/
def endPass (s : State) : State :=
  let s := forEach (List.range 4) s fun i s => forEach (List.range 20) s fun d s => s.put R.eccDev_COUNT (s.get R.eccDev_COUNT i d / 2) i d
  let next := max s.dram.passEnd s.now + scrubPs (s.get R.eccScrub_PERIOD)
  setScrub 0 ((s.setDram { s.dram with passEnd := next, lateRaised := false, secondRaised := [] }).bump R.eccScrub_PASSES)

/-- The scrubber reads the next burst once its read is due; the first pass begins at the first read (R345). -/
def execScrubRead (t : Nat) (s : State) : Result :=
  liveReading [13, 14] t s fun s =>
    if s.trained = false then s
    else
      let s := if s.dram.passEnd = 0 then s.setDram { s.dram with passEnd := s.now + scrubPs (s.get R.eccScrub_PERIOD) } else s
      let n := s.skipPoison 257 s.dram.scrub
      if s.now < s.scrubDue n then s
      else if s.scrubBursts ≤ n then endPass s
      else
        let s := scrubBurst (64 * n) s
        if s.scrubBursts ≤ n + 1 then endPass s else setScrub (n + 1) s

/-- The period ends before the pass does (R348): raised once for the pass. -/
def execScrubLate (t : Nat) (s : State) : Result :=
  live t s fun s =>
    if s.dram.passEnd = 0 ∨ s.now < s.dram.passEnd ∨ s.dram.lateRaised then s
    else raise 42 0 none 0 false (s.setDram { s.dram with lateRaised := true })

/-- A change of period applies to the remainder of the pass in progress (R345). -/
def setScrubPeriod (minutes : Nat) (s : State) : State :=
  let s := s.put R.eccScrub_PERIOD minutes
  if s.dram.passEnd = 0 then s
  else s.setDram { s.dram with passEnd := s.now + scrubPs minutes * (s.scrubBursts - s.dram.scrub) / s.scrubBursts }

def scrubPeriodRow : OpRow := { op := 0x0B05, argw := 1, states := anyState }
def scrubPeriodFail (c : Cmd) (_ : State) : Option (Nat × Nat) := if cmdNat c 1 < 10 ∨ 10080 < cmdNat c 1 then some (stBadArgument, 0) else none
def scrubPeriodAct (c : Cmd) (s : State) : Reply := { s := setScrubPeriod (cmdNat c 1) s }
def execScrubPeriod (t : Nat) (c : Cmd) (s : State) : Result := command t c s (runCommand scrubPeriodRow scrubPeriodFail scrubPeriodAct)

/-! Erasures and the poison list (R340, R350). -/

def eccErasureRow : OpRow := { op := 0x0B03, argw := 3, states := [.ready] }
/-- The location of a device index. -/
def erasureLoc (c : Cmd) : DramLoc := { c := cmdNat c 1, sub := cmdNat c 3 / 10, bg := 0, bank := 0, rank := cmdNat c 2, row := 0, col := 0 }
def eccErasureFail (c : Cmd) (s : State) : Option (Nat × Nat) :=
  let l := erasureLoc c
  firstFail [(decide (1 < cmdNat c 1 ∨ 1 < cmdNat c 2 ∨ 19 < cmdNat c 3), (stBadArgument, 0)),
    (s.flag (eraseEn l.sub) (eraseIndex l) && decide (s.get (eraseDev l.sub) (eraseIndex l) ≠ cmdNat c 3 % 10), (stConflict, 0))]
def eccErasureAct (c : Cmd) (s : State) : Reply :=
  let l := erasureLoc c
  { s := (s.put (eraseDev l.sub) (cmdNat c 3 % 10) (eraseIndex l)).put (eraseEn l.sub) 1 (eraseIndex l) }
def execEccErasure (t : Nat) (c : Cmd) (s : State) : Result := command t c s (runCommand eccErasureRow eccErasureFail eccErasureAct)

/-- A record of the poison list (R340). -/
def poisonRecord (e : Poison) (s : State) : List Byte :=
  let l := s.loc e.addr
  e.owner ++ leBytes 8 e.addr ++ leBytes 1 e.cause ++ leBytes 1 e.req ++ leBytes 1 (l.c + 2 * l.sub + 4 * l.rank) ++ leBytes 5 0

def poisonListRow : OpRow := { op := 0x0B04, argw := 2, states := anyState }
def poisonListFail (c : Cmd) (s : State) : Option (Nat × Nat) :=
  firstFail [(!destOk (cmdDword c 1) (32 * s.dram.poison.length) s, (stBadArgument, 0)), (needsDram (cmdDword c 1) s, (stNoResource, 0))]
def poisonListAct (c : Cmd) (s : State) : Reply :=
  { words := [s.dram.poison.length], s := deliver 4 (cmdDword c 1) (s.dram.poison.flatMap fun e => poisonRecord e.2 s) s }
def execPoisonList (t : Nat) (c : Cmd) (s : State) : Result := command t c s (runCommand poisonListRow poisonListFail poisonListAct)

/-! The diagnosis path (R354). -/

/-- The address of the diagnosis registers. -/
def State.diagAddr (s : State) : Nat := 64 * s.get R.eccDiagaddrlo_ADDR + 2 ^ 32 * s.get R.eccDiagaddrhi_ADDR

/-- The diagnosis buffer as bytes. -/
def State.diagBytes (s : State) : List Byte := (List.range 20).flatMap fun i => wordBytes (s.reg ⟨.eccDiagbuf, i, 0⟩)

/-- Bytes into the buffer from word `i` on. -/
def setDiag : Nat → List Word → State → State
  | _, [], s => s
  | i, w :: r, s => setDiag (i + 1) r (s.setReg ⟨.eccDiagbuf, i, 0⟩ w)

/-- An operation on the burst at the diagnosis address; an illegal address sets ERR and the operation does nothing. -/
def diagOp (m : Master) (s : State) (f : Nat → State → State) : State :=
  gated 9 0x240080 m s fun s =>
    let a := s.diagAddr
    if s.reservedAddr a ∨ s.capacity ≤ a then s.put R.eccDiagctrl_ERR 1 else f a (s.put R.eccDiagctrl_ERR 0)

/-- The 80 bytes are queued as they stand. -/
def diagWrite (a : Nat) (s : State) : State := if s.trained then queueWrite 7 a s.diagBytes s else s

/-- Queued writes drain until none to the burst waits; the stored bytes are returned. -/
def diagRead (a : Nat) (s : State) : State :=
  if s.trained = false then s
  else
    let c := (s.loc a).c
    let n := (s.wq c).length - (((s.wq c).reverse.findIdx fun w => decide (w.addr = burstOf a)))
    let s := issue 7 a none (drainN n c s)
    setDiag 0 (bytesWords (s.stored a)) s

/-- The check bytes of words 0 to 15. -/
def diagCheck (s : State) : State := setDiag 16 (bytesWords (rsCheck (s.diagBytes.take 64))) s

def execDiagRawWrite (t : Nat) (m : Master) (s : State) : Result := liveWrite m t s fun s => diagOp m s diagWrite
def execDiagRawRead (t : Nat) (m : Master) (s : State) : Result := liveWrite m t s fun s => diagOp m s diagRead
def execDiagEncode (t : Nat) (m : Master) (s : State) : Result := liveWrite m t s fun s => diagOp m s fun _ s => diagCheck s

end Sys2Proof.Machine
end

