-- ==== Sys2Proof/Machine/Dma.lean ====
section
/-!
DEFINITION. DMA channels (R355 to R370): descriptors and their validity, the fence, start, abort and resume, `DMA_RUN`; the CRC
units (R371 to R375). What a channel moves stands in DmaMove.lean.
-/
namespace Sys2Proof.Machine

/-! CRC algorithms (R371). -/

/-- Width, polynomial as the register takes it, initial value, reflected, final XOR. -/
def crcAlg (poly : Nat) : Nat × Nat × Nat × Bool × Nat :=
  if poly = 0 then (32, 0x82F63B78, 0xFFFFFFFF, true, 0xFFFFFFFF)
  else if poly = 1 then (32, 0xEDB88320, 0xFFFFFFFF, true, 0xFFFFFFFF)
  else if poly = 2 then (16, 0x1021, 0xFFFF, false, 0)
  else (64, 0x42F0E1EBA9EA3693, 0, false, 0)

/-- The initial value of an algorithm. -/
def crcStart (poly : Nat) : Nat := (crcAlg poly).2.2.1

/-- Bytes into the register of an algorithm. -/
def crcFeed (poly r : Nat) (bs : List Byte) : Nat :=
  let (w, p, _, refl, _) := crcAlg poly
  if refl then bs.foldl (crcByteR p) r else bs.foldl (crcByteL w p) r

/-- The result after the final XOR. -/
def crcResult (poly r : Nat) : Nat := r ^^^ (crcAlg poly).2.2.2.2

/-! Descriptors (R357 to R359). -/

/-- The descriptor that 32 bytes hold. -/
def descOf (bs : List Byte) : Desc :=
  { src := fieldAt bs 0 8, dst := fieldAt bs 8 8, len := fieldAt bs 16 4, ctl := BitVec.ofNat 32 (fieldAt bs 20 4), next := fieldAt bs 24 8 }

def Desc.sw (d : Desc) : Nat := fieldOf d.ctl 0 3
def Desc.dw (d : Desc) : Nat := fieldOf d.ctl 3 3
def Desc.crcSel (d : Desc) : Nat := fieldOf d.ctl 6 3
def Desc.irq (d : Desc) : Bool := decide (fieldOf d.ctl 12 1 = 1)
def Desc.last (d : Desc) : Bool := decide (fieldOf d.ctl 13 1 = 1)
def Desc.tag (d : Desc) : Nat := fieldOf d.ctl 16 16

/-- A range lies in the register and SRAM space (R440). -/
def inRegSpace (a n : Nat) : Bool := decide (0x8000000000 ≤ a ∧ a + n ≤ 0x8000400000)

/-- An address range of a descriptor follows R358; that of a descriptor which moves nothing is its one address (R359). -/
def descRange (a len : Nat) (source : Bool) (s : State) : Bool :=
  let n := max 1 len
  match addrSpace a with
  | 0 => decide (bitsOf a 40 22 = 0) && (decide (a % 2 ^ 40 + n ≤ s.capacity) || inRegSpace (a % 2 ^ 40) n)
  | 2 => decide (a % 2 ^ 62 + n ≤ 2 ^ 62)
  | 3 => source && decide (bitsOf a 40 14 = 0 ∧ a % 2 ^ 40 + n ≤ 2 ^ 40)
  | _ => false

/-- The access width is 4 bytes on the register space. -/
def widthOk (a w : Nat) : Bool := decide (addrSpace a ≠ 0 ∨ a % 2 ^ 40 < 0x8000000000 ∨ w = 2)

/-- A byte of DRAM that the fence permits as a destination (R365). -/
def State.fencePermits (s : State) (a : Nat) : Bool :=
  let stage := s.regionBase 1
  let fwd := s.regionBase 7
  (decide (stage ≤ a ∧ a < stage + 0x400000) && bitOf (s.get R.dmaFence_STAGE) ((a - stage) / 0x100000))
    || (s.flag R.dmaFence_FWD && decide (fwd ≤ a ∧ a < fwd + 0x40000000))

/-- The fence of a channel refuses a descriptor (R365): the first and last byte of each MiB touched are judged. -/
def fenceRefuses (n : Nat) (d : Desc) (s : State) : Bool :=
  s.flag R.dmaCtrl_FENCE n &&
    ((decide (addrSpace d.dst = 0) &&
        !((List.range ((d.dst % 0x100000 + max 1 d.len - 1) / 0x100000 + 1)).all fun i =>
            s.fencePermits (max (d.dst % 2 ^ 40) (d.dst % 2 ^ 40 - d.dst % 0x100000 + i * 0x100000))))
      || decide (addrSpace d.src = 0 ∧ s.capacity < d.src % 2 ^ 40 + max 1 d.len))

/-- A descriptor is invalid (R359); `first` is the CRC field of the chain's first descriptor. -/
def descInvalid (n : Nat) (first : Option Nat) (d : Desc) (s : State) : Bool :=
  let unit := 2 ^ max d.sw d.dw
  decide (fieldOf d.ctl 14 2 ≠ 0 ∨ fieldOf d.ctl 9 3 ≠ 0 ∨ 4 < d.crcSel ∨ 6 < d.sw ∨ 6 < d.dw ∨ d.len % unit ≠ 0
      ∨ d.src % 2 ^ d.sw ≠ 0 ∨ d.dst % 2 ^ d.dw ≠ 0 ∨ (first.isSome = true ∧ first ≠ some d.crcSel))
    || !descRange d.src d.len true s || !descRange d.dst d.len false s || (!d.last && !descRange d.next 32 false s)
    || !widthOk d.src d.sw || !widthOk d.dst d.dw || fenceRefuses n d s

/-! Channel control (R356, R360, R367, R368). -/

/-- A write of a register of channel `n` has effect (R356). -/
def dmaWrites (m : Master) (n off : Nat) (s : State) (f : State → State) : State :=
  gated 10 off m s fun s =>
    if m = .control ∨ (m = .host ∧ (n ≠ 7 ∨ s.owner true 1 = 4)) then f s else s

/-- A channel's state code. -/
def State.dmaState (s : State) (n : Nat) : Nat := s.get R.dmaStat_STATE n

/-- The running check shows. -/
def showDmaCrc (n v : Nat) (s : State) : State := (s.put R.dmaCrclo_CRC (lo32 v) n).put R.dmaCrchi_CRC (hi32 v) n

/-- START (R360): while the channel runs it has no effect. A completion that held `IRQ_N` low holds it no more (log entry 138). -/
def dmaBegin (n : Nat) (s : State) : State :=
  if s.dmaState n = 1 then s
  else
    let a := 32 * s.get R.dmaDesclo_ADDR n + 2 ^ 32 * s.get R.dmaDeschi_ADDR n
    let s := showDmaCrc n 0 (setFail n 0 (setDmaStat n 1 0 0 0 s))
    let s := { s with pcie := { s.pcie with irqs := s.pcie.irqs.filter (· ≠ n) } }
    ((s.put R.dmaStat_TAG 0 n).put R.dmaCount_DESCS 0 n).setDma n { at_ := a, since := s.now }

/-- ABORT (R368): a running or halted channel stops and is idle with cause 6. -/
def dmaStop (n : Nat) (s : State) : State :=
  if s.dmaState n = 1 ∨ s.dmaState n = 2 then
    let x := s.dmaCh n
    (setDmaStat n 0 6 (s.get R.dmaStat_DIR n) (s.get R.dmaStat_DESC n) s).setDma n { x with hold := [], cur := none, moved := 0, tries := 0, checked := 0, writeBack := false }
  else s

/-- RESUME (R368): a halted channel goes on from the point of failure. A descriptor that is read again counts once. -/
def dmaContinue (n : Nat) (s : State) : State :=
  if s.dmaState n ≠ 2 then s
  else
    let cause := s.get R.dmaStat_CAUSE n
    let x := s.dmaCh n
    let s := setDmaStat n 1 0 0 0 s
    if cause = 1 ∨ cause = 2 then s.setDma n { x with tries := 0, since := s.now }
    else
      let count := if cause = 4 then 0 else s.get R.dmaCount_DESCS n - 1
      (s.put R.dmaCount_DESCS count n).setDma n { x with cur := none, moved := 0, hold := [], tries := 0, since := s.now }

/-- A write of `DMA_CTRL` (R356, R360, R368): FENCE is master 2's alone; START, then RESUME, then ABORT act. -/
def dmaCtrlWrite (m : Master) (n : Nat) (v : Word) (s : State) : State :=
  dmaWrites m n (0x250000 + 0x100 * n) s fun s =>
    let s := if m = .control then s.put R.dmaCtrl_FENCE (fieldOf v 11 1) n else s
    let s := (s.put R.dmaCtrl_RETRY (fieldOf v 8 3) n).put R.dmaCtrl_IRQDST (fieldOf v 4 1) n
    let s := if fieldOf v 0 1 = 1 then dmaBegin n s else s
    let s := if fieldOf v 2 1 = 1 then dmaContinue n s else s
    if fieldOf v 1 1 = 1 then dmaStop n s else s

def execDmaStart (t : Nat) (m : Master) (n : DmaCh) (v : Word) (s : State) : Result := liveWrite m t s (dmaCtrlWrite m n (v ||| 1))
def execDmaAbort (t : Nat) (m : Master) (n : DmaCh) (v : Word) (s : State) : Result := liveWrite m t s (dmaCtrlWrite m n (v ||| 2))
def execDmaResume (t : Nat) (m : Master) (n : DmaCh) (v : Word) (s : State) : Result := liveWrite m t s (dmaCtrlWrite m n (v ||| 4))

/-! CRC units (R371 to R375). -/

/-- The register of a unit. -/
def State.crcVal (s : State) (u : Nat) : Nat := s.get R.crcVallo_VAL u + 2 ^ 32 * s.get R.crcValhi_VAL u

/-- The algorithm of a unit: a change of POLY takes effect with the next INIT (R372). -/
def State.crcPolyOf (s : State) (u : Nat) : Nat := mapGet 0 s.crcPoly u

/-- The register replaced; bits above the width read 0. -/
def setCrcVal (u v : Nat) (s : State) : State :=
  let v := v % 2 ^ (crcAlg (s.crcPolyOf u)).1
  (s.put R.crcVallo_VAL (lo32 v) u).put R.crcValhi_VAL (hi32 v) u

/-- A write to unit `u` has effect (R375). -/
def crcWrites (m : Master) (u off : Nat) (s : State) (f : State → State) : State :=
  gated 11 (0x260000 + 0x40 * u + off) m s fun s =>
    let y := s.owner true 0
    let ok : Bool := match y with
      | 3 => decide (m = .control)
      | 4 => decide (m = .control ∨ m = .host)
      | 5 => decide (m = .control)
      | 7 => decide (m = .ridge)
      | 6 => decide (m = .debug)
      | _ => false
    if u ≠ 3 then (if m = .control ∨ m = .host then f s else s) else if ok then f s else s

/-- INIT: the initial value; ERR and OVERRUN clear. -/
def crcInitUnit (u : Nat) (s : State) : State :=
  let s := { s with crcPoly := nset 0 s.crcPoly u (s.get R.crcCfg_POLY u) }
  ((setCrcVal u (crcStart (s.get R.crcCfg_POLY u)) s).put R.crcStat_ERR 0 u).put R.crcStat_OVERRUN 0 u

/-- GO: a scan begins where MODE is 1 and none is in progress (R374). -/
def crcGoUnit (u : Nat) (s : State) : State := if s.flag R.crcCfg_MODE u ∧ s.flag R.crcStat_BUSY u = false then s.put R.crcStat_BUSY 1 u else s

/-- A write of `CRC_CFG`: the fields, then INIT, then GO. -/
def crcCfgWrite (m : Master) (u : Nat) (v : Word) (s : State) : State :=
  crcWrites m u 0 s fun s =>
    let s := (s.put R.crcCfg_MODE (fieldOf v 4 1) u).put R.crcCfg_POLY (fieldOf v 0 2) u
    let s := if fieldOf v 8 1 = 1 then crcInitUnit u s else s
    if fieldOf v 9 1 = 1 then crcGoUnit u s else s

def execCrcInit (t : Nat) (m : Master) (u : CrcUnit) (v : Word) (s : State) : Result := liveWrite m t s (crcCfgWrite m u (v ||| 0x100))
def execCrcGo (t : Nat) (m : Master) (u : CrcUnit) (v : Word) (s : State) : Result := liveWrite m t s (crcCfgWrite m u (v ||| 0x200))

/-- Bytes fed by a register write (R373, R374): none while a scan is in progress, which sets OVERRUN, and none with MODE 1. -/
def crcData (m : Master) (u logBytes : Nat) (v : Word) (s : State) : State :=
  crcWrites m u (8 + 4 * logBytes) s fun s =>
    if s.flag R.crcStat_BUSY u then s.put R.crcStat_OVERRUN 1 u
    else if s.flag R.crcCfg_MODE u then s
    else setCrcVal u (crcFeed (s.crcPolyOf u) (s.crcVal u) ((wordBytes v).take (2 ^ logBytes))) s

def execCrcDataFeed (t : Nat) (m : Master) (u : CrcUnit) (logBytes : Fin 3) (v : Word) (s : State) : Result :=
  liveWrite m t s (crcData m u logBytes v)

/-- A write of VALLO or VALHI sets its half of the register (R372). -/
def crcValWrite (m : Master) (u : Nat) (hi : Bool) (v : Word) (s : State) : State :=
  crcWrites m u (if hi then 0x18 else 0x14) s fun s =>
    setCrcVal u (if hi then s.crcVal u % 2 ^ 32 + 2 ^ 32 * v.toNat else v.toNat + 2 ^ 32 * (s.crcVal u / 2 ^ 32)) s

def execCrcValWrite (t : Nat) (m : Master) (u : CrcUnit) (hi : Bool) (v : Word) (s : State) : Result := liveWrite m t s (crcValWrite m u hi v)

end Sys2Proof.Machine
end

