-- ==== Sys2Proof/Machine/Bist.lean ====
section
/-!
DEFINITION. Field BIST (R418 to R422) and the commands of the error collector (R423 to R428).
-/
namespace Sys2Proof.Machine

/-! Slices (R418 to R421). -/

/-- Instances of each SRAM group. -/
def groupInstances : List Nat := [16, 8, 8, 8, 64, 64, 16, 16, 16, 16, 4, 4, 2, 2, 2, 8, 2, 2, 4, 4, 16, 2, 2, 2]
def instancesOf (g : Nat) : Nat := groupInstances.getD g 0

/-- The spare of a group holds a retired instance's role (R421). -/
def State.spareBusy (s : State) (g : Nat) : Bool := s.spareUsed.contains g || s.flag R.bstRepair_SPARE g

/-- The slices running show. -/
def showSlices (s : State) : State := s.put R.bstStat_ACTIVE s.slices.length

/-- The slice of a group. -/
def State.sliceOf (s : State) (g : Nat) : Option Slice := s.slices.find? fun x => decide (x.g = g)

/-- A group's slice replaced, or ended. -/
def setSlice (g : Nat) (x : Option Slice) (s : State) : State :=
  let rest := s.slices.filter fun y => decide (y.g ≠ g)
  showSlices { s with slices := match x with | some y => rest ++ [y] | none => rest }

/-- Every instance that the periodic schedule can test has been tested. -/
def State.scheduleDone (s : State) (done : List (Nat × Nat)) : Bool :=
  (List.range 24).all fun g => s.spareBusy g || (List.range (instancesOf g)).all fun i => done.contains (g, i)

/-- A slice ends: for `BIST_RUN` where it ran for it, else for the schedule (R419, R422). -/
def sliceEnds (x : Slice) (s : State) : State :=
  if x.asked then { s with bistPlan := s.bistPlan.filter fun e => decide (e ≠ (x.g, x.inst)) }
  else
    let done := (x.g, x.inst) :: s.bistDone
    if s.scheduleDone done then { s with bistDone := [] }.bump R.bstStat_PASSES else { s with bistDone := done }

/-- Time between the slices of the schedule: they are spread evenly over its hours (R419). -/
def State.sliceSpacing (s : State) : Nat := s.get R.bstCtrl_PERIOD * 3600000000000000 / groupInstances.sum

/-- A slice starts: an instance of a group whose spare is free, within MAXSLICE; for `BIST_RUN`, or for the schedule while EN is 1, once its
next slice is due. -/
def execBistSliceStart (t : Nat) (g : BistGroup) (inst : Nat) (s : State) : Result :=
  live t s fun s =>
    let asked := s.bistPlan.contains (g.val, inst)
    let wanted := asked || (s.flag R.bstCtrl_EN && !s.bistDone.contains (g.val, inst) && decide (s.bistAt ≤ s.now))
    if s.dev = .boot ∨ s.dev = .held ∨ s.otp.lc = .retired ∨ wanted = false ∨ instancesOf g ≤ inst ∨ s.spareBusy g = true ∨ (s.sliceOf g).isSome = true
      ∨ s.get R.bstCtrl_MAXSLICE ≤ s.slices.length then s
    else
      let s := if asked then s else { s with bistAt := s.now + s.sliceSpacing }
      sramRead g inst (setSlice g (some { g := g, inst := inst, step := 1, since := s.now, asked := asked }) s)

/-- At a line boundary the spare takes the instance's role, or hands it back and the slice ends (steps 3 and 6). -/
def execBistSliceSwap (t : Nat) (g : BistGroup) (s : State) : Result :=
  live t s fun s =>
    match s.sliceOf g with
    | none => s
    | some x =>
      if s.boundaryFor x.since = false then s
      else if x.step = 1 then setSlice g (some { x with step := 3, since := s.now }) s
      else if x.step = 5 then sliceEnds x (setSlice g none s)
      else s

/-- A failure is latched where none is (R421). -/
def latchFailure (g inst addr bit : Nat) (inj : Bool) (s : State) : State :=
  if s.flag R.bstRes0_VALID then s
  else
    let s := ((s.put R.bstRes0_VALID 1).put R.bstRes0_INJ (b2n inj)).put R.bstRes0_GROUP g
    ((s.put R.bstRes0_INSTANCE inst).put R.bstRes1_ADDR addr).put R.bstRes2_BIT bit

/-- A failure of a slice: latched and raised, and kept for `BIST_RUN`. -/
def sliceFails (x : Slice) (addr bit : Nat) (inj : Bool) (s : State) : State :=
  let s := if x.asked then { s with bistResult := s.bistResult ++ [(x.g, x.inst, addr)] } else s
  let s := latchFailure x.g x.inst addr bit inj s
  raise 64 x.g (some addr) (s.reg ⟨.bstRes0, 0, 0⟩).toNat inj s

/-- The instance is not put back: the spare keeps its role, and the repair that the redundancy gives is written (R421). -/
def retire (g inst : Nat) (addr : Word) (bit : Nat) (s : State) : State :=
  let s := setSlice g none s
  let s := { s with spareUsed := g :: s.spareUsed, bistPlan := s.bistPlan.filter fun e => decide (e.1 ≠ g) }
  let s := s.put R.bstRepair_INSTANCE inst g
  match Config.repairFor g inst addr bit with
  | some (row, col) => (s.put R.bstRepair_ROW row.toNat g).put R.bstRepair_COL col.toNat g
  | none => raise 65 g (some addr.toNat) 0 false ((s.put R.bstRepair_NOREPAIR 1 g).put R.bstRepair_SPARE 1 g)

/-- The march of the freed instance ends (step 4). An injected failure is at address 0, bit 0, and the instance is put back
(R429). -/
def execBistMarchDone (t : Nat) (g : BistGroup) (fail : Option (Word × Fin 72)) (s : State) : Result :=
  live t s fun s =>
    match s.sliceOf g with
    | none => s
    | some x =>
      if x.step ≠ 3 then s
      else if armedFor 64 g s then setSlice g (some { x with step := 5, since := s.now }) (sliceFails x 0 0 true (disarm s))
      else match fail with
      | none => setSlice g (some { x with step := 5, since := s.now }) s
      | some (a, b) => retire g x.inst a b.val (sliceFails x a.toNat b.val false s)

/-! BIST_RUN (R420, R422). -/

/-- Groups that a `BIST_RUN` names. -/
def runGroups (w : Nat) : List Nat := if w = 0xFF then List.range 24 else [w]

def bistRunRow : OpRow := { op := 0x0A01, argw := 2, states := activeStates }
def bistRunFail (c : Cmd) (s : State) : Option (Nat × Nat) :=
  let g := cmdNat c 1
  let clash := s.fw.opens.any fun o => decide (o.op = 0x0A01 ∧ o.cmd.q ≠ c.q) && (runGroups (cmdNat o.cmd 1)).any fun x => (runGroups g).contains x
  firstFail [(decide ((23 < g ∧ g ≠ 0xFF) ∨ 3 < cmdNat c 2), (stBadArgument, 0)), (queueBusy c s, (stBusy, 0)), (clash, (stConflict, 0)),
    (decide (cmdNat c 2 ≠ 0 ∧ s.otp.lc ≠ .test ∧ s.otp.lc ≠ .rma), (stDenied, 0))]
def bistRunAct (c : Cmd) (s : State) : Reply :=
  let gs := runGroups (cmdNat c 1)
  let free := gs.filter fun g => !s.spareBusy g
  let plan := free.flatMap fun g => (List.range (instancesOf g)).map fun i => (g, i)
  { s := openE 0x0A01 c [cmdNat c 1, gs.length - free.length, 0] { s with bistPlan := s.bistPlan ++ plan } }
def execBistRun (t : Nat) (c : Cmd) (s : State) : Result := command t c s (runCommand bistRunRow bistRunFail bistRunAct)

/-- All requested slices have ended. -/
def execBistRunDone (t : Nat) (q : Queue) (s : State) : Result :=
  completion t 0x0A01 q s fun o s =>
    let gs := runGroups (o.data.headD 0)
    if s.bistPlan.any fun e => gs.contains e.1 then s
    else
      let fails := s.bistResult.filter fun e => gs.contains e.1
      let s := { s with bistResult := s.bistResult.filter fun e => !gs.contains e.1 }
      match fails with
      | e :: _ => finish o stOk 0 [1, e.2.1 + 256 * (e.2.2 % 2 ^ 24)] s
      | [] => finish o stOk 0 [if o.data.getD 1 0 = 0 then 0 else 2, 0] s

/-! The error collector's commands (R423, R425, R427, R428). -/

/-- A detector of R429. -/
def isDetector (i : Nat) : Bool := decide (1 ≤ i ∧ i ≤ 65)

def errReadRow : OpRow := { op := 0x0A02, argw := 3, states := anyState }
def errReadFail (c : Cmd) (s : State) : Option (Nat × Nat) :=
  firstFail [(!isDetector (cmdNat c 1) || !destOk (cmdDword c 2) 64 s, (stBadArgument, 0)), (needsDram (cmdDword c 2) s, (stNoResource, 0))]
/-- First and last record go to the destination; a record that does not exist is zeros. -/
def errReadAct (c : Cmd) (s : State) : Reply :=
  let i := cmdNat c 1
  let r := mapGet ([], []) s.ctxRec i
  let pad (l : List Byte) : List Byte := l ++ List.replicate (32 - l.length) 0
  let pend := (s.reg (hostPend i)).toNat
  let s := s.setReg (hostPend i) (BitVec.ofNat 32 (if bitOf pend (i % 32) then pend - 2 ^ (i % 32) else pend))
  { words := [detClass i, s.get R.errCount_COUNT i], s := reads [23] (deliver 4 (cmdDword c 2) (pad r.1 ++ pad r.2) s) }
def execErrRead (t : Nat) (c : Cmd) (s : State) : Result := command t c s (runCommand errReadRow errReadFail errReadAct)

/-- Detectors whose entry of R429 gives a D or S point. -/
def injectable : List Nat :=
  [1, 2, 3, 4, 7, 8, 10, 11, 12, 13, 14, 15, 16, 17, 18, 19, 20, 21, 22, 23, 24, 25, 26, 29, 30, 35, 36, 37, 38, 45, 46, 47, 50, 51, 52, 54,
   56, 57, 58, 60, 62, 63, 64]

/-- The injection is of kind R (R427). -/
def kindR (c : Cmd) : Bool := bitOf (cmdNat c 2) 16 || !injectable.contains (cmdNat c 1)

def errInjectRow : OpRow := { op := 0x0A03, argw := 2, states := anyState }
/-- Kinds D and S are served in fewer states (R428). -/
def errInjectFail (c : Cmd) (s : State) : Option (Nat × Nat) :=
  let i := cmdNat c 1
  let safety := decide (2 ≤ detClass i)
  let state := kindR c || decide (s.dev = .ready) || (!safety && decide (s.dev = .armed ∨ s.dev = .printing ∨ s.dev = .paused))
  firstFail [(!isDetector i, (stBadArgument, 0)), (!state, (stWrongState, 0)), (decide (2 ^ 17 ≤ cmdNat c 2), (stBadArgument, 0)),
    (safety && decide (c.q = .q8), (stDenied, 0)), (s.inject.isSome, (stBusy, 0))]
/-- Kind R records a raise at once and nothing else acts; any other is armed (R427). -/
def errInjectAct (c : Cmd) (s : State) : Reply :=
  let i := cmdNat c 1
  let inst := cmdNat c 2 % 256
  if kindR c then { s := raise i inst none 0 true s }
  else
    let x : Inject := { id := i, inst := inst, count := max 1 (bitsOf (cmdNat c 2) 8 8) }
    let s := { s with inject := some x }
    { s := ((s.put R.errInjstat_ARMED 1).put R.errInjstat_INSTANCE inst).put R.errInjstat_ID i }
def execErrInject (t : Nat) (c : Cmd) (s : State) : Result := command t c s (runCommand errInjectRow errInjectFail errInjectAct)

def errRouteRow : OpRow := { op := 0x0A04, argw := 3, states := anyState }
def errRouteFail (c : Cmd) (_ : State) : Option (Nat × Nat) :=
  firstFail [(!isDetector (cmdNat c 1), (stBadArgument, 0)), (decide (2 ≤ detClass (cmdNat c 1)), (stDenied, 0))]
def errRouteAct (c : Cmd) (s : State) : Reply :=
  { s := (s.put R.errCfg_MASK (cmdNat c 2 % 2) (cmdNat c 1)).put R.errCfg_ROUTE (cmdNat c 3 % 8) (cmdNat c 1) }
def execErrRoute (t : Nat) (c : Cmd) (s : State) : Result := command t c s (runCommand errRouteRow errRouteFail errRouteAct)

/-- CLR clears a detector's count and records (R423). -/
def clearDetector (i : Nat) (s : State) : State :=
  if isDetector i then { s.put R.errCount_COUNT 0 i with ctxRec := nset ([], []) s.ctxRec i ([], []) } else s

def execErrCfgClr (t : Nat) (m : Master) (i : Fin 66) (s : State) : Result :=
  liveWrite m t s fun s => gated 16 (0x2B0100 + 8 * i) m s (clearDetector i)

end Sys2Proof.Machine
end

