-- ==== Sys2Proof/Machine/Motion.lean ====
section
/-!
DEFINITION. The motion generator (spec 18): commands, steps, limit switches, homing and standstill. The instants of a
move's steps are those of the `MOTION_STEP` commands (log entry 14).
-/
namespace Sys2Proof.Machine

/-- Position of an axis (R393). -/
def axisPos (s : State) (a : Nat) : Int := signed 32 (s.get R.motAxPos_POS a)

/-- The active level of both switches of an axis is the level given by POL (R398). -/
def switchActive (s : State) (a : Nat) (side : SwitchSide) : Bool :=
  s.flag (match side with | .limn => R.motAxStat_LIMN | .limp => R.motAxStat_LIMP) a

/-- An axis is held by an open motion command of another queue (R397). -/
def axisHeld (c : Cmd) (a : Nat) (s : State) : Bool :=
  s.fw.opens.any fun o => decide (o.cmd.q ≠ c.q ∧ (o.op = 0x0902 ∨ o.op = 0x0903)) && o.data.contains a

/-! Commands. -/

def motConfigRow : OpRow := { op := 0x0901, argw := 6, states := [.ready, .armed, .paused] }
/-- Ranges of R392, R394 and R395. -/
def motConfigFail (c : Cmd) (s : State) : Option (Nat × Nat) :=
  let a := cmdNat c 1
  if 7 < a ∨ cmdNat c 2 = 0 ∨ 4000000 < cmdNat c 2 ∨ cmdNat c 3 = 0 ∨ 2 ^ 31 ≤ cmdNat c 3 ∨ cmdNat c 4 = 0 ∨ 2 ^ 31 ≤ cmdNat c 4
      ∨ 255 < cmdNat c 5 ∨ cmdNat c 6 = 0 ∨ 65535 < cmdNat c 6 then some (stBadArgument, 0)
  else if axisHeld c a s then some (stConflict, 0)
  else if (s.axis a).moving then some (stBusy, 0)
  else none
/-- The ball group of axis 6 or 7 (R391). -/
def axisGroup (a : Nat) : Nat := a - 4

/-- The axis has its balls: axes 6 and 7 only while their group is owned FUNCTION (R38, R391). -/
def axisOnBalls (s : State) (a : Nat) : Bool := decide (a < 6) || decide (s.owner false (axisGroup a) = 2)

/-- The group of axis 6 or 7 is claimed first; a refused claim is a CONFLICT (R391). -/
def motConfigAct (c : Cmd) (s : State) : Reply :=
  let a := cmdNat c 1
  let claim : Bool × State := if a < 6 then (true, s) else claimFor false (axisGroup a) 2 s
  if claim.1 = false then { status := stConflict, s := claim.2 }
  else
  let s := claim.2
  let s := ((s.put R.motAxVmax_VMAX (cmdNat c 2) a).put R.motAxAmax_AMAX (cmdNat c 3) a).put R.motAxJmax_JMAX (cmdNat c 4) a
  let s := (s.put R.motAxCur_HOLD (cmdNat c 5) a).put R.motAxCur_STILLMS (cmdNat c 6) a
  let s := s.setAxis a { s.axis a with configured := true, lastStep := s.now }
  { s := if s.get R.motAxStat_STATE a = 0 then s.put R.motAxStat_STATE 1 a else s }
def motConfigRun : Cmd → State → State := runCommand motConfigRow motConfigFail motConfigAct

/-- The axes of a mask with their targets, lowest axis first (R396). -/
def moveTargets (c : Cmd) : List (Nat × Int) :=
  (maskList 8 (cmdNat c 1)).zipIdx.map fun e => (e.1, signed 32 (cmdNat c (2 + e.2)))

/-- Steps to go of each axis (R393). -/
def moveSteps (c : Cmd) (s : State) : List (Nat × Nat) := (moveTargets c).map fun e => (e.1, (e.2 - axisPos s e.1).natAbs)

/-- The master: the axis with the most steps to go, the lowest-numbered on a tie (R396). -/
def moveMaster (l : List (Nat × Nat)) : Nat × Nat := l.foldl (fun m e => if m.2 < e.2 then e else m) (l.headD (0, 0))

def motMoveRow : OpRow := { op := 0x0902, argw := 9, states := [.ready, .armed, .paused] }
/-- Conditions of R393, R396 and R397. -/
def motMoveFail (c : Cmd) (s : State) : Option (Nat × Nat) :=
  let l := moveTargets c
  let extra := (List.range 8).any fun k => decide (l.length ≤ k ∧ c.w (2 + k) ≠ 0)
  if cmdNat c 1 = 0 ∨ 255 < cmdNat c 1 ∨ extra = true
      ∨ (l.any fun e => !(s.axis e.1).configured || decide (2 ^ 31 - 1 < (e.2 - axisPos s e.1).natAbs)
        || (decide (axisPos s e.1 < e.2) && switchActive s e.1 .limp) || (decide (e.2 < axisPos s e.1) && switchActive s e.1 .limn)) = true then
    some (stBadArgument, 0)
  else if s.flag R.rdgMoten_GATE = false then some (stWrongState, 0)
  else if (l.any fun e => axisHeld c e.1 s) then some (stConflict, 0)
  else if queueBusy c s ∨ (l.any fun e => (s.axis e.1).moving) = true then some (stBusy, 0)
  else none
/-- The move starts: every axis takes its step count and direction; accumulators start at half of the master's count
(R396). A move from the hold level restores RUN and steps 200 us later (R394); DIR stands 200 ns before a step (R393). -/
def motMoveAct (c : Cmd) (s : State) : Reply :=
  let l := moveSteps c s
  let m := moveMaster l
  let s := forEach (moveTargets c) s fun e s =>
    let n := (e.2 - axisPos s e.1).natAbs
    let up := decide (axisPos s e.1 < e.2)
    let held := s.flag R.motAxStat_HOLDCUR e.1
    let s := s.setAxis e.1 { s.axis e.1 with
      moving := true, homing := false, group := m.1, total := n, left := n, acc := m.2 / 2, up := up,
      dirUp := if n = 0 then (s.axis e.1).dirUp else up, phase := 0, startAt := s.now + (if held then 200000000 else 200000) }
    (s.put R.motAxStat_HOLDCUR 0 e.1).put R.motAxStat_STATE 2 e.1
  { s := openE 0x0902 c (m.1 :: (l.map (·.1)).filter (fun a => decide (a ≠ m.1)) ++ [0]) s }
def motMoveRun : Cmd → State → State := runCommand motMoveRow motMoveFail motMoveAct

def motHomeRow : OpRow := { op := 0x0903, argw := 2, states := [.ready, .armed, .paused] }
def motHomeFail (c : Cmd) (s : State) : Option (Nat × Nat) :=
  let a := cmdNat c 1
  if 7 < a ∨ 1 < cmdNat c 2 ∨ (s.axis a).configured = false then some (stBadArgument, 0)
  else if s.flag R.rdgMoten_GATE = false then some (stWrongState, 0)
  else if axisHeld c a s then some (stConflict, 0)
  else if queueBusy c s ∨ (s.axis a).moving = true then some (stBusy, 0)
  else none
/-- Homing starts with the fast approach; against a switch already active it starts with the back-off (R401; log entry
14). -/
def motHomeAct (c : Cmd) (s : State) : Reply :=
  let a := cmdNat c 1
  let up := decide (cmdNat c 2 = 1)
  let onSwitch := switchActive s a (if up then .limp else .limn)
  let s := s.setAxis a { s.axis a with
    moving := true, homing := true, group := a, total := 0, left := 0, acc := 0, up := up, dirUp := if onSwitch then !up else up,
    phase := if onSwitch then 2 else 1, phaseSteps := 0, release := none, chatters := 0, recent := [],
    startAt := s.now + (if s.flag R.motAxStat_HOLDCUR a then 200000000 else 200000) }
  { s := openE 0x0903 c [a, 0] ((s.put R.motAxStat_HOLDCUR 0 a).put R.motAxStat_STATE 3 a) }
def motHomeRun : Cmd → State → State := runCommand motHomeRow motHomeFail motHomeAct

def motStopRow : OpRow := { op := 0x0904, argw := 1, states := anyState }
def motStopFail (c : Cmd) (_ : State) : Option (Nat × Nat) := if 255 < cmdNat c 1 then some (stBadArgument, 0) else none
/-- Every axis of the mask, and every axis of their moves, stops (R403). -/
def motStopAct (c : Cmd) (s : State) : Reply := { s := endMotion (maskList 8 (cmdNat c 1)) 5 stWrongState s }
def motStopRun : Cmd → State → State := runCommand motStopRow motStopFail motStopAct

/-- `MOT_AX<a>_STAT` with the level of `AX<a>_EN`: configured and GATE, on balls that the axis has (R392). -/
def motStatWord (s : State) (a : Nat) : Nat :=
  (s.reg ⟨.motAxStat, a, 0⟩).toNat + 16 * b2n ((s.axis a).configured && s.flag R.rdgMoten_GATE && axisOnBalls s a)

def motStatusRow : OpRow := { op := 0x0905, argw := 1, states := anyState }
def motStatusFail (c : Cmd) (_ : State) : Option (Nat × Nat) := if 7 < cmdNat c 1 then some (stBadArgument, 0) else none
def motStatusAct (c : Cmd) (s : State) : Reply :=
  { words := [s.get R.motAxPos_POS (cmdNat c 1), motStatWord s (cmdNat c 1)], s := s }
def motStatusRun : Cmd → State → State := runCommand motStatusRow motStatusFail motStatusAct

def execMotConfig (t : Nat) (c : Cmd) (s : State) : Result := command t c s motConfigRun
def execMotMove (t : Nat) (c : Cmd) (s : State) : Result := command t c s motMoveRun
def execMotHome (t : Nat) (c : Cmd) (s : State) : Result := command t c s motHomeRun
def execMotStop (t : Nat) (c : Cmd) (s : State) : Result := command t c s motStopRun
def execMotStatus (t : Nat) (c : Cmd) (s : State) : Result := command t c s motStatusRun

/-! Steps (R393, R395, R396, R401). -/

/-- One pulse on `AX<a>_STEP` (R393). -/
def stepAxis (a : Nat) (s : State) : State :=
  let x := s.axis a
  let s := s.put R.motAxPos_POS (wrapInt 32 (axisPos s a + (if x.dirUp then 1 else -1))) a
  let recent := if x.phase = 3 then s.now :: x.recent.filter fun u => decide (s.now < u + 10000000000) else []
  (s.setAxis a { x with left := x.left - 1, phaseSteps := x.phaseSteps + 1, lastStep := s.now, pulse := some s.now,
                        recent := recent }).emit (.step a x.dirUp)

/-- A master step: the other axes of the move add their counts and step on overflow (R396). -/
def groupStep (m : Nat) (s : State) : State :=
  let n := (s.axis m).total
  let s := stepAxis m s
  forEach ((List.range 8).filter fun a => decide (a ≠ m) && (s.axis a).moving && decide ((s.axis a).group = m)) s fun a s =>
    let x := s.axis a
    if n ≤ x.acc + x.total then stepAxis a (s.setAxis a { x with acc := x.acc + x.total - n })
    else s.setAxis a { x with acc := x.acc + x.total }

/-- A phase of homing begins at rest (R393, R401). The back-off counts its further steps from the start where the home switch is inactive
already. -/
def enterPhase (a phase : Nat) (s : State) : State :=
  let x := s.axis a
  let free := !switchActive s a (if x.up then .limp else .limn)
  s.setAxis a { x with
    phase := phase, phaseSteps := 0, dirUp := if phase = 2 then !x.up else x.up, recent := [], startAt := s.now + 200000,
    release := if phase = 2 && free then some (s.get R.motAxHome_BACKOFF a) else none }

/-- A step of homing: the last one of a deceleration or of a back-off ends its phase; a phase that has issued more than TRAVEL steps ends
homing (R401). -/
def homingStep (a : Nat) (s : State) : State :=
  let s := stepAxis a s
  let x := s.axis a
  if s.get R.motAxTravel_STEPS a < x.phaseSteps then endMotion [a] 4 stTimeout (raise 59 a none (motStatWord s a) false s)
  else match x.release with
  | some (k + 2) => s.setAxis a { x with release := some (k + 1) }
  | some _ => enterPhase a (x.phase + 1) s
  | none => s

/-- The limits of an axis that takes `n` of a move's `total` steps allow the step after `k`, with `r` left where that is known, `t` ps from
the start and `d` ps after the step before: the position reached, and the velocity over the latest interval (R395, R396; log entry 14). -/
def limitsAllow (v a j n total k t d : Nat) (r : Option Nat) : Bool :=
  let e := 1000000000000
  let q := d + 10000
  decide (k * n * e ≤ total * v * t ∧ 2 * k * n * e ^ 2 ≤ total * a * t ^ 2 ∧ 6 * k * n * e ^ 3 ≤ total * j * t ^ 3)
    && (k = 0 || (decide (n * e ≤ total * v * q) && match r with
      | some r => decide (n * e ^ 2 ≤ 2 * total * a * (r + 1) * q ^ 2 ∧ 2 * n * e ^ 3 ≤ 9 * total * j * (r + 1) ^ 2 * q ^ 3)
      | none => true))

/-- The next step of a move's master, or of a homing axis, is within the profile (R394 to R396, R401): not before the start, and not
beyond the limits of the axes that take part; the slow approach steps at its constant rate. -/
def State.paced (s : State) (m : Nat) : Bool :=
  let x := s.axis m
  let t := s.now - x.startAt
  let d := s.now - x.lastStep
  let allow (b n total k : Nat) (r : Option Nat) : Bool :=
    limitsAllow (s.get R.motAxVmax_VMAX b) (s.get R.motAxAmax_AMAX b) (s.get R.motAxJmax_JMAX b) n total k t d r
  decide (x.startAt ≤ s.now) &&
    if x.homing then
      if x.phase = 3 then x.phaseSteps = 0 || decide (1000000000000 ≤ s.get R.motAxHome_SLOW m * (d + 10000))
      else allow m 1 1 x.phaseSteps x.release
    else
      ((List.range 8).filter fun b => (s.axis b).moving && decide ((s.axis b).group = m)).all fun b =>
        allow b (s.axis b).total x.total (x.total - x.left) (some x.left)

/-- The generator's next planned step of the axis: the master of its move, or a homing axis (R395, R396, R401). While an axis of the move has lost its balls
to another owner, no step issues (R41; log entry 76). -/
def execMotionStep (t : Nat) (a : Axis) (s : State) : Result :=
  live t s fun s =>
    let x := s.axis a
    let mine := (List.range 8).filter fun b => decide (b = a.val) || ((s.axis b).moving && decide ((s.axis b).group = a.val))
    if x.moving = false ∨ s.flag R.rdgMoten_GATE = false ∨ mine.all (axisOnBalls s) = false ∨ s.paced a = false then s
    else if x.homing then homingStep a s
    else if x.group = a.val ∧ 0 < x.left then
      let inj := armedFor 57 a s
      if inj then endMotion [a.val] 1 stTimeout (raise 57 a none (motStatWord s a) true (disarm s)) else groupStep a s
    else s

/-- A move whose master has reached its target ends OK, and the position of the longest axis is reported (R402). -/
def execMotMoveDone (t : Nat) (q : Queue) (s : State) : Result :=
  completion t 0x0902 q s fun o s =>
    let m := o.data.headD 0
    if (s.axis m).moving ∧ (s.axis m).left = 0 then endMotion [m] 0 stOk s else s

/-! Switches (R398 to R401). -/

/-- Raw edges of a switch are counted: whether more than CHATN of them fall within CHATWIN at one of the new ones (R399). -/
def noteEdges (a : Nat) (side : SwitchSide) (raw : List Nat) (s : State) : Bool × State :=
  let x := s.axis a
  let win := s.get R.motAxSw_CHATWIN a * 1000000000
  let all := raw ++ (match side with | .limn => x.edgesN | .limp => x.edgesP)
  let chat := raw.any fun e => decide (s.get R.motAxSw_CHATN a < (all.filter fun u => decide (u ≤ e ∧ e < u + win)).length)
  let l := all.filter fun u => decide (s.now < u + win)
  (chat, s.setAxis a (match side with | .limn => { x with edgesN := l } | .limp => { x with edgesP := l }))

/-- Homing ends after chatter, or repeats phases 2 and 3 once if it occurred in the slow approach (R401). -/
def homingChatter (a : Nat) (s : State) : State :=
  let x := s.axis a
  if x.phase = 3 ∧ x.chatters = 0 then enterPhase a 2 (s.setAxis a { x with chatters := 1 })
  else endMotion [a] 3 stTimeout s

/-- The most steps that an axis takes from its greatest velocity to rest under its limits (R395). -/
def stopSteps (v a j : Nat) : Nat := (v * v * j + v * a * a) / (2 * a * j) + 1

/-- An axis in the fast approach decelerates to rest: how many steps it takes is free within its limits (R401; log entry 14). -/
def slowDown (a : Nat) (s : State) : State :=
  let k := Config.freeDecel s.freeCount % (stopSteps (s.get R.motAxVmax_VMAX a) (s.get R.motAxAmax_AMAX a) (s.get R.motAxJmax_JMAX a) + 1)
  let s := s.drawn
  if k = 0 then enterPhase a 2 s else s.setAxis a { s.axis a with release := some k }

/-- First sample of the stable run that is accepted now: DEBOUNCE ms ago, or one motion cycle with 0 (R398). -/
def State.stableFrom (s : State) (a : Nat) : Nat := s.now - max 10000 (s.get R.motAxSw_DEBOUNCE a * 1000000000)

/-- The position captured with the edge becomes HOMEPOS, and the steps issued after it count from there (R398, R401). -/
def captureHome (a : Nat) (s : State) : State :=
  let x := s.axis a
  let n : Int := (x.recent.filter fun u => decide (s.stableFrom a < u)).length
  s.put R.motAxPos_POS (wrapInt 32 (signed 32 (s.get R.motAxHomepos_POS a) + (if x.dirUp then n else -n))) a

/-- An accepted level of the home switch in a phase of homing (R401). -/
def homingSwitch (a : Nat) (active : Bool) (s : State) : State :=
  let x := s.axis a
  match x.phase, active, x.release with
  | 1, true, none => slowDown a s
  | 2, false, none => s.setAxis a { x with release := some (s.get R.motAxHome_BACKOFF a) }
  | 3, true, _ => endMotion [a] 0 stOk ((captureHome a s).put R.motAxStat_HOMED 1 a)
  | _, _, _ => s

/-- The debounced level of a switch, with the instants of its raw edges since the command before (R398): the edges are counted, then an
accepted change homes, stops or faults the axis (R399 to R401, R404). -/
def switchEdge (a : Nat) (side : SwitchSide) (level : Bool) (raw : List Nat) (s : State) : State :=
  let (chatter, s) := noteEdges a side raw s
  let was := switchActive s a side
  let active := level == s.flag R.motAxSw_POL a
  let s := s.put (match side with | .limn => R.motAxStat_LIMN | .limp => R.motAxStat_LIMP) (b2n active) a
  let x := s.axis a
  let chat := meets 56 a chatter s
  let wrong := if x.moving && x.homing then meets 58 a (active && !was && decide (x.up = (side = .limn))) chat.2.2 else (false, false, chat.2.2)
  let s := wrong.2.2
  let s := if chat.1 then raise 56 a none (motStatWord s a) chat.2.1 s else s
  if x.moving = false then s
  else if x.homing then
    if wrong.1 then endMotion [a] 2 stTimeout (raise 58 a none (motStatWord s a) wrong.2.1 s)
    else if chat.1 then homingChatter a s
    else if active = was ∨ x.up = decide (side = .limn) then s
    else homingSwitch a active s
  else if chat.1 then endMotion [a] 3 stTimeout s
  else if active ∧ was = false ∧ 0 < x.left ∧ (x.dirUp = (side = .limp)) then
    endMotion [a] 1 stTimeout (raise 57 a none (motStatWord s a) false s)
  else s

/-- The switches of axes 6 and 7 stand on balls of groups G2 and G3 (R38, R42). -/
def tellSwitch (a : Nat) (side : SwitchSide) (level : Bool) (s : State) : State :=
  if a < 6 then s else s.tellBall (11 + 6 * (a - 6) + (if side = .limp then 1 else 0)) level

def execLimitSwitchEdge (t : Nat) (a : Axis) (side : SwitchSide) (level : SwitchLevel) (s : State) : Result :=
  live t s fun s =>
    let s := tellSwitch a side level.level s
    if axisOnBalls s a then switchEdge a side level.level level.raw s else s

/-- No step for the standstill delay: IREF drops to the hold level (R394). -/
def execStandstillHold (t : Nat) (a : Axis) (s : State) : Result :=
  live t s fun s =>
    let x := s.axis a
    if x.configured = true ∧ x.moving = false ∧ x.lastStep + s.get R.motAxCur_STILLMS a * 1000000000 ≤ s.now then
      s.put R.motAxStat_HOLDCUR 1 a
    else s

end Sys2Proof.Machine
end

