-- ==== Sys2Proof/Machine/Pins.lean ====
section
/-!
DEFINITION. What the device drives on its balls (spec 02): the reset state of each signal (R29), and the level that the block which owns it drives
once it has taken it over. A view of the state; `GLB_GPIO_IN` reads multi-function balls through it (R42).
-/
namespace Sys2Proof.Machine

/-- Signals by the tables of R29. Axes 6 and 7 appear on multi-function balls. -/
inductive Signal where
  | hlTx (p : Nat) | fire (p k : Nat) | hpen (p : Nat)
  | fabTx (q j : Nat) | peTx (i : Nat)
  | ddrDq (c : Nat) | ddrDck (c : Nat) | ddrDcsN (c : Nat) | ddrDca (c : Nat) | ddrDpar (c : Nat) | ddrDrstN (c : Nat) | dimmSideband
  | xspiCk | xspiCsN | xspiDq | xspiRstN | tdo | i2c
  | safeN | spdwarnN | irqN
  | axStep (a : Nat) | axDir (a : Nat) | axEn (a : Nat) | axIref (a : Nat)
  | mfp (n : Nat)
deriving DecidableEq, Repr

/-- What the device does on a ball: a level, traffic of the block that owns it, or nothing, where something outside may set the level. -/
inductive Drive where
  | low | high
  /-- high impedance, an open drain let go, or an input with its weak pull-down -/
  | highZ | released | input
  /-- a lane: electrical idle, forwarding in kickstand, or its stream -/
  | idle | kickstand | stream
  /-- a lane in a test mode: a PRBS pattern in place of its blocks, or what it receives (R271, R272) -/
  | prbs (pattern : Nat) | retransmit
  /-- the traffic of a memory or flash interface -/
  | traffic
  /-- a PWM of duty `level`/256 at 390.625 kHz (R394) -/
  | pwm (level : Nat)
deriving DecidableEq, Repr

/-- A level. -/
def Drive.ofBit (b : Bool) : Drive := if b then .high else .low

/-- The balls of an axis: an axis on multi-function balls has them only while its group is owned FUNCTION (R38, R391). -/
def axisDrive (s : State) (a k : Nat) : Drive :=
  let x := s.axis a
  if k = 0 then Drive.ofBit (match x.pulse with | some u => decide (s.now < u + 100000) | none => false)
  else if k = 1 then Drive.ofBit x.dirUp
  else if k = 2 then Drive.ofBit (x.configured && s.flag R.rdgMoten_GATE)
  else if k = 3 then
    if x.configured then .pwm (if s.flag R.motAxStat_HOLDCUR a then s.get R.motAxCur_HOLD a else s.get R.motAxCur_RUN a) else .low
  else .input

/-- Group of a multi-function ball, and its place in the group. -/
def groupOf (n : Nat) : Nat × Nat :=
  if n < 6 then (0, n) else if n < 7 then (1, 0) else if n < 13 then (2, n - 7) else if n < 19 then (3, n - 13)
  else if n < 21 then (4, n - 19) else (5, n - 21)

/-- A multi-function ball by its group's owner (R38, R42): inputs while FREE, GPIO by DIR and OUT, else the group's function; the tracer's outputs
are high for a pulse (R439). -/
def mfpDrive (s : State) (n : Nat) : Drive :=
  let g := groupOf n
  let owner := s.owner false g.1
  if owner = 1 ∨ owner = 7 then
    if bitOf (s.get R.glbGpioDir_DIR) n then Drive.ofBit (bitOf (s.get R.glbGpioOut_OUT) n) else .input
  else if owner = 2 then
    match g.1 with
    | 2 => axisDrive s 6 g.2
    | 3 => axisDrive s 7 g.2
    | 4 => .released
    | 5 => Drive.ofBit (decide (s.now < mapGet 0 s.tracerUntil g.2))
    | _ => .input
  else .input

/-- The reset state of R29. After an orderly entry `DRST_N` stays high for the self-refresh. -/
def resetDrive (s : State) : Signal → Drive
  | .hlTx _ | .peTx _ => .idle
  | .fire _ _ | .hpen _ | .safeN => .low
  | .fabTx _ _ => if s.kicking then .kickstand else .idle
  | .ddrDq _ => .highZ
  | .ddrDck _ | .ddrDca _ | .ddrDpar _ => .low
  | .ddrDcsN _ => .high
  | .ddrDrstN _ => Drive.ofBit (s.boot.dramKept || s.boot.orderly.isSome)
  | .dimmSideband | .i2c | .spdwarnN | .irqN => .released
  | .xspiCk | .xspiRstN => .low
  | .xspiCsN => .high
  | .xspiDq => .input
  | .tdo => .highZ
  | .axStep _ | .axDir _ | .axEn _ | .axIref _ => .low
  | .mfp _ => .input

/-- A signal that the DRAM controller takes over when it trains (R325). -/
def dramDrive (s : State) (x : Signal) : Drive :=
  if s.trained then (match x with | .ddrDrstN _ => .high | _ => .traffic) else resetDrive s x

/-- What a lane sends: the pair is idle in near-end loopback (R272). -/
def laneDrive (s : State) (l : Nat) : Drive :=
  if s.laneOn l = false ∨ s.get R.lnsCtrl_LOOP l = 1 then .idle
  else if s.get R.lnsCtrl_LOOP l = 2 then .retransmit
  else if s.flag R.lnsCtrl_GENEN l then .prbs (s.get R.lnsCtrl_PATTERN l)
  else .stream

/-- What the device drives on a signal. -/
def State.drive (s : State) (x : Signal) : Drive :=
  if s.asserted then resetDrive s x
  else match x with
  | .hlTx p => laneDrive s p
  | .fire p k => Drive.ofBit ((s.strobe p k).high && hpen s p)
  | .hpen p => Drive.ofBit (hpen s p)
  | .fabTx q j => if s.kicking then .kickstand else laneDrive s (16 + 2 * q + j)
  | .peTx _ => if s.hostLink then .stream else .idle
  | .safeN => Drive.ofBit !s.flag R.rdgStatus_SAFE
  | .spdwarnN => if s.cad.warn then .low else .released
  | .irqN => if irqLow s then .low else .released
  | .axStep a => axisDrive s a 0
  | .axDir a => axisDrive s a 1
  | .axEn a => axisDrive s a 2
  | .axIref a => axisDrive s a 3
  | .mfp n => mfpDrive s n
  | .xspiCk | .xspiCsN | .xspiDq => .traffic
  | .xspiRstN => .high
  | .ddrDq _ | .ddrDck _ | .ddrDcsN _ | .ddrDca _ | .ddrDpar _ | .ddrDrstN _ => dramDrive s x
  | .dimmSideband | .i2c | .tdo => resetDrive s x

/-- The level of a multi-function ball: what the device drives, or what the board applies (R42). -/
def ballLevel (s : State) (n : Nat) : Bool :=
  match s.drive (.mfp n) with
  | .high => true
  | .low => false
  | .pwm level => decide (s.now / 10000 % 256 < level)
  | _ => bitOf s.mfpIn.toNat n

/-- `GLB_GPIO_IN`: the levels of all multi-function balls (R42). -/
def gpioLevels (s : State) : Word := BitVec.ofNat 32 (((List.range 24).filter (ballLevel s)).map (2 ^ ·)).sum

end Sys2Proof.Machine
end

