-- ==== Sys2Proof/Machine/Pmc.lean ====
section
/-!
DEFINITION. Performance counters and the tracer's commands (R430 to R439).
-/
namespace Sys2Proof.Machine

/-- Highest event and instance of each block of the catalogue (R433). -/
def eventBlocks : List (Nat × Nat) := [(1, 0), (9, 3), (7, 1), (4, 15), (4, 0), (4, 3), (2, 0), (1, 7), (2, 0)]

/-- The catalogue has the event, and the instance is in its range. -/
def eventOk (ev inst : Nat) : Bool :=
  match eventBlocks[ev / 256]? with
  | some (top, insts) => decide (ev % 256 ≤ top ∧ (ev % 256 = 0 → ev = 0) ∧ (inst ≤ insts ∨ inst = 0xFF))
  | none => false

/-- The claim of a counter's bank. -/
def bankClaim (n : Nat) : Nat := 3 + n / 16

/-- A counter's value; its wraps stand apart. -/
def State.counter (s : State) (n : Nat) : Nat := mapGet 0 s.counters n % 2 ^ 48
def setCounter (n v : Nat) (s : State) : State :=
  { s with counters := nset 0 s.counters n (mapGet 0 s.counters n / 2 ^ 48 * 2 ^ 48 + v % 2 ^ 48) }

def pmcSelectRow : OpRow := { op := 0x0C01, argw := 3, states := anyState }
def pmcSelectFail (c : Cmd) (_ : State) : Option (Nat × Nat) :=
  let n := cmdNat c 1
  let w := cmdNat c 2
  if 31 < n ∨ 2 ^ 24 ≤ w ∨ eventOk (w % 65536) (w / 65536) = false ∨ 1 < cmdNat c 3 ∨ (cmdNat c 3 = 1 ∧ n % 2 = 1) then some (stBadArgument, 0)
  else none
/-- The selection, the cleared counter, and the release of a bank whose counters all count nothing (R431). -/
def pmcSelectAct (c : Cmd) (s : State) : Reply :=
  let n := cmdNat c 1
  let w := cmdNat c 2
  let y := claimOwner c.q
  let claim := claimFor true (bankClaim n) y s
  if claim.1 = false then { status := stConflict, s := claim.2 }
  else
    let s := ((claim.2.put R.pmcSel_EVENT (w % 65536) n).put R.pmcSel_INST (w / 65536) n).put R.pmcSel_PAIR (cmdNat c 3) n
    let s := setCounter n 0 s
    let idle := (List.range 16).all fun i => decide (s.get R.pmcSel_EVENT (n / 16 * 16 + i) = 0)
    { s := if idle then claimFree true (bankClaim n) (s.owner true (bankClaim n)) s else s }
def execPmcSelect (t : Nat) (c : Cmd) (s : State) : Result := command t c s (runCommand pmcSelectRow pmcSelectFail pmcSelectAct)

/-- A snapshot of all counters with the chain time (R434). -/
def snapshot (s : State) : State :=
  let s := forEach (List.range 32) s fun n s => (s.put R.pmcSnaplo_COUNT (lo32 (s.counter n)) n).put R.pmcSnaphi_COUNT (hi32 (s.counter n)) n
  reads [22] ((s.put R.pmcStimelo_T (lo32 s.chainTime)).put R.pmcStimehi_T (hi32 s.chainTime))

def pmcSnapshotRow : OpRow := { op := 0x0C02, argw := 0, states := anyState }
def pmcSnapshotAct (_ : Cmd) (s : State) : Reply := { s := snapshot s }
def execPmcSnapshot (t : Nat) (c : Cmd) (s : State) : Result := command t c s (runCommand pmcSnapshotRow noFail pmcSnapshotAct)

/-- A write of SNAP. -/
def execPmcSnap (t : Nat) (m : Master) (s : State) : Result := liveWrite m t s fun s => gated 15 0x2A0000 m s snapshot

/-- A write of `PMC_USNAP` from the user page: a host write acts only while USER is 1 (R106, R435). -/
def userSnap (m : Master) (s : State) : State :=
  if m = .proxy then s
  else if m = .host ∧ s.flag R.pmcAccess_USER = false then
    (if bitOf (s.get R.glbHostacc_WEN) 15 then s else hostViolation 0x2A1000 s)
  else snapshot s

def execPmcUsnap (t : Nat) (m : Master) (s : State) : Result := liveWrite m t s (userSnap m)

/-- A read of `PMC_CNTLO` captures the whole counter for the reading master (R433). -/
def captureCount (m : Master) (n : Nat) (s : State) : Word × State :=
  (BitVec.ofNat 32 (s.counter n), { s with pmcCaps := nset 0 s.pmcCaps (32 * m.num + n) (s.counter n) })

def execPmcCntloRead (t : Nat) (m : Master) (n : Fin 32) (s : State) : Result :=
  liveRead m t s fun s => (captureCount m n s).2.emit (.readData (captureCount m n s).1)

/-- A write of a counter register has effect (R433). -/
def bankWrites (m : Master) (n off : Nat) (s : State) (f : State → State) : State :=
  gated 15 off m s fun s =>
    let y := s.owner true (bankClaim n)
    if (m = .control ∧ (y = 3 ∨ y = 4 ∨ y = 5)) ∨ (m = .host ∧ y = 4) then f s else s

/-! The tracer (R437 to R439). -/

def traceSetRow : OpRow := { op := 0x0C03, argw := 2, states := anyState }
def traceSetFail (c : Cmd) (s : State) : Option (Nat × Nat) :=
  if 3 < cmdNat c 1 ∨ 24 < cmdNat c 2 ∨ (s.chan (cmdNat c 1)).configured = false then some (stBadArgument, 0) else none
/-- The claim of the records, of ball group 5 only where it reads FREE, and the channel's sampling. -/
def traceSetAct (c : Cmd) (s : State) : Reply :=
  let claim := claimFor true 2 (claimOwner c.q) s
  if claim.1 = false then { status := stConflict, s := claim.2 }
  else
    let s := if claim.2.owner false 5 = 0 then (claimFor false 5 2 claim.2).2 else claim.2
    let ch := cmdNat c 1
    { s := { s with traceK := nset 0 s.traceK ch (cmdNat c 2), lfsr := nset 1 s.lfsr ch 1 } }
def execTraceSet (t : Nat) (c : Cmd) (s : State) : Result := command t c s (runCommand traceSetRow traceSetFail traceSetAct)

/-- The 96 bytes of a record (R438). -/
def traceBytes (r : Trace) : List Byte :=
  let st (k : Nat) : List Byte := leBytes 8 (match r.stamps.lookup k with | some v => v | none => 2 ^ 64 - 1)
  leBytes 1 0x54 ++ leBytes 1 r.ch ++ leBytes 1 r.port ++ leBytes 1 (b2n r.complete + 2 * b2n r.abandoned) ++ leBytes 4 0
    ++ leBytes 8 (wrapInt 64 r.y) ++ (List.range 10).flatMap st

def traceReadRow : OpRow := { op := 0x0C04, argw := 2, states := anyState }
def State.doneTraces (s : State) : List (Nat × Trace) := s.traces.filter fun e => e.2.finished
def traceReadFail (c : Cmd) (s : State) : Option (Nat × Nat) :=
  firstFail [(!destOk (cmdDword c 1) (96 * s.doneTraces.length) s, (stBadArgument, 0)), (needsDram (cmdDword c 1) s, (stNoResource, 0))]
def traceReadAct (c : Cmd) (s : State) : Reply :=
  let l := s.doneTraces
  let s := showTraces { s with traces := s.traces.filter fun e => !e.2.finished }
  { words := [l.length], s := reads [22] (deliver 4 (cmdDword c 1) (l.flatMap fun e => traceBytes e.2) s) }
def execTraceRead (t : Nat) (c : Cmd) (s : State) : Result := command t c s (runCommand traceReadRow traceReadFail traceReadAct)

/-- A record not complete 10 ms after its decode start is abandoned (R438). -/
def execTraceAbandon (t : Nat) (r : Fin 16) (s : State) : Result :=
  live t s fun s =>
    let late (e : Nat × Trace) : Bool := decide (e.1 = r.val ∧ e.2.t0 + 10000000000 ≤ s.now) && !e.2.finished
    showTraces { s with traces := s.traces.map fun e => if late e then (e.1, { e.2 with abandoned := true }) else e }

end Sys2Proof.Machine
end

