-- ==== Sys2Proof/Machine/Flags.lean ====
section
/-!
DEFINITION. What registers show that the register store does not hold: status fields and captured values that the spec computes
from other state (R80, R88, R125, R169, R185, R207 to R217, R296, R372, R377, R385, R430, R433, R445).
-/
namespace Sys2Proof.Machine

/-- A field shown in a word. -/
def showFld (f : Fld) (v : Nat) (w : Word) : Word := fieldSet w f.lo f.w v

/-- `PNR<n>_STATUS` with STALE (R88). -/
def stale (s : State) (n : Nat) : Bool := s.flag R.pnrStatus_FULL n && decide (s.get R.pnrEpoch_STAMP n ≠ s.get R.pnrEpoch_EPOCH n)

/-- STATE of `CH<c>_RUNWAY<s>` (R125, R128). -/
def segState (g : SegSt) : Nat :=
  if g.width = 0 then 0
  else if g.under.isSome then 5
  else if g.abandoned g.page then 3
  else if g.endPage.isSome ∧ g.ended = true then 4
  else if g.started then 2
  else 1

/-- The kind of source on a side of a port, its skew, and the flows in and out: the neighbour or member beyond the image on the side of the
port that holds its first or last column, else the port whose home columns adjoin (R185). -/
def edgeView (s : State) (p side : Nat) : Nat × Nat × Bool × Bool :=
  let ch := p / 4
  let c := s.chan ch
  let skew (mine theirs : Option Nat) : Nat := match mine, theirs with
    | some a, some b => if b ≤ a ∧ a - b ≤ 2047 then a - b else 0
    | _, _ => 0
  let mine := s.decRef c.active p
  let beyond : Nat := if s.edgePort ch side ≠ p then 0
    else match (if side = 0 then c.left else c.right), (if side = 0 then c.edgeL else c.edgeR) with
    | some _, _ => 2
    | none, some _ => 3
    | none, none => 0
  if c.configured = false then (0, 0, false, false)
  else if beyond ≠ 0 then (beyond, skew mine (s.edgeRefs s.tabsNow ch side).2, s.flowsIn s.tabsNow ch side, s.flowsOut s.tabsNow ch side)
  else if p % 4 = (if side = 0 then 0 else 3) then (0, 0, false, false)
  else
    let q := if side = 0 then p - 1 else p + 1
    (1, skew mine (s.decRef c.active q), s.flows c.active q p, s.flows c.active p q)

/-- `CH<c>_EDGE<k>`. -/
def edgeWord (s : State) (p : Nat) : Word :=
  let l := edgeView s p 0
  let r := edgeView s p 1
  showFld R.chEdge_RIN (b2n r.2.2.1) (showFld R.chEdge_ROUT (b2n r.2.2.2) (showFld R.chEdge_RKIND r.1 (showFld R.chEdge_RSKEW r.2.1
    (showFld R.chEdge_LIN (b2n l.2.2.1) (showFld R.chEdge_LOUT (b2n l.2.2.2) (showFld R.chEdge_LKIND l.1 (showFld R.chEdge_LSKEW l.2.1 0)))))))

/-- `CAD_STATUS` (R207, R211, R212, R215, R217, R230). -/
def cadStatusWord (s : State) : Word :=
  showFld R.cadStatus_RECORDS (b2n (s.follows && s.cad.rcd.isSome && s.cad.held.isNone)) (showFld R.cadStatus_DIR (b2n (decide (s.cad.lastDir < 0)))
    (showFld R.cadStatus_STILL (b2n s.cad.still) (showFld R.cadStatus_WARN (b2n s.cad.warn)
      (showFld R.cadStatus_FWSTATE s.fwNow.code (showFld R.cadStatus_LOCKED (b2n s.cadLocked) 0)))))

/-- The oldest fault record of a channel (R169). -/
def State.oldestFault (s : State) (ch : Nat) : Option FaultRec := (mapGet [] s.faults ch).head?

/-- `CH<c>_BFREC0` to `CH<c>_BFREC5`; 0 while the queue holds no record. -/
def faultWord (s : State) (ch k : Nat) : Word :=
  match s.oldestFault ch with
  | none => 0
  | some r =>
    if k = 0 then
      showFld R.chBfrec0_NAME r.name (showFld R.chBfrec0_SEGMENT r.seg (showFld R.chBfrec0_SLOT r.slot (showFld R.chBfrec0_VALID 1 0)))
    else BitVec.ofNat 32 (if k = 1 then r.page else if k = 2 then r.bitPos else if k = 3 then lo32 r.addr
      else if k = 4 then hi32 r.addr else r.line)

/-- Bits of `PMC_OVF`: counters that have wrapped (R430). -/
def ovfWord (s : State) : Nat := ((List.range 32).map fun n => if mapGet 0 s.counters n / 2 ^ 48 = 0 then 0 else 2 ^ n).sum

/-- What a master's latest read of `CAD_POSLO` captured: *P*, *H*, the Z position, *F* (R208). -/
def State.cadCap (s : State) (m : Master) (k : Nat) : Nat := (mapGet [] s.cad.caps m.num).getD k 0

/-- Engines of the compressor that work: the spec leaves their number open while a post is in work (log entry 5). -/
def engines (s : State) : Nat := if s.raws = [] then 0 else 1 + Config.freeNat s.freeCount % 16

/-- The result of a CRC unit (R372). -/
def State.crcRes (s : State) (u : Nat) : Nat := crcResult (s.crcPolyOf u) (s.crcVal u)

/-- The value that a register shows to master `m`. -/
def shown (m : Master) (r : RegId) (s : State) : Word :=
  let w := s.reg r
  match r.k with
  | .glbGpioIn => gpioLevels s
  | .glbWinsel => mapGet 0 s.winsel m.num
  | .pnrStatus => showFld R.pnrStatus_STALE (b2n (stale s r.i)) w
  | .pnrTake => 0
  | .chRunway => showFld R.chRunway_STATE (segState (s.seg r.i r.j)) (BitVec.ofNat 32 (min 0x0FFFFFFF (s.seg r.i r.j).runway))
  | .chBfstat => showFld R.chBfstat_BUSY (b2n ((mapGet [] s.faults r.i).any fun f => !f.done))
      (showFld R.chBfstat_PENDING (mapGet [] s.faults r.i).length w)
  | .chBfrec0 => faultWord s r.i 0
  | .chBfrec1 => faultWord s r.i 1
  | .chBfrec2 => faultWord s r.i 2
  | .chBfrec3 => faultWord s r.i 3
  | .chBfrec4 => faultWord s r.i 4
  | .chBfrec5 => faultWord s r.i 5
  | .cmpStatus => showFld R.cmpStatus_QUEUED (min 255 (s.raws.length - 1)) (showFld R.cmpStatus_ACTIVE (engines s) 0)
  | .chEdge => edgeWord s (4 * r.i + r.j)
  | .cadStatus => cadStatusWord s
  | .cadPoslo => BitVec.ofNat 32 (wrapInt 40 s.cad.pos)
  | .cadHwlo => BitVec.ofNat 32 (s.cadCap m 1)
  | .cadZlo => BitVec.ofNat 32 (s.cadCap m 2)
  | .cadHigh => showFld R.cadHigh_ZHI (hi32 (s.cadCap m 2)) (showFld R.cadHigh_HHI (hi32 (s.cadCap m 1))
      (showFld R.cadHigh_PHI (hi32 (s.cadCap m 0)) 0))
  | .cadFlo => BitVec.ofNat 32 (s.cadCap m 3)
  | .cadFhi => BitVec.ofNat 32 (hi32 (s.cadCap m 3))
  | .hptPstat => showFld R.hptPstat_HPEN (b2n (hpen s r.i)) w
  | .hptRg => showFld R.hptRg_INUSE (b2n (((s.chan (r.i / 4)).active.rows r.i).contains r.j)) w
  | .fabTimelo => BitVec.ofNat 32 s.chainTime
  | .fabTimehi => BitVec.ofNat 32 (hi32 (mapGet 0 s.fab.timeCap m.num))
  | .crcReslo => BitVec.ofNat 32 (s.crcRes r.i)
  | .crcReshi => BitVec.ofNat 32 (hi32 (s.crcRes r.i))
  | .rdgStatus => BitVec.ofNat 32 (rdgStatusWord s)
  | .rdgHpen => BitVec.ofNat 32 (hpenWord s)
  | .motAxStat => BitVec.ofNat 32 (motStatWord s r.i)
  | .pmcOvf => BitVec.ofNat 32 (ovfWord s)
  | .pmcCntlo => BitVec.ofNat 32 (s.counter r.i)
  | .pmcCnthi => BitVec.ofNat 32 (hi32 (mapGet 0 s.pmcCaps (32 * m.num + r.i)))
  | .lnsPciestat => if s.pcie.upAt ≤ s.now then w else showFld R.lnsPciestat_UP 0 (showFld R.lnsPciestat_WIDTH 0 (showFld R.lnsPciestat_SPEED 0 w))
  | .bstRepair => showFld R.bstRepair_SPARE (b2n (s.spareBusy r.i)) w
  | _ => w

end Sys2Proof.Machine
end

