-- ==== Sys2Proof/Machine/RegTable.lean ====
section
/-!
DEFINITION. The register tables of the spec as data: each register's BAR0 offset (R443 and its own heading), its
reset value, and each field's access code (R4) and legal values (R6). Fields a table does not name are reserved (R5).
-/
namespace Sys2Proof.Machine

/-- The access codes of R4. -/
inductive Access where
  | rw | ro | wo | w1c | w1s | rc | lk | rg
deriving DecidableEq, Repr

/-- Which values of a field are not reserved encodings (R6). -/
inductive Legal where
  | any
  | range (lo hi : Nat)
  | oneOf (vs : List Nat)
  /-- SNS_DIETRIM.TRIMSH: -512 to 511 in 16-bit two's complement -/
  | dieTrim
deriving DecidableEq, Repr

/-- One field with its access code. -/
structure FieldRow where
  f : Fld
  acc : Access
  legal : Legal
deriving DecidableEq, Repr

/-- One register table: register `k<i>_<j>` lies at `base + iStride*i + jStride*j`, `iFirst <= i < iEnd`,
`j < jEnd`. -/
structure RegRow where
  k : RegKind
  base : Nat
  iFirst : Nat
  iEnd : Nat
  iStride : Nat
  jEnd : Nat
  jStride : Nat
  reset : Nat
  fields : List FieldRow
deriving DecidableEq, Repr

/-- Register tables, part 0. -/
def regRows0 : List RegRow := [
  -- GLB_STRAP, spec/02_signals_and_package.md
  ⟨.glbStrap, 0x50, 0, 1, 0x0, 1, 0x0, 0x0,
    [⟨R.glbStrap_TEST, .ro, .any⟩,
     ⟨R.glbStrap_BOOT, .ro, .any⟩,
     ⟨R.glbStrap_I2CA, .ro, .any⟩,
     ⟨R.glbStrap_ROOT_N, .ro, .any⟩]⟩,
  -- GLB_CLAIM0, spec/02_signals_and_package.md
  ⟨.glbClaim0, 0x40, 0, 1, 0x0, 1, 0x0, 0x0,
    [⟨R.glbClaim0_G5, .rw, .any⟩,
     ⟨R.glbClaim0_G4, .rw, .any⟩,
     ⟨R.glbClaim0_G3, .rw, .any⟩,
     ⟨R.glbClaim0_G2, .rw, .any⟩,
     ⟨R.glbClaim0_G1, .rw, .any⟩,
     ⟨R.glbClaim0_G0, .rw, .any⟩]⟩,
  -- GLB_CLAIM1, spec/02_signals_and_package.md
  ⟨.glbClaim1, 0x44, 0, 1, 0x0, 1, 0x0, 0x0,
    [⟨R.glbClaim1_PMC1, .rw, .any⟩,
     ⟨R.glbClaim1_PMC0, .rw, .any⟩,
     ⟨R.glbClaim1_TRACER, .rw, .any⟩,
     ⟨R.glbClaim1_DMA7, .rw, .any⟩,
     ⟨R.glbClaim1_CRC3, .rw, .any⟩]⟩,
  -- GLB_CLAIMERR, spec/02_signals_and_package.md
  ⟨.glbClaimerr, 0x48, 0, 1, 0x0, 1, 0x0, 0x0,
    [⟨R.glbClaimerr_COUNT, .ro, .any⟩,
     ⟨R.glbClaimerr_REQ, .ro, .any⟩,
     ⟨R.glbClaimerr_OWNER, .ro, .any⟩,
     ⟨R.glbClaimerr_ITEM, .ro, .any⟩,
     ⟨R.glbClaimerr_REG, .ro, .any⟩,
     ⟨R.glbClaimerr_MASTER, .ro, .any⟩,
     ⟨R.glbClaimerr_VALID, .w1c, .any⟩]⟩,
  -- GLB_GPIO_DIR, spec/02_signals_and_package.md
  ⟨.glbGpioDir, 0x60, 0, 1, 0x0, 1, 0x0, 0x0,
    [⟨R.glbGpioDir_DIR, .rw, .any⟩]⟩,
  -- GLB_GPIO_OUT, spec/02_signals_and_package.md
  ⟨.glbGpioOut, 0x64, 0, 1, 0x0, 1, 0x0, 0x0,
    [⟨R.glbGpioOut_OUT, .rw, .any⟩]⟩,
  -- GLB_GPIO_IN, spec/02_signals_and_package.md
  ⟨.glbGpioIn, 0x68, 0, 1, 0x0, 1, 0x0, 0x0,
    [⟨R.glbGpioIn_IN, .ro, .any⟩]⟩,
  -- GLB_IDENTITY, spec/03_clocks_power_reset_boot.md
  ⟨.glbIdentity, 0x0, 0, 1, 0x0, 1, 0x0, 0x2618B001,
    [⟨R.glbIdentity_PART, .ro, .any⟩,
     ⟨R.glbIdentity_REV, .ro, .any⟩,
     ⟨R.glbIdentity_FAMILY, .ro, .any⟩]⟩,
  -- GLB_UID0, spec/03_clocks_power_reset_boot.md
  ⟨.glbUid0, 0x8, 0, 1, 0x0, 1, 0x0, 0x0,
    [⟨R.glbUid0_UID_LO, .ro, .any⟩]⟩,
  -- GLB_UID1, spec/03_clocks_power_reset_boot.md
  ⟨.glbUid1, 0xC, 0, 1, 0x0, 1, 0x0, 0x0,
    [⟨R.glbUid1_UID_HI, .ro, .any⟩]⟩,
  -- GLB_BOOTSTAT, spec/03_clocks_power_reset_boot.md
  ⟨.glbBootstat, 0x10, 0, 1, 0x0, 1, 0x0, 0x0,
    [⟨R.glbBootstat_HELDCAUSE, .ro, .any⟩,
     ⟨R.glbBootstat_PHASE, .ro, .any⟩,
     ⟨R.glbBootstat_LC, .ro, .any⟩,
     ⟨R.glbBootstat_IDKEY, .ro, .any⟩,
     ⟨R.glbBootstat_CSLOT, .ro, .any⟩,
     ⟨R.glbBootstat_RSLOT, .ro, .any⟩,
     ⟨R.glbBootstat_DRAMKEPT, .ro, .any⟩]⟩,
  -- GLB_RSTCAUSE, spec/03_clocks_power_reset_boot.md
  ⟨.glbRstcause, 0x14, 0, 1, 0x0, 1, 0x0, 0x2,
    [⟨R.glbRstcause_COUNT, .ro, .any⟩,
     ⟨R.glbRstcause_BROWNOUT, .ro, .any⟩,
     ⟨R.glbRstcause_ORDTIMEOUT, .ro, .any⟩,
     ⟨R.glbRstcause_ORDERLY, .ro, .any⟩,
     ⟨R.glbRstcause_RIDGE, .ro, .any⟩,
     ⟨R.glbRstcause_SYSRESET, .ro, .any⟩,
     ⟨R.glbRstcause_RESETPIN, .ro, .any⟩,
     ⟨R.glbRstcause_POR, .ro, .any⟩]⟩,
  -- PNR<n>_MSG<i>, spec/04_panniers.md
  ⟨.pnrMsg, 0x10000, 0, 16, 0x100, 16, 0x4, 0x0,
    [⟨R.pnrMsg_WORD, .rw, .any⟩]⟩,
  -- PNR<n>_CTRL, spec/04_panniers.md
  ⟨.pnrCtrl, 0x10040, 0, 16, 0x100, 1, 0x0, 0x10,
    [⟨R.pnrCtrl_GO, .wo, .any⟩,
     ⟨R.pnrCtrl_LEN, .rw, .range 8 16⟩]⟩,
  -- PNR<n>_STATUS, spec/04_panniers.md
  ⟨.pnrStatus, 0x10044, 0, 16, 0x100, 1, 0x0, 0x0,
    [⟨R.pnrStatus_PSEQ, .ro, .any⟩,
     ⟨R.pnrStatus_STALE, .ro, .any⟩,
     ⟨R.pnrStatus_WFULL, .ro, .any⟩,
     ⟨R.pnrStatus_FULL, .ro, .any⟩]⟩,
  -- PNR<n>_TAKE, spec/04_panniers.md
  ⟨.pnrTake, 0x10048, 0, 16, 0x100, 1, 0x0, 0x0,
    [⟨R.pnrTake_SEQ, .ro, .any⟩,
     ⟨R.pnrTake_LEN, .ro, .any⟩,
     ⟨R.pnrTake_STALE, .ro, .any⟩,
     ⟨R.pnrTake_VALID, .ro, .any⟩]⟩,
  -- PNR<n>_LOCK, spec/04_panniers.md
  ⟨.pnrLock, 0x1004C, 0, 16, 0x100, 1, 0x0, 0x0,
    [⟨R.pnrLock_MEMBER, .ro, .any⟩,
     ⟨R.pnrLock_OWNER, .rw, .any⟩]⟩,
  -- PNR<n>_EPOCH, spec/04_panniers.md
  ⟨.pnrEpoch, 0x10050, 0, 16, 0x100, 1, 0x0, 0x0,
    [⟨R.pnrEpoch_STAMP, .ro, .any⟩,
     ⟨R.pnrEpoch_EPOCH, .rw, .any⟩]⟩,
  -- PNR_BIND<n>, spec/04_panniers.md
  ⟨.pnrBind, 0x11000, 0, 16, 0x4, 1, 0x0, 0x0,
    [⟨R.pnrBind_RLOCK, .rg, .any⟩,
     ⟨R.pnrBind_RECV, .lk, .any⟩,
     ⟨R.pnrBind_SEND, .lk, .any⟩]⟩,
  -- PNR_BINDLOCK, spec/04_panniers.md
  ⟨.pnrBindlock, 0x11040, 0, 1, 0x0, 1, 0x0, 0x0,
    [⟨R.pnrBindlock_LOCK, .w1s, .any⟩]⟩]

/-- Register tables, part 1. -/
def regRows1 : List RegRow := [
  -- PNR_BELL<m>, spec/04_panniers.md
  ⟨.pnrBell, 0x11100, 1, 6, 0x4, 1, 0x0, 0x0,
    [⟨R.pnrBell_TAKEB, .w1c, .any⟩,
     ⟨R.pnrBell_POSTB, .w1c, .any⟩]⟩,
  -- PNR_BELLEN<m>, spec/04_panniers.md
  ⟨.pnrBellen, 0x11140, 1, 6, 0x4, 1, 0x0, 0x0,
    [⟨R.pnrBellen_EN, .rw, .any⟩]⟩,
  -- PNR_VIOL, spec/04_panniers.md
  ⟨.pnrViol, 0x11200, 0, 1, 0x0, 1, 0x0, 0x0,
    [⟨R.pnrViol_COUNT, .ro, .any⟩,
     ⟨R.pnrViol_OFFSET, .ro, .any⟩,
     ⟨R.pnrViol_CHANNEL, .ro, .any⟩,
     ⟨R.pnrViol_MASTER, .ro, .any⟩,
     ⟨R.pnrViol_VALID, .w1c, .any⟩]⟩,
  -- GLB_DEVSTATE, spec/05_command_set.md
  ⟨.glbDevstate, 0x18, 0, 1, 0x0, 1, 0x0, 0x0,
    [⟨R.glbDevstate_JOB, .ro, .any⟩,
     ⟨R.glbDevstate_STATE, .ro, .any⟩]⟩,
  -- GLB_HOSTACC, spec/05_command_set.md
  ⟨.glbHostacc, 0x30, 0, 1, 0x0, 1, 0x0, 0x0,
    [⟨R.glbHostacc_UNLOCKED, .rw, .any⟩,
     ⟨R.glbHostacc_WEN, .rw, .any⟩]⟩,
  -- GLB_HOSTVIOL, spec/05_command_set.md
  ⟨.glbHostviol, 0x34, 0, 1, 0x0, 1, 0x0, 0x0,
    [⟨R.glbHostviol_COUNT, .ro, .any⟩,
     ⟨R.glbHostviol_OFFSET, .ro, .any⟩,
     ⟨R.glbHostviol_VALID, .w1c, .any⟩]⟩,
  -- CH<c>_RUNWAY<s>, spec/06_job_data_and_ingest.md
  ⟨.chRunway, 0x102000, 0, 4, 0x40000, 128, 0x4, 0x0,
    [⟨R.chRunway_STATE, .ro, .any⟩,
     ⟨R.chRunway_RUNWAY, .ro, .any⟩]⟩,
  -- CH<c>_DECMAX, spec/08_expanders_and_compressor.md
  ⟨.chDecmax, 0x102400, 0, 4, 0x40000, 1, 0x0, 0x0,
    [⟨R.chDecmax_CLR, .wo, .any⟩,
     ⟨R.chDecmax_MAXCYC, .ro, .any⟩]⟩,
  -- CH<c>_STALL, spec/08_expanders_and_compressor.md
  ⟨.chStall, 0x102404, 0, 4, 0x40000, 1, 0x0, 0x0,
    [⟨R.chStall_CYCLES, .rc, .any⟩]⟩,
  -- CH<c>_DECLATE, spec/08_expanders_and_compressor.md
  ⟨.chDeclate, 0x102408, 0, 4, 0x40000, 1, 0x0, 0x0,
    [⟨R.chDeclate_LINES, .rc, .any⟩]⟩,
  -- CH<c>_BFSTAT, spec/08_expanders_and_compressor.md
  ⟨.chBfstat, 0x102410, 0, 4, 0x40000, 1, 0x0, 0x0,
    [⟨R.chBfstat_LOST, .rc, .any⟩,
     ⟨R.chBfstat_FAULTS, .rc, .any⟩,
     ⟨R.chBfstat_BUSY, .ro, .any⟩,
     ⟨R.chBfstat_PENDING, .ro, .any⟩]⟩,
  -- CH<c>_BFREC0, spec/08_expanders_and_compressor.md
  ⟨.chBfrec0, 0x102420, 0, 4, 0x40000, 1, 0x0, 0x0,
    [⟨R.chBfrec0_NAME, .ro, .any⟩,
     ⟨R.chBfrec0_SEGMENT, .ro, .any⟩,
     ⟨R.chBfrec0_SLOT, .ro, .any⟩,
     ⟨R.chBfrec0_VALID, .ro, .any⟩]⟩,
  -- CH<c>_BFREC1, spec/08_expanders_and_compressor.md
  ⟨.chBfrec1, 0x102424, 0, 4, 0x40000, 1, 0x0, 0x0,
    [⟨R.chBfrec1_PAGE, .ro, .any⟩]⟩,
  -- CH<c>_BFREC2, spec/08_expanders_and_compressor.md
  ⟨.chBfrec2, 0x102428, 0, 4, 0x40000, 1, 0x0, 0x0,
    [⟨R.chBfrec2_BITPOS, .ro, .any⟩]⟩,
  -- CH<c>_BFREC3, spec/08_expanders_and_compressor.md
  ⟨.chBfrec3, 0x10242C, 0, 4, 0x40000, 1, 0x0, 0x0,
    [⟨R.chBfrec3_ADDR_LO, .ro, .any⟩]⟩,
  -- CH<c>_BFREC4, spec/08_expanders_and_compressor.md
  ⟨.chBfrec4, 0x102430, 0, 4, 0x40000, 1, 0x0, 0x0,
    [⟨R.chBfrec4_ADDR_HI, .ro, .any⟩]⟩,
  -- CH<c>_BFREC5, spec/08_expanders_and_compressor.md
  ⟨.chBfrec5, 0x102434, 0, 4, 0x40000, 1, 0x0, 0x0,
    [⟨R.chBfrec5_LINE, .ro, .any⟩]⟩,
  -- CH<c>_BFPOP, spec/08_expanders_and_compressor.md
  ⟨.chBfpop, 0x102438, 0, 4, 0x40000, 1, 0x0, 0x0,
    [⟨R.chBfpop_POP, .wo, .any⟩]⟩,
  -- CMP_CTRL, spec/08_expanders_and_compressor.md
  ⟨.cmpCtrl, 0x2D0000, 0, 1, 0x0, 1, 0x0, 0x0,
    [⟨R.cmpCtrl_MODE, .rw, .range 0 2⟩]⟩,
  -- CMP_STATUS, spec/08_expanders_and_compressor.md
  ⟨.cmpStatus, 0x2D0004, 0, 1, 0x0, 1, 0x0, 0x0,
    [⟨R.cmpStatus_QUEUED, .ro, .any⟩,
     ⟨R.cmpStatus_ACTIVE, .ro, .any⟩]⟩]

/-- Register tables, part 2. -/
def regRows2 : List RegRow := [
  -- CMP_IN, spec/08_expanders_and_compressor.md
  ⟨.cmpIn, 0x2D0008, 0, 1, 0x0, 1, 0x0, 0x0,
    [⟨R.cmpIn_KIB, .rc, .any⟩]⟩,
  -- CMP_OUT, spec/08_expanders_and_compressor.md
  ⟨.cmpOut, 0x2D000C, 0, 1, 0x0, 1, 0x0, 0x0,
    [⟨R.cmpOut_KIB, .rc, .any⟩]⟩,
  -- CH<c>_TBLSTAT, spec/09_jet_correction.md
  ⟨.chTblstat, 0x103000, 0, 4, 0x40000, 1, 0x0, 0x0,
    [⟨R.chTblstat_PENDING, .ro, .any⟩,
     ⟨R.chTblstat_ACTIVE, .ro, .any⟩]⟩,
  -- CH<c>_COMMITLO, spec/09_jet_correction.md
  ⟨.chCommitlo, 0x103004, 0, 4, 0x40000, 1, 0x0, 0x0,
    [⟨R.chCommitlo_LINE_LO, .ro, .any⟩]⟩,
  -- CH<c>_COMMITHI, spec/09_jet_correction.md
  ⟨.chCommithi, 0x103008, 0, 4, 0x40000, 1, 0x0, 0x0,
    [⟨R.chCommithi_LINE_HI, .ro, .any⟩]⟩,
  -- CH<c>_COLSTAT, spec/09_jet_correction.md
  ⟨.chColstat, 0x10300C, 0, 4, 0x40000, 1, 0x0, 0x0,
    [⟨R.chColstat_UNCOMPCOL, .ro, .any⟩,
     ⟨R.chColstat_DEADCOL, .ro, .any⟩]⟩,
  -- CH<c>_UNCOMP, spec/09_jet_correction.md
  ⟨.chUncomp, 0x103010, 0, 4, 0x40000, 1, 0x0, 0x0,
    [⟨R.chUncomp_LOST, .rc, .any⟩]⟩,
  -- CH<c>_EDGE<k>, spec/09_jet_correction.md
  ⟨.chEdge, 0x103020, 0, 4, 0x40000, 4, 0x4, 0x0,
    [⟨R.chEdge_RIN, .ro, .any⟩,
     ⟨R.chEdge_ROUT, .ro, .any⟩,
     ⟨R.chEdge_RKIND, .ro, .any⟩,
     ⟨R.chEdge_RSKEW, .ro, .any⟩,
     ⟨R.chEdge_LIN, .ro, .any⟩,
     ⟨R.chEdge_LOUT, .ro, .any⟩,
     ⟨R.chEdge_LKIND, .ro, .any⟩,
     ⟨R.chEdge_LSKEW, .ro, .any⟩]⟩,
  -- CAD_CTRL, spec/10_cadence_and_page_sync.md
  ⟨.cadCtrl, 0x200000, 0, 1, 0x0, 1, 0x0, 0xC,
    [⟨R.cadCtrl_ROLE, .rw, .range 0 2⟩,
     ⟨R.cadCtrl_FWWIN, .rw, .any⟩,
     ⟨R.cadCtrl_INV, .rw, .any⟩,
     ⟨R.cadCtrl_ENC, .rw, .any⟩]⟩,
  -- CAD_PITCH, spec/10_cadence_and_page_sync.md
  ⟨.cadPitch, 0x200004, 0, 1, 0x0, 1, 0x0, 0x100000,
    [⟨R.cadPitch_K, .rw, .range 1048576 4294967295⟩]⟩,
  -- CAD_STATUS, spec/10_cadence_and_page_sync.md
  ⟨.cadStatus, 0x200008, 0, 1, 0x0, 1, 0x0, 0x0,
    [⟨R.cadStatus_RECORDS, .ro, .any⟩,
     ⟨R.cadStatus_DIR, .ro, .any⟩,
     ⟨R.cadStatus_STILL, .ro, .any⟩,
     ⟨R.cadStatus_WARN, .ro, .any⟩,
     ⟨R.cadStatus_FWSTATE, .ro, .any⟩,
     ⟨R.cadStatus_LOCKED, .ro, .any⟩]⟩,
  -- CAD_POSLO, spec/10_cadence_and_page_sync.md
  ⟨.cadPoslo, 0x200010, 0, 1, 0x0, 1, 0x0, 0x0,
    [⟨R.cadPoslo_P, .ro, .any⟩]⟩,
  -- CAD_HWLO, spec/10_cadence_and_page_sync.md
  ⟨.cadHwlo, 0x200014, 0, 1, 0x0, 1, 0x0, 0x0,
    [⟨R.cadHwlo_H, .ro, .any⟩]⟩,
  -- CAD_ZLO, spec/10_cadence_and_page_sync.md
  ⟨.cadZlo, 0x200018, 0, 1, 0x0, 1, 0x0, 0x0,
    [⟨R.cadZlo_Z, .ro, .any⟩]⟩,
  -- CAD_HIGH, spec/10_cadence_and_page_sync.md
  ⟨.cadHigh, 0x20001C, 0, 1, 0x0, 1, 0x0, 0x0,
    [⟨R.cadHigh_ZHI, .ro, .any⟩,
     ⟨R.cadHigh_HHI, .ro, .any⟩,
     ⟨R.cadHigh_PHI, .ro, .any⟩]⟩,
  -- CAD_FLO, spec/10_cadence_and_page_sync.md
  ⟨.cadFlo, 0x200020, 0, 1, 0x0, 1, 0x0, 0x0,
    [⟨R.cadFlo_F, .ro, .any⟩]⟩,
  -- CAD_FHI, spec/10_cadence_and_page_sync.md
  ⟨.cadFhi, 0x200024, 0, 1, 0x0, 1, 0x0, 0x0,
    [⟨R.cadFhi_F, .ro, .any⟩]⟩,
  -- CAD_SHIFTLO, spec/10_cadence_and_page_sync.md
  ⟨.cadShiftlo, 0x200028, 0, 1, 0x0, 1, 0x0, 0x0,
    [⟨R.cadShiftlo_S, .ro, .any⟩]⟩,
  -- CAD_SHIFTHI, spec/10_cadence_and_page_sync.md
  ⟨.cadShifthi, 0x20002C, 0, 1, 0x0, 1, 0x0, 0x0,
    [⟨R.cadShifthi_S, .ro, .any⟩]⟩,
  -- CAD_LINEPER, spec/10_cadence_and_page_sync.md
  ⟨.cadLineper, 0x200030, 0, 1, 0x0, 1, 0x0, 0x0,
    [⟨R.cadLineper_TN, .ro, .any⟩]⟩]

/-- Register tables, part 3. -/
def regRows3 : List RegRow := [
  -- CAD_PREDPER, spec/10_cadence_and_page_sync.md
  ⟨.cadPredper, 0x200034, 0, 1, 0x0, 1, 0x0, 0x0,
    [⟨R.cadPredper_TP, .ro, .any⟩]⟩,
  -- CAD_FIRECFG, spec/10_cadence_and_page_sync.md
  ⟨.cadFirecfg, 0x200040, 0, 1, 0x0, 1, 0x0, 0x1388,
    [⟨R.cadFirecfg_SLACK, .rw, .range 0 256⟩,
     ⟨R.cadFirecfg_MINPER, .rw, .range 5000 65535⟩]⟩,
  -- CAD_WARNCFG, spec/10_cadence_and_page_sync.md
  ⟨.cadWarncfg, 0x200044, 0, 1, 0x0, 1, 0x0, 0x0,
    [⟨R.cadWarncfg_HORIZON, .rw, .range 1 1000⟩,
     ⟨R.cadWarncfg_WARNPER, .rw, .any⟩]⟩,
  -- CAD_ILLEGAL, spec/10_cadence_and_page_sync.md
  ⟨.cadIllegal, 0x200050, 0, 1, 0x0, 1, 0x0, 0x0,
    [⟨R.cadIllegal_COUNT, .rc, .any⟩]⟩,
  -- CAD_LATEDROP, spec/10_cadence_and_page_sync.md
  ⟨.cadLatedrop, 0x200054, 0, 1, 0x0, 1, 0x0, 0x0,
    [⟨R.cadLatedrop_DROP, .rc, .any⟩,
     ⟨R.cadLatedrop_LATE, .rc, .any⟩]⟩,
  -- CAD_MK<c>_<s>, spec/10_cadence_and_page_sync.md
  ⟨.cadMk, 0x201000, 0, 4, 0x200, 128, 0x4, 0x0,
    [⟨R.cadMk_MISS, .ro, .any⟩,
     ⟨R.cadMk_LOST, .ro, .any⟩,
     ⟨R.cadMk_ACCEPT, .ro, .any⟩,
     ⟨R.cadMk_DUP, .rc, .any⟩,
     ⟨R.cadMk_DELTA, .ro, .any⟩]⟩,
  -- HPT_PCFG<p>, spec/11_head_ports_and_firing.md
  ⟨.hptPcfg, 0x210000, 0, 16, 0x100, 1, 0x0, 0x3E80100,
    [⟨R.hptPcfg_SOSWIN, .rw, .range 100 65535⟩,
     ⟨R.hptPcfg_MODULES, .rw, .range 1 8⟩,
     ⟨R.hptPcfg_RATE, .rw, .range 0 2⟩,
     ⟨R.hptPcfg_UP, .rw, .any⟩]⟩,
  -- HPT_PSTAT<p>, spec/11_head_ports_and_firing.md
  ⟨.hptPstat, 0x210004, 0, 16, 0x100, 1, 0x0, 0x0,
    [⟨R.hptPstat_MODANS, .ro, .any⟩,
     ⟨R.hptPstat_VRANGE, .ro, .any⟩,
     ⟨R.hptPstat_TEMPINV, .ro, .any⟩,
     ⟨R.hptPstat_TEMPSRC, .ro, .any⟩,
     ⟨R.hptPstat_HPEN, .ro, .any⟩,
     ⟨R.hptPstat_ARMED, .ro, .any⟩,
     ⟨R.hptPstat_LINKUP, .ro, .any⟩]⟩,
  -- HPT_BASEOFF<p>, spec/11_head_ports_and_firing.md
  ⟨.hptBaseoff, 0x210008, 0, 16, 0x100, 1, 0x0, 0x0,
    [⟨R.hptBaseoff_BASE, .rw, .any⟩]⟩,
  -- HPT_RG<p>_<r>, spec/11_head_ports_and_firing.md
  ⟨.hptRg, 0x210010, 0, 16, 0x100, 8, 0x4, 0x0,
    [⟨R.hptRg_INUSE, .ro, .any⟩,
     ⟨R.hptRg_PHASE, .rw, .any⟩,
     ⟨R.hptRg_STROBE, .rw, .any⟩,
     ⟨R.hptRg_CONF, .rw, .any⟩,
     ⟨R.hptRg_OFFSET, .rw, .any⟩]⟩,
  -- HPT_STROBE<p>_<k>, spec/11_head_ports_and_firing.md
  ⟨.hptStrobe, 0x210030, 0, 16, 0x100, 4, 0x4, 0x10,
    [⟨R.hptStrobe_WIDTH, .ro, .any⟩,
     ⟨R.hptStrobe_W0, .rw, .range 16 16376⟩]⟩,
  -- HPT_VNOM<p>, spec/11_head_ports_and_firing.md
  ⟨.hptVnom, 0x210040, 0, 16, 0x100, 1, 0x0, 0x2EE0,
    [⟨R.hptVnom_V0, .rw, .range 1000 60000⟩]⟩,
  -- HPT_SENSE<p>, spec/11_head_ports_and_firing.md
  ⟨.hptSense, 0x210044, 0, 16, 0x100, 1, 0x0, 0x0,
    [⟨R.hptSense_V, .ro, .any⟩,
     ⟨R.hptSense_THETA, .ro, .any⟩]⟩,
  -- HPT_NOSOS<p>, spec/11_head_ports_and_firing.md
  ⟨.hptNosos, 0x210050, 0, 16, 0x100, 1, 0x0, 0x0,
    [⟨R.hptNosos_LINES, .rc, .any⟩]⟩,
  -- HPT_LINKERR<p>, spec/11_head_ports_and_firing.md
  ⟨.hptLinkerr, 0x210054, 0, 16, 0x100, 1, 0x0, 0x0,
    [⟨R.hptLinkerr_SPURIOUS, .rc, .any⟩,
     ⟨R.hptLinkerr_EARLY, .rc, .any⟩,
     ⟨R.hptLinkerr_BLOCKERR, .rc, .any⟩,
     ⟨R.hptLinkerr_FRAMEERR, .rc, .any⟩]⟩,
  -- HPT_TT<p>_<i>, spec/11_head_ports_and_firing.md
  ⟨.hptTt, 0x210080, 0, 16, 0x100, 16, 0x4, 0x10000000,
    [⟨R.hptTt_FACT, .rw, .any⟩,
     ⟨R.hptTt_TEMP, .rw, .any⟩]⟩,
  -- HPT_WDFAULT<h>, spec/11_head_ports_and_firing.md
  ⟨.hptWdfault, 0x211000, 0, 2, 0x4, 1, 0x0, 0x0,
    [⟨R.hptWdfault_FAULT, .w1c, .any⟩]⟩,
  -- HPT_LDBASE, spec/11_head_ports_and_firing.md
  ⟨.hptLdbase, 0x211100, 0, 1, 0x0, 1, 0x0, 0x0,
    [⟨R.hptLdbase_ADDR, .rw, .any⟩]⟩,
  -- HPT_LDSIZE, spec/11_head_ports_and_firing.md
  ⟨.hptLdsize, 0x211104, 0, 1, 0x0, 1, 0x0, 0x0,
    [⟨R.hptLdsize_FULL, .ro, .any⟩,
     ⟨R.hptLdsize_PENDING, .ro, .any⟩,
     ⟨R.hptLdsize_SIZE, .rw, .any⟩]⟩,
  -- HPT_LDWR, spec/11_head_ports_and_firing.md
  ⟨.hptLdwr, 0x211108, 0, 1, 0x0, 1, 0x0, 0x0,
    [⟨R.hptLdwr_WR, .ro, .any⟩]⟩]

/-- Register tables, part 4. -/
def regRows4 : List RegRow := [
  -- HPT_LDRD, spec/11_head_ports_and_firing.md
  ⟨.hptLdrd, 0x21110C, 0, 1, 0x0, 1, 0x0, 0x0,
    [⟨R.hptLdrd_RD, .rw, .any⟩]⟩,
  -- LNS_CTRL<l>, spec/12_serial_lanes_and_pcie.md
  ⟨.lnsCtrl, 0x2C0000, 0, 24, 0x100, 1, 0x0, 0x0,
    [⟨R.lnsCtrl_FREEZE, .rw, .any⟩,
     ⟨R.lnsCtrl_LOOP, .rw, .range 0 2⟩,
     ⟨R.lnsCtrl_CHKEN, .rw, .any⟩,
     ⟨R.lnsCtrl_GENEN, .rw, .any⟩,
     ⟨R.lnsCtrl_PATTERN, .rw, .range 0 4⟩]⟩,
  -- LNS_STAT<l>, spec/12_serial_lanes_and_pcie.md
  ⟨.lnsStat, 0x2C0004, 0, 24, 0x100, 1, 0x0, 0x0,
    [⟨R.lnsStat_LOSSES, .rc, .any⟩,
     ⟨R.lnsStat_PRBSLOCK, .ro, .any⟩,
     ⟨R.lnsStat_LOCK, .ro, .any⟩,
     ⟨R.lnsStat_ADAPTED, .ro, .any⟩,
     ⟨R.lnsStat_CDR, .ro, .any⟩,
     ⟨R.lnsStat_PLL, .ro, .any⟩]⟩,
  -- LNS_TXEQ<l>, spec/12_serial_lanes_and_pcie.md
  ⟨.lnsTxeq, 0x2C0008, 0, 24, 0x100, 1, 0x0, 0x43800,
    [⟨R.lnsTxeq_POST, .rw, .any⟩,
     ⟨R.lnsTxeq_MAIN, .rw, .any⟩,
     ⟨R.lnsTxeq_PRE, .rw, .any⟩]⟩,
  -- LNS_PRBSERR<l>, spec/12_serial_lanes_and_pcie.md
  ⟨.lnsPrbserr, 0x2C000C, 0, 24, 0x100, 1, 0x0, 0x0,
    [⟨R.lnsPrbserr_ERRORS, .rc, .any⟩]⟩,
  -- LNS_INJ<l>, spec/12_serial_lanes_and_pcie.md
  ⟨.lnsInj, 0x2C0010, 0, 24, 0x100, 1, 0x0, 0x0,
    [⟨R.lnsInj_LEN, .rw, .any⟩,
     ⟨R.lnsInj_KIND, .wo, .any⟩]⟩,
  -- LNS_PCIESTAT, spec/12_serial_lanes_and_pcie.md
  ⟨.lnsPciestat, 0x2C2000, 0, 1, 0x0, 1, 0x0, 0x0,
    [⟨R.lnsPciestat_FLRS, .rc, .any⟩,
     ⟨R.lnsPciestat_DOWNS, .rc, .any⟩,
     ⟨R.lnsPciestat_WIDTH, .ro, .any⟩,
     ⟨R.lnsPciestat_SPEED, .ro, .any⟩,
     ⟨R.lnsPciestat_UP, .ro, .any⟩]⟩,
  -- FAB_ID, spec/13_chain_fabric.md
  ⟨.fabId, 0x220000, 0, 1, 0x0, 1, 0x0, 0x0,
    [⟨R.fabId_ROOT, .rw, .any⟩,
     ⟨R.fabId_ID, .rw, .range 0 250⟩]⟩,
  -- FAB_STATE, spec/13_chain_fabric.md
  ⟨.fabState, 0x220004, 0, 1, 0x0, 1, 0x0, 0x1,
    [⟨R.fabState_MINOR, .rw, .any⟩,
     ⟨R.fabState_HOLD, .ro, .any⟩,
     ⟨R.fabState_SYNCED, .ro, .any⟩,
     ⟨R.fabState_MODE, .rw, .range 1 6⟩]⟩,
  -- FAB_LOOKAHEAD, spec/13_chain_fabric.md
  ⟨.fabLookahead, 0x220008, 0, 1, 0x0, 1, 0x0, 0x9C40,
    [⟨R.fabLookahead_NS, .rw, .range 10000 250000⟩]⟩,
  -- FAB_TIMELO, spec/13_chain_fabric.md
  ⟨.fabTimelo, 0x220010, 0, 1, 0x0, 1, 0x0, 0x0,
    [⟨R.fabTimelo_T, .ro, .any⟩]⟩,
  -- FAB_TIMEHI, spec/13_chain_fabric.md
  ⟨.fabTimehi, 0x220014, 0, 1, 0x0, 1, 0x0, 0x0,
    [⟨R.fabTimehi_T, .ro, .any⟩]⟩,
  -- FAB_RATE, spec/13_chain_fabric.md
  ⟨.fabRate, 0x220018, 0, 1, 0x0, 1, 0x0, 0x0,
    [⟨R.fabRate_RHO, .ro, .any⟩]⟩,
  -- FAB_THETA, spec/13_chain_fabric.md
  ⟨.fabTheta, 0x22001C, 0, 1, 0x0, 1, 0x0, 0x0,
    [⟨R.fabTheta_THETA, .ro, .any⟩]⟩,
  -- FAB_PCTRL<q>, spec/13_chain_fabric.md
  ⟨.fabPctrl, 0x220100, 0, 4, 0x40, 1, 0x0, 0x21,
    [⟨R.fabPctrl_RATE, .rw, .range 0 2⟩,
     ⟨R.fabPctrl_EN, .rw, .any⟩]⟩,
  -- FAB_PSTAT<q>, spec/13_chain_fabric.md
  ⟨.fabPstat, 0x220104, 0, 4, 0x40, 1, 0x0, 0x0,
    [⟨R.fabPstat_NPORT, .ro, .any⟩,
     ⟨R.fabPstat_NID, .ro, .any⟩,
     ⟨R.fabPstat_ROLE, .ro, .any⟩,
     ⟨R.fabPstat_KICK, .ro, .any⟩,
     ⟨R.fabPstat_DESKEW, .ro, .any⟩,
     ⟨R.fabPstat_L1LOCK, .ro, .any⟩,
     ⟨R.fabPstat_L0LOCK, .ro, .any⟩,
     ⟨R.fabPstat_UP, .ro, .any⟩]⟩,
  -- FAB_PDLY<q>, spec/13_chain_fabric.md
  ⟨.fabPdly, 0x220108, 0, 4, 0x40, 1, 0x0, 0x0,
    [⟨R.fabPdly_ASYM, .rw, .any⟩,
     ⟨R.fabPdly_DELAY, .ro, .any⟩]⟩,
  -- FAB_PERR<q>, spec/13_chain_fabric.md
  ⟨.fabPerr, 0x22010C, 0, 4, 0x40, 1, 0x0, 0x0,
    [⟨R.fabPerr_LATE, .rc, .any⟩,
     ⟨R.fabPerr_DROPS, .rc, .any⟩,
     ⟨R.fabPerr_CRCERR, .rc, .any⟩]⟩,
  -- FAB_ROUTE<d>, spec/13_chain_fabric.md
  ⟨.fabRoute, 0x221000, 0, 256, 0x4, 1, 0x0, 0x77,
    [⟨R.fabRoute_ALT, .rw, .oneOf [0, 1, 2, 3, 4, 7]⟩,
     ⟨R.fabRoute_PRI, .rw, .oneOf [0, 1, 2, 3, 4, 7]⟩]⟩,
  -- DMC_CFG, spec/14_dram_controller.md
  ⟨.dmcCfg, 0x230000, 0, 1, 0x0, 1, 0x0, 0x300,
    [⟨R.dmcCfg_MAXSPEED, .rw, .range 1 3⟩,
     ⟨R.dmcCfg_GEOM, .ro, .any⟩,
     ⟨R.dmcCfg_SPEED, .ro, .any⟩,
     ⟨R.dmcCfg_TRAINED, .ro, .any⟩]⟩]

/-- Register tables, part 5. -/
def regRows5 : List RegRow := [
  -- DMC_WQ, spec/14_dram_controller.md
  ⟨.dmcWq, 0x230004, 0, 1, 0x0, 1, 0x0, 0x100030,
    [⟨R.dmcWq_LOW, .rw, .any⟩,
     ⟨R.dmcWq_HIGH, .rw, .any⟩]⟩,
  -- DMC_RHCFG, spec/14_dram_controller.md
  ⟨.dmcRhcfg, 0x230008, 0, 1, 0x0, 1, 0x0, 0x1000,
    [⟨R.dmcRhcfg_THRESH, .rw, .range 512 65535⟩]⟩,
  -- DMC_THROTTLE, spec/14_dram_controller.md
  ⟨.dmcThrottle, 0x23000C, 0, 1, 0x0, 1, 0x0, 0x0,
    [⟨R.dmcThrottle_LEVEL7, .ro, .any⟩,
     ⟨R.dmcThrottle_LEVEL6, .ro, .any⟩,
     ⟨R.dmcThrottle_LEVEL5, .ro, .any⟩,
     ⟨R.dmcThrottle_LEVEL4, .ro, .any⟩,
     ⟨R.dmcThrottle_LEVEL3, .ro, .any⟩,
     ⟨R.dmcThrottle_LEVEL2, .ro, .any⟩,
     ⟨R.dmcThrottle_LEVEL1, .ro, .any⟩,
     ⟨R.dmcThrottle_LEVEL0, .ro, .any⟩]⟩,
  -- DMC_RHSTAT, spec/14_dram_controller.md
  ⟨.dmcRhstat, 0x230010, 0, 1, 0x0, 1, 0x0, 0x0,
    [⟨R.dmcRhstat_LASTREQ, .ro, .any⟩,
     ⟨R.dmcRhstat_CHAN, .ro, .any⟩,
     ⟨R.dmcRhstat_SUB, .ro, .any⟩,
     ⟨R.dmcRhstat_RANK, .ro, .any⟩,
     ⟨R.dmcRhstat_BANK, .ro, .any⟩,
     ⟨R.dmcRhstat_COUNT, .rc, .any⟩]⟩,
  -- DMC_REFSTAT, spec/14_dram_controller.md
  ⟨.dmcRefstat, 0x230014, 0, 1, 0x0, 1, 0x0, 0x0,
    [⟨R.dmcRefstat_FALLBACK, .rc, .any⟩,
     ⟨R.dmcRefstat_DOUBLE1, .ro, .any⟩,
     ⟨R.dmcRefstat_DOUBLE0, .ro, .any⟩]⟩,
  -- DMC_TRAINSTAT, spec/14_dram_controller.md
  ⟨.dmcTrainstat, 0x230018, 0, 1, 0x0, 1, 0x0, 0x0,
    [⟨R.dmcTrainstat_DRIFT, .rc, .any⟩,
     ⟨R.dmcTrainstat_FORCED, .rc, .any⟩,
     ⟨R.dmcTrainstat_ALERTS, .rc, .any⟩]⟩,
  -- ECC_CFG, spec/15_ecc_scrub_poison.md
  ⟨.eccCfg, 0x240000, 0, 1, 0x0, 1, 0x0, 0x1004008,
    [⟨R.eccCfg_AUTOERASE, .rw, .any⟩,
     ⟨R.eccCfg_ERTHRESH, .rw, .range 16 65535⟩,
     ⟨R.eccCfg_TRKTHRESH, .rw, .range 2 255⟩]⟩,
  -- ECC_CORR, spec/15_ecc_scrub_poison.md
  ⟨.eccCorr, 0x240004, 0, 1, 0x0, 1, 0x0, 0x0,
    [⟨R.eccCorr_COUNT, .rc, .any⟩]⟩,
  -- ECC_UNCORR, spec/15_ecc_scrub_poison.md
  ⟨.eccUncorr, 0x240008, 0, 1, 0x0, 1, 0x0, 0x0,
    [⟨R.eccUncorr_COUNT, .rc, .any⟩]⟩,
  -- ECC_SCRUB, spec/15_ecc_scrub_poison.md
  ⟨.eccScrub, 0x240010, 0, 1, 0x0, 1, 0x0, 0x5A0,
    [⟨R.eccScrub_PASSES, .ro, .any⟩,
     ⟨R.eccScrub_PERIOD, .rw, .range 10 10080⟩]⟩,
  -- ECC_SCRUBPOS, spec/15_ecc_scrub_poison.md
  ⟨.eccScrubpos, 0x240014, 0, 1, 0x0, 1, 0x0, 0x0,
    [⟨R.eccScrubpos_POS, .ro, .any⟩]⟩,
  -- ECC_POISONSTAT, spec/15_ecc_scrub_poison.md
  ⟨.eccPoisonstat, 0x240018, 0, 1, 0x0, 1, 0x0, 0x0,
    [⟨R.eccPoisonstat_OVERFLOW, .rc, .any⟩,
     ⟨R.eccPoisonstat_ENTRIES, .ro, .any⟩]⟩,
  -- ECC_TRKSTAT, spec/15_ecc_scrub_poison.md
  ⟨.eccTrkstat, 0x24001C, 0, 1, 0x0, 1, 0x0, 0x0,
    [⟨R.eccTrkstat_REWRITES, .rc, .any⟩,
     ⟨R.eccTrkstat_ENTRIES, .ro, .any⟩]⟩,
  -- ECC_ERASE<c>_<r>, spec/15_ecc_scrub_poison.md
  ⟨.eccErase, 0x240040, 0, 4, 0x4, 1, 0x0, 0x0,
    [⟨R.eccErase_ENB, .w1s, .any⟩,
     ⟨R.eccErase_DEVB, .rw, .range 0 9⟩,
     ⟨R.eccErase_ENA, .w1s, .any⟩,
     ⟨R.eccErase_DEVA, .rw, .range 0 9⟩]⟩,
  -- ECC_DIAGCTRL, spec/15_ecc_scrub_poison.md
  ⟨.eccDiagctrl, 0x240080, 0, 1, 0x0, 1, 0x0, 0x0,
    [⟨R.eccDiagctrl_BUSY, .ro, .any⟩,
     ⟨R.eccDiagctrl_ERR, .ro, .any⟩,
     ⟨R.eccDiagctrl_OP, .wo, .any⟩]⟩,
  -- ECC_DIAGADDRLO, spec/15_ecc_scrub_poison.md
  ⟨.eccDiagaddrlo, 0x240084, 0, 1, 0x0, 1, 0x0, 0x0,
    [⟨R.eccDiagaddrlo_ADDR, .rw, .any⟩]⟩,
  -- ECC_DIAGADDRHI, spec/15_ecc_scrub_poison.md
  ⟨.eccDiagaddrhi, 0x240088, 0, 1, 0x0, 1, 0x0, 0x0,
    [⟨R.eccDiagaddrhi_ADDR, .rw, .any⟩]⟩,
  -- ECC_DIAGBUF<i>, spec/15_ecc_scrub_poison.md
  ⟨.eccDiagbuf, 0x2400C0, 0, 20, 0x4, 1, 0x0, 0x0,
    [⟨R.eccDiagbuf_BYTES, .rw, .any⟩]⟩,
  -- ECC_DEV<c>_<r>_<d>, spec/15_ecc_scrub_poison.md
  ⟨.eccDev, 0x240200, 0, 4, 0x50, 20, 0x4, 0x0,
    [⟨R.eccDev_HARD, .ro, .any⟩,
     ⟨R.eccDev_COUNT, .ro, .any⟩]⟩,
  -- DMA_CTRL<n>, spec/16_dma_and_crc.md
  ⟨.dmaCtrl, 0x250000, 0, 8, 0x100, 1, 0x0, 0x300,
    [⟨R.dmaCtrl_FENCE, .rw, .any⟩,
     ⟨R.dmaCtrl_RETRY, .rw, .any⟩,
     ⟨R.dmaCtrl_IRQDST, .rw, .any⟩,
     ⟨R.dmaCtrl_RESUME, .wo, .any⟩,
     ⟨R.dmaCtrl_ABORT, .wo, .any⟩,
     ⟨R.dmaCtrl_START, .wo, .any⟩]⟩]

/-- Register tables, part 6. -/
def regRows6 : List RegRow := [
  -- DMA_DESCLO<n>, spec/16_dma_and_crc.md
  ⟨.dmaDesclo, 0x250004, 0, 8, 0x100, 1, 0x0, 0x0,
    [⟨R.dmaDesclo_ADDR, .rw, .any⟩]⟩,
  -- DMA_DESCHI<n>, spec/16_dma_and_crc.md
  ⟨.dmaDeschi, 0x250008, 0, 8, 0x100, 1, 0x0, 0x0,
    [⟨R.dmaDeschi_ADDR, .rw, .any⟩]⟩,
  -- DMA_STAT<n>, spec/16_dma_and_crc.md
  ⟨.dmaStat, 0x25000C, 0, 8, 0x100, 1, 0x0, 0x0,
    [⟨R.dmaStat_TAG, .ro, .any⟩,
     ⟨R.dmaStat_CAUSE, .ro, .any⟩,
     ⟨R.dmaStat_DESC, .ro, .any⟩,
     ⟨R.dmaStat_DIR, .ro, .any⟩,
     ⟨R.dmaStat_STATE, .ro, .any⟩]⟩,
  -- DMA_FAILLO<n>, spec/16_dma_and_crc.md
  ⟨.dmaFaillo, 0x250010, 0, 8, 0x100, 1, 0x0, 0x0,
    [⟨R.dmaFaillo_ADDR, .ro, .any⟩]⟩,
  -- DMA_FAILHI<n>, spec/16_dma_and_crc.md
  ⟨.dmaFailhi, 0x250014, 0, 8, 0x100, 1, 0x0, 0x0,
    [⟨R.dmaFailhi_ADDR, .ro, .any⟩]⟩,
  -- DMA_COUNT<n>, spec/16_dma_and_crc.md
  ⟨.dmaCount, 0x250018, 0, 8, 0x100, 1, 0x0, 0x0,
    [⟨R.dmaCount_DESCS, .ro, .any⟩]⟩,
  -- DMA_MAXDESC<n>, spec/16_dma_and_crc.md
  ⟨.dmaMaxdesc, 0x25001C, 0, 8, 0x100, 1, 0x0, 0x10000,
    [⟨R.dmaMaxdesc_MAX, .rw, .range 1 65536⟩]⟩,
  -- DMA_CRCLO<n>, spec/16_dma_and_crc.md
  ⟨.dmaCrclo, 0x250020, 0, 8, 0x100, 1, 0x0, 0x0,
    [⟨R.dmaCrclo_CRC, .ro, .any⟩]⟩,
  -- DMA_CRCHI<n>, spec/16_dma_and_crc.md
  ⟨.dmaCrchi, 0x250024, 0, 8, 0x100, 1, 0x0, 0x0,
    [⟨R.dmaCrchi_CRC, .ro, .any⟩]⟩,
  -- DMA_FENCE, spec/16_dma_and_crc.md
  ⟨.dmaFence, 0x250800, 0, 1, 0x0, 1, 0x0, 0x0,
    [⟨R.dmaFence_FWD, .rw, .any⟩,
     ⟨R.dmaFence_STAGE, .rw, .any⟩]⟩,
  -- DMA_TIMEOUT, spec/16_dma_and_crc.md
  ⟨.dmaTimeout, 0x250804, 0, 1, 0x0, 1, 0x0, 0x64,
    [⟨R.dmaTimeout_MS, .rw, .range 1 1000⟩]⟩,
  -- CRC_CFG<u>, spec/16_dma_and_crc.md
  ⟨.crcCfg, 0x260000, 0, 4, 0x40, 1, 0x0, 0x0,
    [⟨R.crcCfg_GO, .wo, .any⟩,
     ⟨R.crcCfg_INIT, .wo, .any⟩,
     ⟨R.crcCfg_MODE, .rw, .any⟩,
     ⟨R.crcCfg_POLY, .rw, .any⟩]⟩,
  -- CRC_STAT<u>, spec/16_dma_and_crc.md
  ⟨.crcStat, 0x260004, 0, 4, 0x40, 1, 0x0, 0x0,
    [⟨R.crcStat_OVERRUN, .ro, .any⟩,
     ⟨R.crcStat_ERR, .ro, .any⟩,
     ⟨R.crcStat_BUSY, .ro, .any⟩]⟩,
  -- CRC_DATA8<u>, spec/16_dma_and_crc.md
  ⟨.crcData8, 0x260008, 0, 4, 0x40, 1, 0x0, 0x0,
    [⟨R.crcData8_DATA, .wo, .any⟩]⟩,
  -- CRC_DATA16<u>, spec/16_dma_and_crc.md
  ⟨.crcData16, 0x26000C, 0, 4, 0x40, 1, 0x0, 0x0,
    [⟨R.crcData16_DATA, .wo, .any⟩]⟩,
  -- CRC_DATA32<u>, spec/16_dma_and_crc.md
  ⟨.crcData32, 0x260010, 0, 4, 0x40, 1, 0x0, 0x0,
    [⟨R.crcData32_DATA, .wo, .any⟩]⟩,
  -- CRC_VALLO<u>, spec/16_dma_and_crc.md
  ⟨.crcVallo, 0x260014, 0, 4, 0x40, 1, 0x0, 0x0,
    [⟨R.crcVallo_VAL, .rw, .any⟩]⟩,
  -- CRC_VALHI<u>, spec/16_dma_and_crc.md
  ⟨.crcValhi, 0x260018, 0, 4, 0x40, 1, 0x0, 0x0,
    [⟨R.crcValhi_VAL, .rw, .any⟩]⟩,
  -- CRC_RESLO<u>, spec/16_dma_and_crc.md
  ⟨.crcReslo, 0x26001C, 0, 4, 0x40, 1, 0x0, 0x0,
    [⟨R.crcReslo_RES, .ro, .any⟩]⟩,
  -- CRC_RESHI<u>, spec/16_dma_and_crc.md
  ⟨.crcReshi, 0x260020, 0, 4, 0x40, 1, 0x0, 0x0,
    [⟨R.crcReshi_RES, .ro, .any⟩]⟩]

/-- Register tables, part 7. -/
def regRows7 : List RegRow := [
  -- CRC_SCANLO<u>, spec/16_dma_and_crc.md
  ⟨.crcScanlo, 0x260024, 0, 4, 0x40, 1, 0x0, 0x0,
    [⟨R.crcScanlo_ADDR, .rw, .any⟩]⟩,
  -- CRC_SCANHI<u>, spec/16_dma_and_crc.md
  ⟨.crcScanhi, 0x260028, 0, 4, 0x40, 1, 0x0, 0x0,
    [⟨R.crcScanhi_ADDR, .rw, .any⟩]⟩,
  -- CRC_SCANLEN<u>, spec/16_dma_and_crc.md
  ⟨.crcScanlen, 0x26002C, 0, 4, 0x40, 1, 0x0, 0x0,
    [⟨R.crcScanlen_LEN, .rw, .any⟩]⟩,
  -- RDG_STATUS, spec/17_ridge_safety.md
  ⟨.rdgStatus, 0x20000, 0, 1, 0x0, 1, 0x0, 0x1,
    [⟨R.rdgStatus_ROM, .ro, .any⟩,
     ⟨R.rdgStatus_LOCK, .ro, .any⟩,
     ⟨R.rdgStatus_ESTOPIN, .ro, .any⟩,
     ⟨R.rdgStatus_SAFE, .ro, .any⟩]⟩,
  -- RDG_SAFE, spec/17_ridge_safety.md
  ⟨.rdgSafe, 0x20004, 0, 1, 0x0, 1, 0x0, 0x0,
    [⟨R.rdgSafe_CAUSE, .rg, .range 3 7⟩,
     ⟨R.rdgSafe_RESETREQ, .rg, .any⟩,
     ⟨R.rdgSafe_RELEASE, .rg, .any⟩,
     ⟨R.rdgSafe_ENTER, .rg, .any⟩]⟩,
  -- RDG_CAUSE, spec/17_ridge_safety.md
  ⟨.rdgCause, 0x20008, 0, 1, 0x0, 1, 0x0, 0x1,
    [⟨R.rdgCause_CAUSE, .rg, .any⟩]⟩,
  -- RDG_HPEN, spec/17_ridge_safety.md
  ⟨.rdgHpen, 0x2000C, 0, 1, 0x0, 1, 0x0, 0x0,
    [⟨R.rdgHpen_LEVEL, .ro, .any⟩,
     ⟨R.rdgHpen_GRANT, .rg, .any⟩]⟩,
  -- RDG_MOTEN, spec/17_ridge_safety.md
  ⟨.rdgMoten, 0x20010, 0, 1, 0x0, 1, 0x0, 0x0,
    [⟨R.rdgMoten_GATE, .rg, .any⟩]⟩,
  -- RDG_HBCFG, spec/17_ridge_safety.md
  ⟨.rdgHbcfg, 0x20014, 0, 1, 0x0, 1, 0x0, 0x64,
    [⟨R.rdgHbcfg_PERIOD, .rg, .range 1 1000⟩]⟩,
  -- RDG_KICK, spec/17_ridge_safety.md
  ⟨.rdgKick, 0x20018, 0, 1, 0x0, 1, 0x0, 0x0,
    [⟨R.rdgKick_KEY, .wo, .any⟩]⟩,
  -- RDG_HBSTAT, spec/17_ridge_safety.md
  ⟨.rdgHbstat, 0x2001C, 0, 1, 0x0, 1, 0x0, 0x1,
    [⟨R.rdgHbstat_BADKEYS, .ro, .any⟩,
     ⟨R.rdgHbstat_EXPIRED, .ro, .any⟩,
     ⟨R.rdgHbstat_ARMED, .ro, .any⟩,
     ⟨R.rdgHbstat_NEXTKEY, .ro, .any⟩]⟩,
  -- RDG_LOCK, spec/17_ridge_safety.md
  ⟨.rdgLock, 0x20020, 0, 1, 0x0, 1, 0x0, 0x0,
    [⟨R.rdgLock_LOCK, .rg, .any⟩]⟩,
  -- RDG_PORT<p>_WIDTH, spec/17_ridge_safety.md
  ⟨.rdgPortWidth, 0x20100, 0, 16, 0x10, 1, 0x0, 0x3FF80010,
    [⟨R.rdgPortWidth_WMAX, .rg, .any⟩,
     ⟨R.rdgPortWidth_WMIN, .rg, .any⟩]⟩,
  -- RDG_PORT<p>_TIME, spec/17_ridge_safety.md
  ⟨.rdgPortTime, 0x20104, 0, 16, 0x10, 1, 0x0, 0x8FFFF,
    [⟨R.rdgPortTime_WDLIM, .rg, .any⟩,
     ⟨R.rdgPortTime_MINPER, .rg, .range 5000 65535⟩]⟩,
  -- RDG_PORT<p>_TEMP, spec/17_ridge_safety.md
  ⟨.rdgPortTemp, 0x20108, 0, 16, 0x10, 1, 0x0, 0x0,
    [⟨R.rdgPortTemp_TTRIP, .rg, .any⟩,
     ⟨R.rdgPortTemp_TWARN, .rg, .any⟩]⟩,
  -- RDG_PSTAT<p>, spec/17_ridge_safety.md
  ⟨.rdgPstat, 0x2010C, 0, 16, 0x10, 1, 0x0, 0x0,
    [⟨R.rdgPstat_PERDROP, .rc, .any⟩,
     ⟨R.rdgPstat_ENABLE, .ro, .any⟩,
     ⟨R.rdgPstat_WDDROP, .ro, .any⟩,
     ⟨R.rdgPstat_WARN, .ro, .any⟩,
     ⟨R.rdgPstat_TRIP, .ro, .any⟩]⟩,
  -- MOT_AX<a>_CUR, spec/18_motion.md
  ⟨.motAxCur, 0x270000, 0, 8, 0x40, 1, 0x0, 0x1F4FF40,
    [⟨R.motAxCur_STILLMS, .rw, .range 1 65535⟩,
     ⟨R.motAxCur_RUN, .rw, .any⟩,
     ⟨R.motAxCur_HOLD, .rw, .any⟩]⟩,
  -- MOT_AX<a>_VMAX, spec/18_motion.md
  ⟨.motAxVmax, 0x270004, 0, 8, 0x40, 1, 0x0, 0x3E8,
    [⟨R.motAxVmax_VMAX, .rw, .range 1 4000000⟩]⟩,
  -- MOT_AX<a>_AMAX, spec/18_motion.md
  ⟨.motAxAmax, 0x270008, 0, 8, 0x40, 1, 0x0, 0x2710,
    [⟨R.motAxAmax_AMAX, .rw, .range 1 2147483647⟩]⟩,
  -- MOT_AX<a>_JMAX, spec/18_motion.md
  ⟨.motAxJmax, 0x27000C, 0, 8, 0x40, 1, 0x0, 0xF4240,
    [⟨R.motAxJmax_JMAX, .rw, .range 1 2147483647⟩]⟩]

/-- Register tables, part 8. -/
def regRows8 : List RegRow := [
  -- MOT_AX<a>_SW, spec/18_motion.md
  ⟨.motAxSw, 0x270010, 0, 8, 0x40, 1, 0x0, 0x82000A08,
    [⟨R.motAxSw_POL, .rw, .any⟩,
     ⟨R.motAxSw_DEBOUNCE, .rw, .range 0 10⟩,
     ⟨R.motAxSw_CHATWIN, .rw, .range 1 255⟩,
     ⟨R.motAxSw_CHATN, .rw, .range 2 255⟩]⟩,
  -- MOT_AX<a>_HOME, spec/18_motion.md
  ⟨.motAxHome, 0x270014, 0, 8, 0x40, 1, 0x0, 0x6400320,
    [⟨R.motAxHome_BACKOFF, .rw, .range 1 65535⟩,
     ⟨R.motAxHome_SLOW, .rw, .range 1 65535⟩]⟩,
  -- MOT_AX<a>_HOMEPOS, spec/18_motion.md
  ⟨.motAxHomepos, 0x270018, 0, 8, 0x40, 1, 0x0, 0x0,
    [⟨R.motAxHomepos_POS, .rw, .any⟩]⟩,
  -- MOT_AX<a>_TRAVEL, spec/18_motion.md
  ⟨.motAxTravel, 0x27001C, 0, 8, 0x40, 1, 0x0, 0x1000000,
    [⟨R.motAxTravel_STEPS, .rw, .range 1 2147483647⟩]⟩,
  -- MOT_AX<a>_POS, spec/18_motion.md
  ⟨.motAxPos, 0x270020, 0, 8, 0x40, 1, 0x0, 0x0,
    [⟨R.motAxPos_POS, .ro, .any⟩]⟩,
  -- MOT_AX<a>_STAT, spec/18_motion.md
  ⟨.motAxStat, 0x270024, 0, 8, 0x40, 1, 0x0, 0x0,
    [⟨R.motAxStat_FAULT, .ro, .any⟩,
     ⟨R.motAxStat_HOLDCUR, .ro, .any⟩,
     ⟨R.motAxStat_LIMP, .ro, .any⟩,
     ⟨R.motAxStat_LIMN, .ro, .any⟩,
     ⟨R.motAxStat_EN, .ro, .any⟩,
     ⟨R.motAxStat_HOMED, .ro, .any⟩,
     ⟨R.motAxStat_STATE, .ro, .any⟩]⟩,
  -- SNS_CTRL, spec/19_sense_and_calibration.md
  ⟨.snsCtrl, 0x280000, 0, 1, 0x0, 1, 0x0, 0x6,
    [⟨R.snsCtrl_COMMIT, .w1s, .any⟩,
     ⟨R.snsCtrl_TRKDLY, .rw, .any⟩,
     ⟨R.snsCtrl_TRKADC, .rw, .any⟩]⟩,
  -- SNS_STAT, spec/19_sense_and_calibration.md
  ⟨.snsStat, 0x280004, 0, 1, 0x0, 1, 0x0, 0x0,
    [⟨R.snsStat_DIEMAX, .ro, .any⟩,
     ⟨R.snsStat_CALRUN, .ro, .any⟩,
     ⟨R.snsStat_DLYERR, .w1c, .any⟩,
     ⟨R.snsStat_RANGE, .ro, .any⟩]⟩,
  -- SNS_IN<i>, spec/19_sense_and_calibration.md
  ⟨.snsIn, 0x280100, 0, 48, 0x4, 1, 0x0, 0x8000,
    [⟨R.snsIn_VALUE, .ro, .any⟩,
     ⟨R.snsIn_INVALID, .ro, .any⟩,
     ⟨R.snsIn_RANGE, .ro, .any⟩,
     ⟨R.snsIn_CODE, .ro, .any⟩]⟩,
  -- SNS_TRIM<j>, spec/19_sense_and_calibration.md
  ⟨.snsTrim, 0x280200, 0, 32, 0x4, 1, 0x0, 0x80008000,
    [⟨R.snsTrim_GAIN, .ro, .any⟩,
     ⟨R.snsTrim_OFFSET, .ro, .any⟩,
     ⟨R.snsTrim_GAINSH, .rw, .any⟩,
     ⟨R.snsTrim_OFFSETSH, .rw, .any⟩]⟩,
  -- SNS_DLY<s>, spec/19_sense_and_calibration.md
  ⟨.snsDly, 0x280300, 0, 64, 0x4, 1, 0x0, 0x3E003E00,
    [⟨R.snsDly_TAPS, .ro, .any⟩,
     ⟨R.snsDly_SKEW, .ro, .any⟩,
     ⟨R.snsDly_TAPSSH, .rw, .range 50 83⟩,
     ⟨R.snsDly_SKEWSH, .rw, .any⟩]⟩,
  -- SNS_DIETRIM<d>, spec/19_sense_and_calibration.md
  ⟨.snsDietrim, 0x280400, 0, 8, 0x4, 1, 0x0, 0x0,
    [⟨R.snsDietrim_TRIM, .ro, .any⟩,
     ⟨R.snsDietrim_TRIMSH, .rw, .dieTrim⟩]⟩,
  -- SNS_PORTCFG<p>, spec/19_sense_and_calibration.md
  ⟨.snsPortcfg, 0x280440, 0, 16, 0x4, 1, 0x0, 0xA000000,
    [⟨R.snsPortcfg_RATIO, .rw, .range 1 65535⟩,
     ⟨R.snsPortcfg_TAB, .rw, .any⟩]⟩,
  -- SNS_THTAB<t>_<i>, spec/19_sense_and_calibration.md
  ⟨.snsThtab, 0x280500, 0, 2, 0x40, 16, 0x4, 0x0,
    [⟨R.snsThtab_TEMP, .rw, .any⟩,
     ⟨R.snsThtab_CODE, .rw, .any⟩]⟩,
  -- BST_CTRL, spec/20_bist_errors_injection.md
  ⟨.bstCtrl, 0x290000, 0, 1, 0x0, 1, 0x0, 0x180101,
    [⟨R.bstCtrl_PERIOD, .rw, .range 1 168⟩,
     ⟨R.bstCtrl_MAXSLICE, .rw, .range 1 4⟩,
     ⟨R.bstCtrl_EN, .rw, .any⟩]⟩,
  -- BST_STAT, spec/20_bist_errors_injection.md
  ⟨.bstStat, 0x290004, 0, 1, 0x0, 1, 0x0, 0x0,
    [⟨R.bstStat_PASSES, .ro, .any⟩,
     ⟨R.bstStat_ACTIVE, .ro, .any⟩]⟩,
  -- BST_RES0, spec/20_bist_errors_injection.md
  ⟨.bstRes0, 0x290010, 0, 1, 0x0, 1, 0x0, 0x0,
    [⟨R.bstRes0_VALID, .w1c, .any⟩,
     ⟨R.bstRes0_INJ, .ro, .any⟩,
     ⟨R.bstRes0_GROUP, .ro, .any⟩,
     ⟨R.bstRes0_INSTANCE, .ro, .any⟩]⟩,
  -- BST_RES1, spec/20_bist_errors_injection.md
  ⟨.bstRes1, 0x290014, 0, 1, 0x0, 1, 0x0, 0x0,
    [⟨R.bstRes1_ADDR, .ro, .any⟩]⟩,
  -- BST_RES2, spec/20_bist_errors_injection.md
  ⟨.bstRes2, 0x290018, 0, 1, 0x0, 1, 0x0, 0x0,
    [⟨R.bstRes2_BIT, .ro, .any⟩]⟩,
  -- BST_REPAIR<g>, spec/20_bist_errors_injection.md
  ⟨.bstRepair, 0x290100, 0, 24, 0x4, 1, 0x0, 0x7FF07F,
    [⟨R.bstRepair_SPARE, .ro, .any⟩,
     ⟨R.bstRepair_NOREPAIR, .ro, .any⟩,
     ⟨R.bstRepair_INSTANCE, .ro, .any⟩,
     ⟨R.bstRepair_ROW, .ro, .any⟩,
     ⟨R.bstRepair_COL, .ro, .any⟩]⟩]

/-- Register tables, part 9. -/
def regRows9 : List RegRow := [
  -- ERR_INJSTAT, spec/20_bist_errors_injection.md
  ⟨.errInjstat, 0x2B0000, 0, 1, 0x0, 1, 0x0, 0x0,
    [⟨R.errInjstat_ARMED, .ro, .any⟩,
     ⟨R.errInjstat_RECORD, .ro, .any⟩,
     ⟨R.errInjstat_INSTANCE, .ro, .any⟩,
     ⟨R.errInjstat_ID, .ro, .any⟩]⟩,
  -- ERR_HOSTPEND<k>, spec/20_bist_errors_injection.md
  ⟨.errHostpend, 0x2B0010, 0, 3, 0x4, 1, 0x0, 0x0,
    [⟨R.errHostpend_PEND, .ro, .any⟩]⟩,
  -- ERR_CFG<i>, spec/20_bist_errors_injection.md
  ⟨.errCfg, 0x2B0100, 1, 66, 0x8, 1, 0x0, 0x0,
    [⟨R.errCfg_CLR, .wo, .any⟩,
     ⟨R.errCfg_CLASS, .ro, .any⟩,
     ⟨R.errCfg_MASK, .rw, .any⟩,
     ⟨R.errCfg_ROUTE, .rw, .any⟩]⟩,
  -- ERR_COUNT<i>, spec/20_bist_errors_injection.md
  ⟨.errCount, 0x2B0104, 1, 66, 0x8, 1, 0x0, 0x0,
    [⟨R.errCount_COUNT, .ro, .any⟩]⟩,
  -- PMC_CTRL, spec/21_performance_counters.md
  ⟨.pmcCtrl, 0x2A0000, 0, 1, 0x0, 1, 0x0, 0x0,
    [⟨R.pmcCtrl_SNAP, .wo, .any⟩,
     ⟨R.pmcCtrl_FREEZE, .rw, .any⟩]⟩,
  -- PMC_ACCESS, spec/21_performance_counters.md
  ⟨.pmcAccess, 0x2A0004, 0, 1, 0x0, 1, 0x0, 0x0,
    [⟨R.pmcAccess_USER, .rw, .any⟩]⟩,
  -- PMC_OVF, spec/21_performance_counters.md
  ⟨.pmcOvf, 0x2A0008, 0, 1, 0x0, 1, 0x0, 0x0,
    [⟨R.pmcOvf_OVF, .w1c, .any⟩]⟩,
  -- PMC_TRCSTAT, spec/21_performance_counters.md
  ⟨.pmcTrcstat, 0x2A0010, 0, 1, 0x0, 1, 0x0, 0x0,
    [⟨R.pmcTrcstat_MISSED, .rc, .any⟩,
     ⟨R.pmcTrcstat_FINISHED, .ro, .any⟩]⟩,
  -- PMC_SEL<n>, spec/21_performance_counters.md
  ⟨.pmcSel, 0x2A0100, 0, 32, 0x10, 1, 0x0, 0x0,
    [⟨R.pmcSel_PAIR, .rw, .any⟩,
     ⟨R.pmcSel_INST, .rw, .any⟩,
     ⟨R.pmcSel_EVENT, .rw, .any⟩]⟩,
  -- PMC_CNTLO<n>, spec/21_performance_counters.md
  ⟨.pmcCntlo, 0x2A0104, 0, 32, 0x10, 1, 0x0, 0x0,
    [⟨R.pmcCntlo_COUNT, .rw, .any⟩]⟩,
  -- PMC_CNTHI<n>, spec/21_performance_counters.md
  ⟨.pmcCnthi, 0x2A0108, 0, 32, 0x10, 1, 0x0, 0x0,
    [⟨R.pmcCnthi_COUNT, .rw, .any⟩]⟩,
  -- PMC_USNAP, spec/21_performance_counters.md
  ⟨.pmcUsnap, 0x2A1000, 0, 1, 0x0, 1, 0x0, 0x0,
    [⟨R.pmcUsnap_SNAP, .wo, .any⟩]⟩,
  -- PMC_STIMELO, spec/21_performance_counters.md
  ⟨.pmcStimelo, 0x2A1008, 0, 1, 0x0, 1, 0x0, 0x0,
    [⟨R.pmcStimelo_T, .ro, .any⟩]⟩,
  -- PMC_STIMEHI, spec/21_performance_counters.md
  ⟨.pmcStimehi, 0x2A100C, 0, 1, 0x0, 1, 0x0, 0x0,
    [⟨R.pmcStimehi_T, .ro, .any⟩]⟩,
  -- PMC_SNAPLO<n>, spec/21_performance_counters.md
  ⟨.pmcSnaplo, 0x2A1100, 0, 32, 0x8, 1, 0x0, 0x0,
    [⟨R.pmcSnaplo_COUNT, .ro, .any⟩]⟩,
  -- PMC_SNAPHI<n>, spec/21_performance_counters.md
  ⟨.pmcSnaphi, 0x2A1104, 0, 32, 0x8, 1, 0x0, 0x0,
    [⟨R.pmcSnaphi_COUNT, .ro, .any⟩]⟩,
  -- GLB_WINSEL, spec/22_address_map.md
  ⟨.glbWinsel, 0x70, 0, 1, 0x0, 1, 0x0, 0x0,
    [⟨R.glbWinsel_COPY3, .rw, .any⟩,
     ⟨R.glbWinsel_PAGE3, .rw, .range 0 2⟩,
     ⟨R.glbWinsel_COPY2, .rw, .any⟩,
     ⟨R.glbWinsel_PAGE2, .rw, .range 0 2⟩,
     ⟨R.glbWinsel_COPY1, .rw, .any⟩,
     ⟨R.glbWinsel_PAGE1, .rw, .range 0 2⟩,
     ⟨R.glbWinsel_COPY0, .rw, .any⟩,
     ⟨R.glbWinsel_PAGE0, .rw, .range 0 2⟩]⟩]

/-- Every register table of the spec. -/
def regRows : List RegRow :=
  regRows0 ++ regRows1 ++ regRows2 ++ regRows3 ++ regRows4 ++ regRows5 ++ regRows6 ++ regRows7 ++ regRows8 ++ regRows9

/-- The row of a register's table, by kind: the rows stand in the order of `RegKind`'s constructors. -/
def rowOf (k : RegKind) : Option RegRow := regRows[k.ctorIdx]?

end Sys2Proof.Machine
end

