-- ==== Sys2Proof/Machine/Registers.lean ====
section
/-!
DEFINITION. Accesses to the BAR0 space by offset (spec 00, 22): which register an offset names, reads with their side effects, writes by
access code, host write enables and the rules of single registers, and the SRAM table windows.
-/
namespace Sys2Proof.Machine

/-! Offsets. -/

/-- The register of a table that lies at an offset. -/
def RegRow.at_ (r : RegRow) (off : Nat) : Option RegId :=
  if off < r.base then none
  else
    let hit (i : Nat) : Option RegId :=
      let d := off - r.base - r.iStride * i
      let j := if r.jStride = 0 then 0 else d / r.jStride
      if r.iStride * i ≤ off - r.base ∧ d = r.jStride * j ∧ j < r.jEnd then some ⟨r.k, i, j⟩ else none
    ((List.range r.iEnd).drop r.iFirst).findSome? hit

/-- The register at a BAR0 offset, if any (R442). -/
def regAt (off : Nat) : Option RegId := regRows.findSome? fun r => r.at_ off

/-- The bit of `GLB_HOSTACC.WEN` that governs an offset (R443). -/
def wenOf (off : Nat) : Option Nat :=
  if off < 0x10000 then some 0
  else if off < 0x100000 then none
  else if off < 0x200000 then some (1 + (off - 0x100000) / 0x40000)
  else if off < 0x2E0000 then some (5 + (off - 0x200000) / 0x10000)
  else if off < 0x300000 then none
  else if off < 0x400000 then some 19
  else none

/-! Writes by access code (R4 to R7). -/

/-- A field of a written word. -/
def Fld.of (f : Fld) (v : Word) : Nat := fieldOf v f.lo f.w

/-- A value is no reserved encoding of its field. -/
def Legal.ok : Legal → Nat → Bool
  | .any, _ => true
  | .range lo hi, v => decide (lo ≤ v ∧ v ≤ hi)
  | .oneOf vs, v => vs.contains v
  | .dieTrim, v => decide (v ≤ 511 ∨ (65024 ≤ v ∧ v ≤ 65535))

/-- One field of a register written. -/
def fieldWrite (m : Master) (r : RegId) (e : FieldRow) (v : Word) (s : State) : State :=
  let x := fieldOf v e.f.lo e.f.w
  let old := s.get e.f r.i r.j
  match e.acc with
  | .rw | .lk => if e.legal.ok x then s.put e.f x r.i r.j else s
  | .rg => if m = .ridge ∧ e.legal.ok x = true then s.put e.f x r.i r.j else s
  | .w1c => s.put e.f (old - (old &&& x)) r.i r.j
  | .w1s => s.put e.f (old ||| x) r.i r.j
  | .ro | .wo | .rc => s

/-- The fields of a register's table. -/
def fieldsOf (k : RegKind) : List FieldRow := match rowOf k with | some r => r.fields | none => []

/-- A register written field by field. -/
def plainWrite (m : Master) (r : RegId) (v : Word) (s : State) : State :=
  forEach (fieldsOf r.k) s fun e s => fieldWrite m r e v s

/-- The RC fields of a register cleared by a read (R4). -/
def clearRead (r : RegId) (s : State) : State :=
  forEach ((fieldsOf r.k).filter fun e => decide (e.acc = .rc)) s fun e s => s.put e.f 0 r.i r.j

/-- A VALID bit that clears a count with it. -/
def clearValid (valid count : Fld) (v : Word) (s : State) : State :=
  if fieldOf v valid.lo 1 = 1 then (s.put valid 0).put count 0 else s

/-! Registers with rules of their own. -/

/-- Balls on which the GPIO registers act for a writer (R42). -/
def gpioMask (m : Master) (s : State) : Nat :=
  (((List.range 6).filter fun g => decide (s.owner false g = 1 ∨ (m = .ridge ∧ s.owner false g = 7))).flatMap groupBalls |>.map (2 ^ ·)).sum

/-- A GPIO register written on the balls that it acts on. -/
def gpioWrite (m : Master) (f : Fld) (v : Word) (s : State) : State :=
  let mask := gpioMask m s
  let old := s.get f
  s.put f (old - (old &&& mask) + (v.toNat &&& mask))

/-- A master's copy of `GLB_WINSEL` written; PAGE 3 is reserved (R444, R445). -/
def winselWrite (m : Master) (v : Word) (s : State) : State :=
  let old := mapGet 0 s.winsel m.num
  let new := (List.range 4).foldl (fun (w : Word) c =>
    let w := fieldSet w (4 * c + 2) 1 (fieldOf v (4 * c + 2) 1)
    if fieldOf v (4 * c) 2 = 3 then w else fieldSet w (4 * c) 2 (fieldOf v (4 * c) 2)) old
  { s with winsel := nset 0 s.winsel m.num new }

/-- `CAD_CTRL` written: a unit that has selected an encoder selects the one then named (R202, R207). -/
def cadCtrlWrite (m : Master) (r : RegId) (v : Word) (s : State) : State :=
  let s := plainWrite m r v s
  let e := decide (s.encoder = 1)
  match s.cad.selected with
  | some x => if x = e then s else (selectEncoder s).setCad { (selectEncoder s).cad with selected := some e }
  | none => s

/-- `HPT_PCFG` written: a link no longer requested up goes down (R244), and one whose rate changes restarts (R268). The control firmware
loads the defaults of a rate that it sets (R270). -/
def pcfgWrite (m : Master) (r : RegId) (v : Word) (s : State) : State :=
  let was := s.flag R.hptPcfg_UP r.i
  let rate := s.get R.hptPcfg_RATE r.i
  let s := plainWrite m r v (catchUp r.i s)
  let s := if m = .control then loadTxeq r.i (s.get R.hptPcfg_RATE r.i) s else s
  if was ∧ s.flag R.hptPcfg_UP r.i = false then
    let s := laneOff r.i (headDown r.i false s)
    s.setPort r.i { s.port r.i with upSince := 0 }
  else settlePlls (headRate r.i rate s)

/-- `FAB_PCTRL` written: a disabled port goes down; a change of rate restarts both lanes, which lose block lock (R267, R268, R283). The control firmware loads the
defaults of a rate that it sets (R270). -/
def pctrlWrite (m : Master) (r : RegId) (v : Word) (s : State) : State :=
  let rate := s.get R.fabPctrl_RATE r.i
  let s := plainWrite m r v (catchUp (16 + r.i) s)
  let lanes := [16 + 2 * r.i, 17 + 2 * r.i]
  let s := if m = .control then forEach lanes s fun l s => loadTxeq l (s.get R.fabPctrl_RATE r.i) s else s
  let locks (s : State) : State := (s.put R.fabPstat_L0LOCK 0 r.i).put R.fabPstat_L1LOCK 0 r.i
  if s.flag R.fabPctrl_EN r.i = false then forEach lanes (locks (fabDown r.i s)) fun l s => laneOff l s
  else if s.get R.fabPctrl_RATE r.i ≠ rate then settlePlls (forEach lanes (fabDown r.i s) fun l s => laneRestart l (dropLock l s))
  else settlePlls s

/-- `LNS_TXEQ` written: a sum above 63 is a reserved encoding of the whole register (R269). -/
def txeqWrite (m : Master) (r : RegId) (v : Word) (s : State) : State :=
  if 63 < fieldOf v 0 4 + fieldOf v 8 6 + fieldOf v 16 5 then s else plainWrite m r v s

/-- The test settings of a lane that a write leaves: reserved encodings leave their fields (R271, R272). -/
def lnsCtrlWrite (m : Master) (r : RegId) (v : Word) (s : State) : State := setLaneTest r.i ((plainWrite m r v s).reg r) s

/-- `MOT_AX_SW` written: both switches of the axis are judged by the new POL (R398). -/
def switchWrite (m : Master) (r : RegId) (v : Word) (s : State) : State :=
  let old := s.flag R.motAxSw_POL r.i
  let levels := [SwitchSide.limn, .limp].map fun side => (side, switchActive s r.i side == old)
  let s := plainWrite m r v s
  if s.flag R.motAxSw_POL r.i = old then s else forEach levels s fun e s => switchEdge r.i e.1 e.2 [] s

/-- `DMC_WQ` written within its limits; queues that hold HIGH entries by the new value drain (R319). -/
def wqWrite (m : Master) (r : RegId) (v : Word) (s : State) : State :=
  let high := fieldOf v 0 7
  let low := fieldOf v 16 7
  if 56 < low ∨ high < low + 8 ∨ 64 < high then s else drainHigh 1 (drainHigh 0 (plainWrite m r v s))

/-- `ECC_ERASE` written: a device index is fixed while its erasure is set (R349, R350). -/
def eraseWrite (m : Master) (r : RegId) (v : Word) (s : State) : State :=
  forEach (fieldsOf .eccErase) s fun e s' =>
    if (e.f = R.eccErase_DEVA ∧ s.flag R.eccErase_ENA r.i = true) ∨ (e.f = R.eccErase_DEVB ∧ s.flag R.eccErase_ENB r.i = true) then s'
    else fieldWrite m r e v s'

/-- `ECC_DIAGCTRL.OP` (R354). -/
def diagCtrlWrite (m : Master) (v : Word) (s : State) : State :=
  let op := fieldOf v 0 2
  if op = 1 then diagOp m s diagWrite else if op = 2 then diagOp m s diagRead
  else if op = 3 then diagOp m s fun _ s => diagCheck s else s

/-- `ERR_CFG` written: MASK and ROUTE of FATAL and SAFETY detectors are read only; CLR (R423). -/
def errCfgWrite (m : Master) (r : RegId) (v : Word) (s : State) : State :=
  let s := if 2 ≤ detClass r.i then s else plainWrite m r v s
  if fieldOf v 31 1 = 1 then clearDetector r.i s else s

/-- A half of a counter written (R433). -/
def counterWrite (n : Nat) (hi : Bool) (v : Word) (s : State) : State :=
  let x := s.counter n
  setCounter n (if hi then x % 2 ^ 32 + 2 ^ 32 * (v.toNat % 2 ^ 16) else x / 2 ^ 32 * 2 ^ 32 + v.toNat) s

/-- Wraps cleared by writing 1 (R430). -/
def ovfClear (v : Word) (s : State) : State :=
  forEach (maskList 32 v.toNat) s fun n s => { s with counters := nset 0 s.counters n (s.counter n) }

/-- A ridge register's write: limits are fixed after the lock, and LOCK is never cleared (R380). -/
def ridgeWrite (m : Master) (r : RegId) (v : Word) (s : State) : State :=
  match r.k with
  | .rdgSafe => safeWrite m (fieldOf v 8 3) (decide (fieldOf v 0 1 = 1)) (decide (fieldOf v 1 1 = 1)) (decide (fieldOf v 2 1 = 1)) s
  | .rdgCause => causeClear m (fieldOf v 0 8) s
  | .rdgHpen => grantWrite m (fieldOf v 0 16) s
  | .rdgMoten => gateWrite m (fieldOf v 0 1) s
  | .rdgKick => kick m (fieldOf v 0 8) s
  | .rdgLock => if m = .ridge ∧ fieldOf v 0 1 = 1 then (s.put R.rdgLock_LOCK 1).put R.rdgStatus_LOCK 1 else s
  | _ => if s.flag R.rdgLock_LOCK then s else plainWrite m r v s

/-- A pannier register's write (R73 to R88). -/
def pannierWrite (m : Master) (r : RegId) (v : Word) (s : State) : State :=
  match r.k with
  | .pnrMsg => msgWrite m r.i r.j v s
  | .pnrCtrl => if fieldOf v 31 1 = 1 then goWrite m r.i (fieldOf v 0 5) s else ctrlWrite m r.i (fieldOf v 0 5) s
  | .pnrStatus => pnrViolation m r.i 0x44 s
  | .pnrTake => pnrViolation m r.i 0x48 s
  | .pnrLock => lockWrite m r.i (fieldOf v 0 3) s
  | .pnrEpoch => if s.isReceiver m r.i then s.put R.pnrEpoch_EPOCH (fieldOf v 0 16) r.i else pnrViolation m r.i 0x50 s
  | .pnrBind => bindWrite m r.i v s
  | .pnrBindlock => if m = .control ∧ fieldOf v 0 1 = 1 then s.put R.pnrBindlock_LOCK 1 else s
  | .pnrBell => if m.num = r.i then bellClear m m v s else s
  | .pnrBellen => if m.num = r.i then bellenWrite m m v s else s
  | .pnrViol => if m = .host ∧ s.get R.glbHostacc_WEN = 0 then s else clearValid R.pnrViol_VALID R.pnrViol_COUNT v s
  | _ => s

/-- A write to a register whose block's gate has let it pass. -/
def writeAt (m : Master) (r : RegId) (off : Nat) (v : Word) (s : State) : State :=
  match r.k with
  | .glbClaim0 => writeClaim m false v s
  | .glbClaim1 => writeClaim m true v s
  | .glbClaimerr => clearValid R.glbClaimerr_VALID R.glbClaimerr_COUNT v s
  | .glbHostviol => clearValid R.glbHostviol_VALID R.glbHostviol_COUNT v s
  | .glbGpioDir => gpioWrite m R.glbGpioDir_DIR v s
  | .glbGpioOut => gpioWrite m R.glbGpioOut_OUT v s
  | .glbWinsel => winselWrite m v s
  | .glbHostacc | .pmcAccess | .dmaFence => if m = .control then plainWrite m r v s else s
  | .chDecmax => if fieldOf v 31 1 = 1 then s.put R.chDecmax_MAXCYC 0 r.i else s
  | .chBfpop => popFault r.i v s
  | .cadCtrl => cadCtrlWrite m r v s
  | .cadPitch => if 0x100000 ≤ v.toNat then rebase (plainWrite m r v s) else s
  | .hptPcfg => pcfgWrite m r v s
  | .hptLdbase | .hptLdsize | .hptLdrd => drainLedger (s.ledger.onchip.length + s.ledger.overflow + 1) (plainWrite m r v s)
  | .hptWdfault => faultsCleared m r.i v s
  | .lnsCtrl => lnsCtrlWrite m r v s
  | .lnsTxeq => txeqWrite m r v s
  | .lnsInj => laneInject r.i v s
  | .fabPctrl => pctrlWrite m r v s
  | .motAxSw => switchWrite m r v s
  | .dmcWq => wqWrite m r v s
  | .eccScrub => if 10 ≤ R.eccScrub_PERIOD.of v ∧ R.eccScrub_PERIOD.of v ≤ 10080 then setScrubPeriod (R.eccScrub_PERIOD.of v) s else s
  | .eccErase => eraseWrite m r v s
  | .eccDiagctrl => diagCtrlWrite m v s
  | .dmaCtrl => dmaCtrlWrite m r.i v s
  | .dmaDesclo | .dmaDeschi => dmaWrites m r.i off s fun s => if s.dmaState r.i = 1 then s else plainWrite m r v s
  | .dmaMaxdesc => dmaWrites m r.i off s (plainWrite m r v)
  | .crcCfg => crcCfgWrite m r.i v s
  | .crcData8 => crcData m r.i 0 v s
  | .crcData16 => crcData m r.i 1 v s
  | .crcData32 => crcData m r.i 2 v s
  | .crcVallo => crcValWrite m r.i false v s
  | .crcValhi => crcValWrite m r.i true v s
  | .crcScanlo | .crcScanhi | .crcScanlen => crcWrites m r.i (off - 0x260000 - 0x40 * r.i) s (plainWrite m r v)
  | .snsCtrl =>
    let s := (s.put R.snsCtrl_TRKDLY (R.snsCtrl_TRKDLY.of v)).put R.snsCtrl_TRKADC (R.snsCtrl_TRKADC.of v)
    if R.snsCtrl_COMMIT.of v = 1 then requestCommit s else s
  | .bstRes0 => if fieldOf v 31 1 = 1 then ((s.setReg r 0).setReg ⟨.bstRes1, 0, 0⟩ 0).setReg ⟨.bstRes2, 0, 0⟩ 0 else s
  | .errCfg => errCfgWrite m r v s
  | .pmcCtrl => let s := plainWrite m r v s; if fieldOf v 1 1 = 1 then snapshot s else s
  | .pmcOvf => ovfClear v s
  | .pmcSel => bankWrites m r.i off s fun s =>
    let pair := s.get R.pmcSel_PAIR r.i
    if r.i % 2 = 1 then (plainWrite m r v s).put R.pmcSel_PAIR pair r.i else plainWrite m r v s
  | .pmcCntlo => bankWrites m r.i off s (counterWrite r.i false v)
  | .pmcCnthi => bankWrites m r.i off s (counterWrite r.i true v)
  | _ => plainWrite m r v s

/-! SRAM table windows (R444 to R448). -/

/-- The table and byte offset that a window offset shows under a PAGE. -/
def windowPlace (page o : Nat) : Option (Nat × Nat) :=
  if page = 0 then some (0, o)
  else if page = 1 then some (0, 0x40000 + o)
  else if page = 2 then
    if o < 0x1000 then some (1, o)
    else if 0x1000 ≤ o ∧ o < 0x1040 then some (2, o - 0x1000)
    else if 0x1100 ≤ o ∧ o < 0x1180 then some (3, o - 0x1100)
    else none
  else none

/-- A window offset of a master: channel, inactive copy?, table and byte offset. -/
def windowOf (m : Master) (off : Nat) (s : State) : Nat × Bool × Option (Nat × Nat) :=
  let w := off - 0x300000
  let ch := w / 0x40000
  let sel := (mapGet 0 s.winsel m.num).toNat
  (ch, bitOf sel (4 * ch + 2), windowPlace (bitsOf sel (4 * ch) 2) (w % 0x40000))

/-- A word read through a window. -/
def windowRead (m : Master) (off : Nat) (s : State) : Word :=
  if usesBuffer s then
    if off < 0x310000 then BitVec.ofNat 32 (leNat (Memory.readN 0 s.stage (off - 0x300000) 4)) else 0
  else match windowOf m off s with
  | (ch, inactive, some (t, o)) =>
    let x := s.chan ch
    BitVec.ofNat 32 (leNat ((if inactive then x.inactive else x.active).bytes t o 4))
  | _ => 0

/-- The SRAM that a window access reads (R352, R418). -/
def windowSram (m : Master) (off : Nat) (s : State) : State :=
  if usesBuffer s then s else match windowOf m off s with | (_, _, some (t, _)) => tableReads t s | _ => s

/-- A load or a commit of the channel is open: the inactive copy takes no window write (R446). -/
def windowWrite (m : Master) (off : Nat) (v : Word) (s : State) : State :=
  if usesBuffer s then
    if off < 0x310000 then { s with stage := Memory.writeN 0 s.stage (off - 0x300000) (wordBytes v) } else s
  else match windowOf m off s with
  | (ch, inactive, some (t, o)) =>
    let x := s.chan ch
    if m ≠ .control ∧ (inactive = false ∨ tableBusy ch s = true) then hostViolation off s
    else if inactive then s.setChan ch { x with inactive := Tables.setBytes t o (wordBytes v) x.inactive }
    else s.setChan ch { x with active := Tables.setBytes t o (wordBytes v) x.active }
  | _ => s

/-- Direct SRAM access from the debug port: in TEST and RMA, or under a token whose scope holds it (R67, R108; log entry 75). -/
def debugSram (s : State) : Bool := decide (s.otp.lc = .test ∨ s.otp.lc = .rma) || bitOf (s.get R.glbHostacc_WEN) 19

/-- A window write by a master: the host's only while WEN bit 19 is 1, or into the staging buffer (R66, R106, R313, R446); the debug port's only
where R67 permits it. -/
def windowAccess (m : Master) (off : Nat) (v : Word) (s : State) : State :=
  if m = .debug ∧ debugSram s = false then s
  else if usesBuffer s = true ∧ m ≠ .proxy then windowWrite m off v s else gated 19 off m s (windowWrite m off v)

/-! Accesses by offset. -/

/-- A 32-bit write at a BAR0 offset. -/
def writeReg (m : Master) (off : Nat) (v : Word) (s : State) : State :=
  if off % 4 ≠ 0 ∨ 0x400000 ≤ off then s
  else if 0x300000 ≤ off then windowAccess m off v s
  else if off = 0x2A1000 then (if fieldOf v 0 1 = 1 then userSnap m s else s)
  else if 0x10000 ≤ off ∧ off < 0x20000 then (match regAt off with | some r => pannierWrite m r v s | none => s)
  else if 0x20000 ≤ off ∧ off < 0x30000 then (match regAt off with | some r => ridgeWrite m r v s | none => s)
  else match wenOf off with
  | some w => gated w off m s fun s => match regAt off with | some r => writeAt m r off v s | none => s
  | none => s

/-- A 32-bit read at a BAR0 offset: its value and its side effects (R4, R72 to R74, R80, R84, R208, R296, R433). -/
def readReg (m : Master) (off : Nat) (s : State) : Word × State :=
  if off % 4 ≠ 0 ∨ 0x400000 ≤ off then (0, s)
  else if 0x300000 ≤ off then (if m = .debug ∧ debugSram s = false then (0, s) else (windowRead m off s, windowSram m off s))
  else match regAt off with
  | none => (0, s)
  | some r =>
    match r.k with
    | .pnrMsg => if s.isSender m r.i || s.isReceiver m r.i then (s.reg r, s) else (0, pnrViolation m r.i (4 * r.j) s)
    | .pnrTake => takeRead m r.i s
    | .pnrLock => lockRead m 0 r.i s
    | .cadPoslo => capturePos m s
    | .fabTimelo => captureTime m s
    | .pmcCntlo => captureCount m r.i s
    | .cmpStatus => (shown m r s, if s.raws = [] then s else s.drawn)
    | _ => (shown m r s, clearRead r s)

/-! Meanings. -/

/-- A write to a claim register (R39 to R41). -/
def execClaimWrite (t : Nat) (m : Master) (reg1 : Bool) (v : Word) (s : State) : Result :=
  liveWrite m t s fun s => gated 0 (if reg1 then 0x44 else 0x40) m s (writeClaim m reg1 v)

/-- A write through a window. -/
def execSramWindowWrite (t : Nat) (m : Master) (off : Nat) (v : Word) (s : State) : Result :=
  liveWrite m t s fun s => if off % 4 ≠ 0 ∨ off < 0x300000 ∨ 0x400000 ≤ off then s else windowAccess m off v s

end Sys2Proof.Machine
end

