-- ==== Sys2Proof/Machine/DmaMove.lean ====
section
/-!
DEFINITION. What a DMA channel moves (R360 to R370) and what a CRC unit scans (R374).
-/
namespace Sys2Proof.Machine

/-! Device addresses (R440, R441). The register space is read and written as the control core reads and writes it. -/

/-- Words of the register space. -/
def readWords (off : Nat) : Nat → State → List Byte × State
  | 0, s => ([], s)
  | n + 1, s =>
    let r := readReg .control off s
    let x := readWords (off + 4) n r.2
    (wordBytes r.1 ++ x.1, x.2)

/-- Bytes from a device address for a requester; none of the words of an unassigned address or of DRAM not trained. -/
def dmaRead (req a n : Nat) (s : State) : Fetched × State :=
  let i := a % 2 ^ 40
  if addrSpace a ≠ 0 then fetch req a n s
  else if inRegSpace i n then let r := readWords (i - 0x8000000000) (n / 4) s; (.bytes r.1, r.2)
  else if s.inDram i n ∧ s.trained then fetch req i n s
  else (.error, s)

/-- A read repeated while it ends in a bus error (R366). -/
def tryRead : Nat → Nat → Nat → State → Fetched × State
  | 0, a, n, s => dmaRead 4 a n s
  | k + 1, a, n, s =>
    match dmaRead 4 a n s with
    | (.error, s') => tryRead k a n s'
    | r => r

/-- Words written into the register space. -/
def putWords : Nat → List Word → State → State
  | _, [], s => s
  | off, w :: r, s => putWords (off + 4) r (writeReg .control off w s)

/-- Bytes written at an address of a channel; false where the access ends in a bus error: DRAM not trained. Writes to the host are posted. -/
def dmaPut (a : Nat) (bs : List Byte) (s : State) : Bool × State :=
  let i := a % 2 ^ 40
  if addrSpace a = 0 ∧ inRegSpace i bs.length = true then (true, putWords (i - 0x8000000000) (bytesWords bs) s)
  else if addrSpace a = 0 ∧ s.trained = false then (false, s)
  else (true, deliver 4 a bs s)

/-! Moving a descriptor (R361 to R363). -/

def Desc.unit (d : Desc) : Nat := 2 ^ max d.sw d.dw

/-- The address lies in DRAM (R358). -/
def dramAddr (a : Nat) : Bool := decide (addrSpace a = 0 ∧ a % 2 ^ 40 < 0x8000000000)

/-- The descriptor is moved in descending order: ranges of DRAM that overlap with DST above SRC (R362). -/
def Desc.descending (d : Desc) : Bool := dramAddr d.src && dramAddr d.dst && decide (d.src < d.dst ∧ d.dst < d.src + d.len)

/-- How far a move comes. -/
inductive Moved where
  | done | wait | fail (a : Nat) (write : Bool)
deriving DecidableEq, Repr

/-- Source accesses into the holding register until it holds a unit at offset `off`. -/
def fillHold : Nat → Nat → Desc → Nat → State → Moved × State
  | 0, _, _, _, s => (.done, s)
  | fuel + 1, n, d, off, s =>
    let x := s.dmaCh n
    let w := 2 ^ d.sw
    if d.unit ≤ x.hold.length then (.done, s)
    else
      let a := d.src + off + (if d.descending then d.unit - x.hold.length - w else x.hold.length)
      match tryRead (if addrSpace a = 3 then 0 else s.get R.dmaCtrl_RETRY n) a w s with
      | (.bytes bs, s) => fillHold fuel n d off (s.setDma n { x with hold := if d.descending then bs ++ x.hold else x.hold ++ bs })
      | (.wait, s) => (.wait, s)
      | (.error, s) => (.fail a false, s)

/-- Destination accesses that empty the holding register; the address of one that ends in a bus error, of which each retry fails too (R366). -/
def emptyHold (d : Desc) (off : Nat) (bs : List Byte) (s : State) : Option Nat × State :=
  let w := 2 ^ d.dw
  let ks := List.range (bs.length / w)
  (if d.descending then ks.reverse else ks).foldl (fun (r : Option Nat × State) k =>
    if r.1.isSome then r
    else
      let p := dmaPut (d.dst + off + w * k) ((bs.drop (w * k)).take w) r.2
      (if p.1 then none else some (d.dst + off + w * k), p.2)) (none, s)

/-- A piece of a far source is asked for (R289). -/
def askFar (d : Desc) (moved : Nat) (s : State) : State :=
  let off := moved / 4096 * 4096
  requestFar (addrMember d.src) (addrIn (d.src + off)) (min 4096 (d.len - off)) s 0

/-- The units of a descriptor that are left. -/
def moveUnits : Nat → Nat → Desc → State → Moved × State
  | 0, _, _, s => (.done, s)
  | fuel + 1, n, d, s =>
    let moved := (s.dmaCh n).moved
    if d.len ≤ moved then (.done, s)
    else
      let off := if d.descending then d.len - moved - d.unit else moved
      match fillHold (d.unit + 1) n d off s with
      | (.done, s) =>
        let x := s.dmaCh n
        match emptyHold d off x.hold s with
        | (some a, s) => (.fail a true, s)
        | (none, s) =>
          let s := doneWith (d.src + off) d.unit (s.tally 0x0701 n d.unit)
          let crc := if d.crcSel = 0 ∨ d.descending = true then x.crc else BitVec.ofNat 64 (crcFeed (d.crcSel - 1) x.crc.toNat x.hold)
          moveUnits fuel n d (s.setDma n { x with hold := [], moved := moved + d.unit, crc := crc, tries := 0, since := s.now })
      | (.wait, s) => (.wait, askFar d moved s)
      | r => r

/-- Reads of the destination that are left of a descending copy's check, in ascending order (R363); the spec gives their width no value: that of
the destination accesses (log entry 140: DESIGN CHOICE). -/
def checkUnits : Nat → Nat → Desc → State → Moved × State
  | 0, _, _, s => (.done, s)
  | fuel + 1, n, d, s =>
    let x := s.dmaCh n
    let a := d.dst + x.checked
    if d.len ≤ x.checked then (.done, s)
    else match tryRead (s.get R.dmaCtrl_RETRY n) a (2 ^ d.dw) s with
    | (.bytes bs, s) =>
      checkUnits fuel n d (s.setDma n { x with crc := BitVec.ofNat 64 (crcFeed (d.crcSel - 1) x.crc.toNat bs), checked := x.checked + 2 ^ d.dw,
                                               tries := 0, since := s.now })
    | (_, s) => (.fail a false, s)

/-- The check of a descending copy is taken over its destination (R363). -/
def descendingCheck (n : Nat) (d : Desc) (s : State) : Moved × State :=
  if d.crcSel = 0 ∨ d.descending = false then (.done, s) else checkUnits (d.len / 2 ^ d.dw + 1) n d s

/-- The end of a chain: the write-back, if it has a check, then COMPLETE and the completion interrupt (R364, R366). -/
def chainEnd (n : Nat) (d : Desc) (s : State) : State :=
  let x := s.dmaCh n
  let a := x.at_ - x.at_ % 32 + 0x18
  let v := if d.crcSel = 0 then 0 else crcResult (d.crcSel - 1) x.crc.toNat
  let p := if d.crcSel = 0 then (true, s) else dmaPut a (leBytes 8 v) (showDmaCrc n v s)
  if p.1 then
    let s := setDmaStat n 3 0 0 0 (p.2.setDma n { p.2.dmaCh n with cur := none, moved := 0, hold := [], prevTag := some d.tag, at_ := d.next, tries := 0,
                                                                   since := s.now, checked := 0, writeBack := false })
    if d.irq then dmaIrq n s else s
  else dmaFail n 1 a 1 1 (p.2.setDma n { p.2.dmaCh n with writeBack := true })

/-- A descriptor is complete: the next one, or the end of the chain (R360, R364). -/
def descDone (n : Nat) (d : Desc) (s : State) : State :=
  let x := s.dmaCh n
  if d.last then chainEnd n d s
  else
    let next := s.setDma n { x with cur := none, moved := 0, hold := [], prevTag := some d.tag, at_ := d.next, tries := 0, since := s.now, checked := 0 }
    let s := if d.crcSel = 0 then next else showDmaCrc n x.crc.toNat next
    if d.irq then dmaIrq n s else s

/-- A far source that ended in a bus error is asked for again while retries are left (R289, R366). -/
def farRetry (n : Nat) (d : Desc) (a : Nat) (s : State) : State :=
  let x := s.dmaCh n
  if addrSpace d.src = 3 ∧ x.tries < s.get R.dmaCtrl_RETRY n then
    let off := x.moved / 4096 * 4096
    let s := doneWith (d.src + off) (min 4096 (d.len - off)) s
    askFar d x.moved (s.setDma n { x with tries := x.tries + 1, since := s.now })
  else
    dmaFail n 1 a 0 0 (doneWith (d.src + x.moved) (d.len - x.moved) s)

/-- The running check of a chain shows (R363). -/
def showCheck (n : Nat) (d : Desc) (s : State) : State := if d.crcSel = 0 then s else showDmaCrc n (s.dmaCh n).crc.toNat s

/-- A channel goes on with the descriptor that it holds. -/
def dmaMove (n : Nat) (d : Desc) (s : State) : State :=
  let r := moveUnits (d.len / d.unit + 1) n d s
  match r with
  | (.wait, s) => showCheck n d s
  | (.fail a false, s) => farRetry n d a (showCheck n d s)
  | (.fail a true, s) => dmaFail n 1 a 1 0 (showCheck n d s)
  | (.done, s) =>
    match descendingCheck n d s with
    | (.done, s) => descDone n d s
    | (.fail a _, s) => dmaFail n 1 a 0 0 (showCheck n d s)
    | (.wait, s) => s

/-- A descriptor is read and judged: the count, the tag, the validity (R359, R360, R370). -/
def dmaTake (n : Nat) (s : State) : State :=
  let x := s.dmaCh n
  let a := x.at_ - x.at_ % 32
  if s.get R.dmaMaxdesc_MAX n ≤ s.get R.dmaCount_DESCS n then dmaHalt n 4 0 0 s
  else if addrSpace a = 3 then dmaFail n 1 a 0 1 s
  else match tryRead (s.get R.dmaCtrl_RETRY n) a 32 s with
  | (.bytes bs, s) =>
    let d := descOf bs
    let s := (s.bumpWrap R.dmaCount_DESCS n).put R.dmaStat_TAG d.tag n
    if (match x.prevTag with | some t => decide (d.tag ≠ (t + 1) % 65536) | none => false) = true then dmaHalt n 3 0 0 s
    else if descInvalid n x.crcSel d s then dmaHalt n 5 0 0 s
    else
      let crc := if x.crcSel.isNone ∧ d.crcSel ≠ 0 then BitVec.ofNat 64 (crcStart (d.crcSel - 1)) else x.crc
      dmaMove n d (s.setDma n { x with cur := some d, moved := 0, hold := [], crc := crc, crcSel := some (x.crcSel.getD d.crcSel),
                                       tries := 0, since := s.now, checked := 0 })
  | (_, s) => dmaFail n 1 a 0 1 s

/-- A running channel reads, checks and moves one descriptor, or goes on with the one that waits for data (R360). -/
def execDmaDescriptor (t : Nat) (n : DmaCh) (s : State) : Result :=
  liveReading [15] t s fun s =>
    if s.dmaState n ≠ 1 then s
    else match (s.dmaCh n).cur with
    | some d => if (s.dmaCh n).writeBack then chainEnd n d s else dmaMove n d s
    | none => dmaTake n s

/-- The access in progress, which began when the one before it was complete, has not completed within `DMA_TIMEOUT.MS`: it is repeated, or the
channel halts with its address; what arrives later is discarded (R366). -/
def execDmaAccessTimeout (t : Nat) (n : DmaCh) (s : State) : Result :=
  live t s fun s =>
    let x := s.dmaCh n
    if s.dmaState n ≠ 1 ∨ s.now < x.since + s.get R.dmaTimeout_MS * 1000000000 then s
    else
      let a := match x.cur with | some d => d.src + x.moved + x.hold.length | none => x.at_ - x.at_ % 32
      let drop (s : State) : State := match x.cur with
        | some d => if addrSpace d.src = 3 then
            let m := addrMember d.src
            let s := dropFar m (addrIn d.src) d.len s
            s.setFab { s.fab with reads := s.fab.reads.filter fun r => !decide (r.member = m ∧ r.addr < addrIn d.src + d.len ∧ addrIn d.src < r.addr + r.len) }
          else s
        | none => s
      if x.tries < s.get R.dmaCtrl_RETRY n then (drop s).setDma n { x with tries := x.tries + 1, since := s.now }
      else dmaFail n 2 a 0 (b2n x.cur.isNone) (drop s)

/-! DMA_RUN (R355, R365, R369). -/

/-- What the firmware's walk of a chain finds. -/
inductive Walk where
  | good | invalid | busError
deriving DecidableEq, Repr

/-- The firmware walks a chain before it starts the channel: each descriptor that the channel would reach must be valid.
Its reads are the control core's, wherever NEXT points (R334, R358). -/
def walkChain (n : Nat) : Nat → Nat → Option Nat → Option Nat → State → Walk × State
  | 0, _, _, _, s => (.good, s)
  | fuel + 1, a, first, tag, s =>
    let r := dmaRead 7 (a - a % 32) 32 s
    match r.1 with
    | .bytes bs =>
      let d := descOf bs
      if descInvalid n first d r.2 then (.invalid, r.2)
      else if d.last ∨ (match tag with | some t => decide (d.tag ≠ (t + 1) % 65536) | none => false) = true then (.good, r.2)
      else walkChain n fuel d.next (some (first.getD d.crcSel)) (some d.tag) r.2
    | _ => (.busError, r.2)

def dmaRunRow : OpRow := { op := 0x0B02, argw := 3, states := activeStates }
def dmaRunFail (c : Cmd) (s : State) : Option (Nat × Nat) :=
  let a := cmdDword c 2
  firstFail [(!destOk a 32 s || decide (a % 32 ≠ 0), (stBadArgument, 0)), (needsDram a s, (stNoResource, 0)), (queueBusy c s, (stBusy, 0)),
    (decide (cmdNat c 1 ≠ 7), (stDenied, 0))]

/-- Staging areas whose locks the sender holds (R104, R365). -/
def stageMask (c : Cmd) (s : State) : Nat := ((List.range 4).map fun i => if ownsStaging c i s then 2 ^ i else 0).sum

/-- The claim, the fence, the walk and the start; a claim not kept is released. -/
def dmaRunAct (c : Cmd) (s : State) : Reply :=
  let fresh := decide (s.owner true 1 = 0)
  let drop (s : State) : State := if fresh then claimFree true 1 (claimOwner c.q) s else s
  let claim := claimFor true 1 (claimOwner c.q) s
  if claim.1 = false then { status := stConflict, s := claim.2 }
  else if claim.2.dmaState 7 = 1 then { status := stBusy, s := drop claim.2 }
  else
    let keep := claim.2
    let restore (s : State) : State := ((s.put R.dmaCtrl_FENCE (keep.get R.dmaCtrl_FENCE 7) 7).put R.dmaFence_STAGE (keep.get R.dmaFence_STAGE)).put
      R.dmaFence_FWD (keep.get R.dmaFence_FWD)
    let s := (claim.2.put R.dmaCtrl_FENCE 1 7)
    let s := (s.put R.dmaFence_STAGE (stageMask c s)).put R.dmaFence_FWD 0
    let a := cmdDword c 2
    match walkChain 7 (s.get R.dmaMaxdesc_MAX 7) a none none s with
    | (.invalid, s) => { status := stBadArgument, s := drop (restore s) }
    | (.busError, s) => { status := stIntegrity, s := drop (restore s) }
    | (.good, s) =>
      let s := (s.put R.dmaDesclo_ADDR (lo32 a / 32) 7).put R.dmaDeschi_ADDR (hi32 a) 7
      { s := openE 0x0B02 c [7, 0] (dmaBegin 7 s) }
def execDmaRun (t : Nat) (c : Cmd) (s : State) : Result := command t c s (runCommand dmaRunRow dmaRunFail dmaRunAct)

/-- Channel 7 is complete, idle or halted: a halted one is aborted, the claim is released, and the chain's status as it stopped is
reported (R369). -/
def execDmaRunDone (t : Nat) (q : Queue) (s : State) : Result :=
  completion t 0x0B02 q s fun o s =>
    if s.dmaState 7 = 1 then s
    else
      let halted := decide (s.get R.dmaStat_CAUSE 7 ≠ 0)
      let w := s.get R.dmaStat_CAUSE 7 + 256 * s.get R.dmaStat_DIR 7 + 512 * s.get R.dmaStat_DESC 7 + 65536 * s.get R.dmaStat_TAG 7
      let s := claimFree true 1 (claimOwner o.cmd.q) (dmaStop 7 s)
      finish o stOk 0 [if halted then w else 0] s

/-! CRC scans (R374). -/

/-- Bytes of a device address for a scan: DRAM through the control core, the register space by words. -/
def scanBytes (a n : Nat) (s : State) : Option (List Byte) × State :=
  if inRegSpace a n then
    let lo := a - a % 4
    let r := readWords (lo - 0x8000000000) ((a % 4 + n + 3) / 4) s
    (some ((r.1.drop (a % 4)).take n), r.2)
  else if s.inDram a n ∧ s.trained then dramRead 7 a n s
  else (none, s)

/-- A scan in pieces that do not cross 64-byte boundaries; the address at which it stopped, if it did. -/
def scanLoop : Nat → Nat → Nat → Nat → State → Option Nat × State
  | 0, _, _, _, s => (none, s)
  | fuel + 1, u, a, n, s =>
    if n = 0 then (none, s)
    else
      let k := min n (64 - a % 64)
      match scanBytes a k s with
      | (some bs, s) => scanLoop fuel u (a + k) (n - k) (setCrcVal u (crcFeed (s.crcPolyOf u) (s.crcVal u) bs) s)
      | (none, s) => (some (a - a % 64), s)

/-- A scan completes, or stops on a bus error at the address that SCANLO and SCANHI then hold. -/
def execCrcScanDone (t : Nat) (u : CrcUnit) (s : State) : Result :=
  live t s fun s =>
    if s.flag R.crcStat_BUSY u = false then s
    else
      let a := s.get R.crcScanlo_ADDR u + 2 ^ 32 * s.get R.crcScanhi_ADDR u
      let n := s.get R.crcScanlen_LEN u
      match scanLoop (n / 64 + 2) u a n s with
      | (none, s) => s.put R.crcStat_BUSY 0 u
      | (some b, s) =>
        let s := (s.put R.crcScanlo_ADDR (lo32 b) u).put R.crcScanhi_ADDR (hi32 b) u
        (s.put R.crcStat_ERR 1 u).put R.crcStat_BUSY 0 u

end Sys2Proof.Machine
end

