-- ==== Sys2Proof/Machine/Commands.lean ====
section
/-!
DEFINITION. Commands taken from panniers (R91 to R94, R103, R466): the opcode tables, the rotation of the queues, the post and the
take of a message, register accesses that post or take, and the end of boot, after which commands are served (R98, R99).
-/
namespace Sys2Proof.Machine

/-- An opcode with its own conditions and its effect. -/
structure Opcode where
  row : OpRow
  own : Cmd → State → Option (Nat × Nat)
  act : Cmd → State → Reply

/-! CHAIN_FORWARD (R103, R290). -/

def chainForwardRow : OpRow := { op := 0x0703, argw := 6, states := anyState }
/-- Another member, an inner message of 8 to 16 words, room for the inner response (R103). R103 does not say what a command naming this
member's own ID returns: BAD_ARGUMENT (log entry 96: DESIGN CHOICE). -/
def chainForwardFail (c : Cmd) (s : State) : Option (Nat × Nat) :=
  let (m, a, n, b) := (cmdNat c 1, cmdDword c 2, cmdNat c 4, cmdDword c 5)
  firstFail [(decide (m = 0 ∨ 250 < m ∨ m = s.memberId ∨ n < 8 ∨ 16 < n) || !sourceOk a (4 * n) s || !destOk b 64 s, (stBadArgument, 0)),
    (queueBusy c s, (stBusy, 0)), (needsDram a s || needsDram b s, (stNoResource, 0)), (destHeld c b 64 s, (stConflict, 0))]

/-- A POST to a member, which waits for its response. -/
def sendPost (dest : Nat) (ws : List Word) (isE : Bool) (s : State) : Nat × State :=
  let tag := (s.fab.msgTag + 1) % 65536
  let s := s.setFab { s.fab with msgTag := tag }
  let o : ProxyOp := { tag := tag, op := 1, dest := dest, ch := 8, words := ws, tries := 0, t0 := s.now, sentAt := s.now, isE := isE, resp := [] }
  (tag, sendProxy 1 8 ws dest tag (setOp tag (some o) s))

/-- The inner message is read and posted to the member; an inner E command needs room for its `COMMAND_DONE` too. -/
def chainForwardAct (c : Cmd) (s : State) : Reply :=
  let (m, a, n) := (cmdNat c 1, cmdDword c 2, 4 * cmdNat c 4)
  let r := fetch 7 a n s
  match r.1 with
  | .wait => { wait := true, s := requestFar (addrMember a) (addrIn a) n s }
  | .error => { status := stIntegrity, s := doneWith a n r.2 }
  | .bytes bs =>
    let s := doneWith a n r.2
    let ws := bytesWords bs
    let isE := eOpcodes.contains ((ws.getD 0 0).toNat / 65536)
    if isE ∧ destOk (cmdDword c 5) 128 s = false then { status := stBadArgument, s := s }
    else
      let p := sendPost m ws isE s
      { s := openE 0x0703 c [p.1, destMark (cmdDword c 5) (if isE then 128 else 64) s] p.2 }

/-! The opcode tables (R101, R389). -/

def opsSys : List Opcode :=
  [⟨identifyRow, noFail, identifyAct⟩,
   ⟨getStateRow, noFail, getStateAct⟩,
   ⟨sysResetRow, sysResetFail, sysResetAct⟩,
   ⟨logReadRow, logReadFail, logReadAct⟩,
   ⟨unlockRow, unlockFail, unlockAct⟩,
   ⟨lifecycleRow, lifecycleFail, lifecycleAct⟩,
   ⟨eventMaskRow, noFail, eventMaskAct⟩,
   ⟨imgWriteRow, imgWriteFail, imgWriteAct⟩,
   ⟨imgInfoRow, imgInfoFail, imgInfoAct⟩,
   ⟨bundleApplyRow, bundleApplyFail, bundleApplyAct⟩,
   ⟨memMapRow, noFail, memMapAct⟩]
def opsTable : List Opcode :=
  [⟨chGeometryRow, chGeometryFail, chGeometryAct⟩,
   ⟨chSegmentRow, chSegmentFail, chSegmentAct⟩,
   ⟨tblLoadRow, tblLoadFail, tblLoadAct⟩,
   ⟨tblCommitRow, tblCommitFail, tblCommitAct⟩,
   ⟨tblReadRow, tblReadFail, tblReadAct⟩,
   ⟨jetStatusRow, jetStatusFail, jetStatusAct⟩]
def opsJob : List Opcode :=
  [⟨jobDefineRow, jobDefineFail, jobDefineAct⟩,
   ⟨jobPostRow, jobPostFail, jobPostAct⟩,
   ⟨runwayRow, runwayFail, runwayAct⟩,
   ⟨jobStartRow, jobStartFail, jobStartAct⟩,
   ⟨jobPauseRow, noOwnFail, jobPauseAct⟩,
   ⟨jobResumeRow, jobResumeFail, jobResumeAct⟩,
   ⟨jobAbortRow, jobAbortFail, jobAbortAct⟩,
   ⟨jobDisarmRow, noOwnFail, jobDisarmAct⟩,
   ⟨libStoreRow, libStoreFail, libStoreAct⟩,
   ⟨jobRestoreRow, jobRestoreFail, jobRestoreAct⟩]
def opsCadence : List Opcode :=
  [⟨cadConfigRow, cadConfigFail, cadConfigAct⟩,
   ⟨cadSpeedRow, cadSpeedFail, cadSpeedAct⟩,
   ⟨cadMarkRow, cadMarkFail, cadMarkAct⟩,
   ⟨cadStatusRow, noFail, cadStatusAct⟩]
def opsLink : List Opcode :=
  [⟨hpConfigRow, hpConfigFail, hpConfigAct⟩,
   ⟨hpRowgroupRow, hpRowgroupFail, hpRowgroupAct⟩,
   ⟨hpStrobeRow, hpStrobeFail, hpStrobeAct⟩,
   ⟨hpTemptableRow, hpTemptableFail, hpTemptableAct⟩,
   ⟨hpLinkRow, hpLinkFail, hpLinkAct⟩]
def opsHead : List Opcode :=
  [⟨jobArmRow, jobArmFail, jobArmAct⟩,
   ⟨ledgerConfigRow, ledgerConfigFail, ledgerConfigAct⟩,
   ⟨ledgerAdvanceRow, ledgerAdvanceFail, ledgerAdvanceAct⟩]
def opsChain : List Opcode :=
  [⟨chainDiscoverRow, chainDiscoverFail, chainDiscoverAct⟩,
   ⟨chainStatusRow, chainStatusFail, chainStatusAct⟩,
   ⟨chainCadenceRow, chainCadenceFail, chainCadenceAct⟩,
   ⟨chainEdgeRow, chainEdgeFail, chainEdgeAct⟩,
   ⟨chainForwardRow, chainForwardFail, chainForwardAct⟩]
def opsCal : List Opcode :=
  [⟨calSaveRow, calFail true, calSaveAct⟩,
   ⟨calRestoreRow, calFail true, calRestoreAct⟩,
   ⟨calRunRow, calRunFail, calRunAct⟩]
def opsMotion : List Opcode :=
  [⟨motConfigRow, motConfigFail, motConfigAct⟩,
   ⟨motMoveRow, motMoveFail, motMoveAct⟩,
   ⟨motHomeRow, motHomeFail, motHomeAct⟩,
   ⟨motStopRow, motStopFail, motStopAct⟩,
   ⟨motStatusRow, motStatusFail, motStatusAct⟩]
def opsError : List Opcode :=
  [⟨bistRunRow, bistRunFail, bistRunAct⟩,
   ⟨errReadRow, errReadFail, errReadAct⟩,
   ⟨errInjectRow, errInjectFail, errInjectAct⟩,
   ⟨errRouteRow, errRouteFail, errRouteAct⟩]
def opsDram : List Opcode :=
  [⟨scrubPeriodRow, scrubPeriodFail, scrubPeriodAct⟩,
   ⟨eccErasureRow, eccErasureFail, eccErasureAct⟩,
   ⟨poisonListRow, poisonListFail, poisonListAct⟩]
def opsDma : List Opcode :=
  [⟨dmaRunRow, dmaRunFail, dmaRunAct⟩]
def opsCounter : List Opcode :=
  [⟨pmcSelectRow, pmcSelectFail, pmcSelectAct⟩,
   ⟨pmcSnapshotRow, noFail, pmcSnapshotAct⟩,
   ⟨traceSetRow, traceSetFail, traceSetAct⟩,
   ⟨traceReadRow, traceReadFail, traceReadAct⟩]
def opsLane : List Opcode :=
  [⟨laneTestRow, laneTestFail, laneTestAct⟩]

/-- The opcodes of R101. -/
def opTable : List Opcode :=
  opsSys ++ opsTable ++ opsJob ++ opsCadence ++ opsLink ++ opsHead ++ opsChain
    ++ opsCal ++ opsMotion ++ opsError ++ opsDram ++ opsDma ++ opsCounter ++ opsLane

/-- Ridge commands (R389). -/
def ridgeTable : List (Nat × (Cmd → State → State)) :=
  [(0x1001, rdgIdentifyRun), (0x1002, rdgStatusRun), (0x1003, rdgLimitsRun), (0x1004, rdgSafeEnterRun), (0x1005, rdgSafeReleaseRun),
   (0x1006, rdgPortClearRun), (0x1007, rdgMaintRun)]

/-- A firmware command of an opcode; an unknown opcode is UNSUPPORTED, in HELD one not served is HELD (R64, R65, R466). -/
def runFirmware (op : Nat) (c : Cmd) (s : State) : State :=
  match opTable.find? fun e => decide (e.row.op = op) with
  | some e => runCommand e.row e.own e.act c s
  | none => respond op c (if s.dev = .held then stHeld else 2) 0 [] s

/-- A ridge command of an opcode. -/
def runRidge (op : Nat) (c : Cmd) (s : State) : State :=
  match ridgeTable.lookup op with
  | some f => f c s
  | none => respond op c 2 0 [] s

/-! Taking commands (R91, R93). -/

/-- The command that message words spell: words 1 to LEN - 2 are its arguments. -/
def cmdOf (q : Queue) (member : Nat) (ws : List Word) : Cmd :=
  { q := q, member := member, seq := BitVec.ofNat 8 ((ws.getD 0 0).toNat / 256), flags := BitVec.ofNat 8 (ws.getD 0 0).toNat,
    args := (ws.drop 1).dropLast }

/-- A message whose check fails: word 0 as received and status INTEGRITY (R91). -/
def refuseMessage (q : Queue) (w0 : Word) (s : State) : State :=
  pumpReplies (replyChannel q)
    { s with fw := { s.fw with respQ := s.fw.respQ ++ [(q, [w0, BitVec.ofNat 32 (s.dev.code * 256 + stIntegrity)])] } }

/-- The message of a queue's channel is taken, checked and executed. -/
def takeCommand (q : Queue) (s : State) : State :=
  let n := queueChannel q
  let ws := (s.msgWords n).take (s.get R.pnrTake_LEN n)
  let c := cmdOf q (if q = .q8 then s.fab.proxyMember else 0) ws
  let op := (ws.getD 0 0).toNat / 65536
  let s := takeMessage n s
  if messageCheck ws.dropLast ≠ ws.getLastD 0 then refuseMessage q (ws.getD 0 0) s
  else if q = .ridge then runRidge op c s
  else reads [11] (runFirmware op c s)

/-- A command that waits for data of another member goes on: judged again by its own conditions, and executed as far as the data
has come. -/
def resume (s : State) : State :=
  match s.fw.deferred with
  | none => s
  | some (op, c) =>
    if s.raws ≠ [] then s
    else match opTable.find? fun e => decide (e.row.op = op) with
    | none => s
    | some e =>
      let s := s.setFw { s.fw with deferred := none }
      if e.row.needsJob ∧ s.job = none then respond op c stWrongState 0 [] s
      else match e.own c s with
      | some (st, det) => respond op c st det [] s
      | none => answer op c (e.act c s)

/-- The queues in the order of their rotation (R93). -/
def rotationQueue (i : Nat) : Queue := if i % 3 = 0 then .q0 else if i % 3 = 1 then .q3 else .q8

/-- The queue served next: the first from the rotation on that holds a message and may be served. -/
def nextQueue (s : State) : Option Nat :=
  [s.fw.rotation, s.fw.rotation + 1, s.fw.rotation + 2].find? fun i =>
    s.flag R.pnrStatus_FULL (queueChannel (rotationQueue i)) && takes (rotationQueue i) s

/-- Commands taken one at a time in rotation, at most `fuel` of them. -/
def serveFirmware : Nat → State → State
  | 0, s => s
  | fuel + 1, s =>
    match nextQueue s with
    | none => s
    | some i =>
      serveFirmware fuel (proxyServe (takeCommand (rotationQueue i) (s.setFw { s.fw with rotation := (i + 1) % 3 })))

/-- The ridge serves channel 4 (R389). -/
def serveRidge (s : State) : State :=
  if s.flag R.pnrStatus_FULL 4 && takes .ridge s then takeCommand .ridge s else s

/-- What waits and may be taken is taken, a message on channel 9 by the proxy (R83): three channels hold a message each, and the proxy eight more for channel 8. -/
def serve (s : State) : State := if s.asserted then s else serveFirmware 12 (serveRidge (resume (proxyServe s)))

/-! Posts and takes (R78, R80, R93). -/

/-- The post of a message by its sender; what it addresses is served. -/
def execPnrPost (t : Nat) (m : Master) (n : PnrCh) (len : BitVec 5) (s : State) : Result :=
  liveWrite m t s fun s => serve (goWrite m n len.toNat s)

/-- After a take the channel's next message is posted; the take of the response to `SYS_RESET` starts the reset; the millisecond of
R52 counts from the response's posting. -/
def afterTake (n : Nat) (s : State) : State :=
  let w0 := (s.reg ⟨.pnrMsg, n, 0⟩).toNat
  let waited := resetUnanswered s
  let due := decide (n = 1 ∧ w0 / 65536 = 0x0103) && s.fw.resetPending.isSome && !waited
  let s := if n = 2 then pumpChannel2 s else pumpReplies n s
  let s := if waited ∧ resetUnanswered s = false then
      s.setFw { s.fw with resetPending := s.fw.resetPending.map fun e => (e.1, s.now) } else s
  if due then startSysReset s else serve s

/-- A read of `TAKE` by a master, with what it answers. -/
def takeBy (m : Master) (n : Nat) (s : State) : State :=
  let took := s.isReceiver m n && s.flag R.pnrStatus_FULL n
  let r := takeRead m n s
  let s := r.2.emit (.readData r.1)
  if took then afterTake n s else s

def execPnrTake (t : Nat) (m : Master) (n : PnrCh) (s : State) : Result := liveRead m t s (takeBy m n)

/-! Register accesses by offset. -/

/-- A host request to BAR0 or BAR4 must be 1 or 2 DW long and naturally aligned (R278). -/
def hostForm (off len : Nat) : Bool := decide ((len = 4 ∨ len = 8) ∧ off % len = 0)

/-- A write of 4 or 8 bytes at an offset of the BAR0 space: a 64-bit access acts as two 32-bit ones in ascending order, and a narrower one has no
effect (R72; beside the `PNR` block: log entry 52). -/
def writeWide (m : Master) (off len : Nat) (v : DWord) (s : State) : State :=
  if len = 4 then writeReg m off (BitVec.ofNat 32 v.toNat) s
  else if len = 8 then writeReg m (off + 4) (BitVec.ofNat 32 (v.toNat / 2 ^ 32)) (writeReg m off (BitVec.ofNat 32 v.toNat) s)
  else s

/-- A word written into the MSI-X table; a vector that is unmasked while pending is sent (R277; log entry 74). -/
def msixWrite (i : Nat) (v : Word) (s : State) : State :=
  if 256 ≤ i then s
  else
    let s := { s with pcie := { s.pcie with table := nset (if i % 4 = 3 then 1 else 0) s.pcie.table i v } }
    if s.pcie.pending.contains (i / 4) && !s.msixMasked (i / 4) then
      sendMsix (i / 4) { s with pcie := { s.pcie with pending := s.pcie.pending.filter (· ≠ i / 4) } }
    else s

/-- A word of BAR4: the MSI-X table from 0x0000, the pending bits from 0x8000 (R277). -/
def bar4Word (off : Nat) (s : State) : Word :=
  if off < 0x400 then s.msixWord (off / 4)
  else if off = 0x8000 ∨ off = 0x8004 then BitVec.ofNat 32 ((s.pcie.pending.filter fun v => decide (v / 32 = (off - 0x8000) / 4)).map fun v => 2 ^ (v % 32)).sum
  else 0

/-- A write by its register's access code (R4 to R7). A write may post a command. -/
def execRegisterWrite (t : Nat) (m : Master) (a : RegAccess) (v : DWord) (s : State) : Result :=
  live t s fun s =>
    let s := if m = .host then s.tally 0x0601 0 a.len else s
    if m = .host ∧ hostForm a.off a.len = false then logUnsupported a.off a.len s
    else match a.bar with
    | .bar0 => serve (writeWide m a.off a.len v s)
    | .bar4 =>
      if m ≠ .host then s
      else
        let s := msixWrite (a.off / 4) (BitVec.ofNat 32 v.toNat) s
        if a.len = 8 then msixWrite (a.off / 4 + 1) (BitVec.ofNat 32 (v.toNat / 2 ^ 32)) s else s

/-- The channel whose `TAKE` lies at an offset. -/
def takeAt (off : Nat) : Option Nat :=
  match regAt off with
  | some r => if r.k = .pnrTake then some r.i else none
  | none => none

/-- A lane's checker shows what it has counted up to a read of its registers (R271). -/
def settleRead (off : Nat) (s : State) : State :=
  match regAt off with
  | some r => if r.k = .lnsStat ∨ r.k = .lnsPrbserr then settleChecker r.i s else s
  | none => s

/-- A 32-bit read at an offset, with what it answers. -/
def readWord (m : Master) (off : Nat) (s : State) : State :=
  match takeAt off with
  | some n => takeBy m n s
  | none =>
    let r := readReg m off (settleRead off s)
    r.2.emit (.readData r.1)

/-- A read of any width at an offset of the BAR0 space: up to 32 bits the whole register, 64 bits two reads in ascending order (R72). -/
def readWide (m : Master) (off len : Nat) (s : State) : State :=
  if len = 8 then readWord m (off + 4) (readWord m off s) else readWord m (off / 4 * 4) s

/-- A read: a host read that R278 does not allow ends with Unsupported Request. -/
def execRegisterReadClear (t : Nat) (m : Master) (a : RegAccess) (s : State) : Result :=
  live t s fun s =>
    let s := if m = .host then s.tally 0x0602 0 a.len else s
    if m = .host ∧ hostForm a.off a.len = false then s.emit .unsupported
    else match a.bar with
    | .bar0 => readWide m a.off a.len s
    | .bar4 =>
      if m ≠ .host then s
      else
        let s := s.emit (.readData (bar4Word a.off s))
        if a.len = 8 then s.emit (.readData (bar4Word (a.off + 4) s)) else s

/-! Rows whose effect lets waiting commands be served. -/

/-- Images are checked (R60 to R65); in HELD the recovery responder then serves channel 0. -/
def execBootImageCheck (t : Nat) (flashResponds : Bool) (s : State) : Result :=
  live t s fun s => serve (bootImageCheck flashResponds s)

/-- A block of a raw post is formed; the end of the post answers its command. -/
def execCompressorBlock (t : Nat) (s : State) : Result := liveReading [9] t s fun s => serve (compressorStep s)

/-! BUNDLE_APPLY (R101; log entry 8). -/

/-- A write of the control firmware to a claim register conflicts (R39, R40). -/
def claimBad (off : Nat) (v : Word) (s : State) : Bool :=
  let bad (reg1 : Bool) : Bool := (List.range (claimFields reg1)).any fun i => claimConflicts .control reg1 i (fieldOf v (4 * i) 4) s
  (decide (off = 0x40) && bad false) || (decide (off = 0x44) && bad true)

/-- Register writes of a bundle item: pairs of BAR0 offset and value, up to a claim that conflicts. -/
def bundleWrites : List Word → State → Option Nat × State
  | off :: v :: r, s =>
    let s' := writeReg .control off.toNat v s
    if claimBad off.toNat v s then (some stConflict, s') else bundleWrites r s'
  | _, s => (none, s)

/-- One item: register writes by the control firmware, or an R command judged as from the host; its status where it fails, a claim that conflicts
among the reasons (R40). -/
def bundleItem (o : OpenCmd) (e : Nat × List Word) (s : State) : Option Nat × State :=
  if e.1 = 0 then bundleWrites e.2 s
  else if eOpcodes.contains e.1 then (some stBadArgument, s)
  else match opTable.find? fun x => decide (x.row.op = e.1) with
  | none => (some 2, s)
  | some x =>
    let c : Cmd := { q := o.cmd.q, member := o.cmd.member, seq := o.cmd.seq, args := e.2 }
    match judge x.row x.own c s with
    | some f => (some f.1, s)
    | none =>
      let r := x.act c s
      if r.wait then (some stBadArgument, s) else if r.status = 0 then (none, r.s) else (some r.status, r.s)

/-- Items in order up to the first that fails. -/
def bundleApply (o : OpenCmd) : List (Nat × List Word) → State → Option Nat × State
  | [], s => (none, s)
  | e :: r, s =>
    match bundleItem o e s with
    | (none, s) => bundleApply o r s
    | (some st, s) => (some st, s)

/-- The bundle has been read: all of it takes effect, or nothing (R97) but the record of a refused claim (R40). -/
def execBundleApplyDone (t : Nat) (q : Queue) (s : State) : Result :=
  completion t 0x0203 q s fun o s =>
    match Config.bundleItems s.flash (cmdNat o.cmd 1) with
    | none => finish o stIntegrity 0 [] s
    | some items =>
      match bundleApply o items s with
      | (none, s') => finish o stOk 0 [items.length] s'
      | (some st, s') => finish o st 0 [] (s.setReg ⟨.glbClaimerr, 0, 0⟩ (s'.reg ⟨.glbClaimerr, 0, 0⟩))

/-! Boot step 10 (R77, R98, R106, R108, R312, R325). -/

/-- The row of R311 that both DIMMs match. -/
def dramGeom (spd0 spd1 : Option Spd) : Option Nat :=
  match spd0, spd1 with
  | some a, some b => if a.geom = b.geom ∧ 1 ≤ a.geom ∧ a.geom ≤ 3 then some a.geom else none
  | _, _ => none

/-- The highest speed that both DIMMs support and that does not exceed the cap (R312). -/
def dramSpeed (spd0 spd1 : Option Spd) (cap : Nat) : Option Nat :=
  match spd0, spd1 with
  | some a, some b => [3, 2, 1].find? fun v => decide (v ≤ cap ∧ v ∈ a.speeds ∧ v ∈ b.speeds)
  | _, _ => none

/-- Geometry and speed at which the controller runs (R312). -/
def dramPlan (spd0 spd1 : Option Spd) (s : State) : Option (Nat × Nat) :=
  match dramGeom spd0 spd1, dramSpeed spd0 spd1 (s.get R.dmcCfg_MAXSPEED) with
  | some g, some v => some (g, v)
  | _, _ => none

/-- The capacity that both SPDs report, also where no training follows (R311). -/
def noteCapacity (geom : Option Nat) (s : State) : State :=
  match geom with
  | some g => { s with capacity := if g = 1 then 0x1000000000 else 0x2000000000 }
  | none => s

/-- Training has measured the DQS delay of each subchannel, a free value; refresh debt, refresh windows and the time to the next
re-measurement run from it (R321, R322, R326). -/
def startTimers (s : State) : State :=
  let ranks := if s.get R.dmcCfg_GEOM = 2 then 2 else 1
  let s := forEach (List.range 4) s fun k s =>
    s.drawn.setDram { s.dram with delay := nset 0 s.dram.delay k (Config.freeNat s.freeCount), dqsAt := nset 0 s.dram.dqsAt k s.now }
  s.setDram { s.dram with
    windowAt := [(0, s.now), (1, s.now)], levelAt := s.now,
    debt := (List.range 32).filterMap fun k => if k / 4 % 2 < ranks then some (k, (0, s.now)) else none }

/-- DRAM is trained; the firmware data region begins with the region map (R113, R314). -/
def startDram (geom speed : Nat) (s : State) : State :=
  let s := ((s.put R.dmcCfg_GEOM geom).put R.dmcCfg_SPEED speed).put R.dmcCfg_TRAINED 1
  let s := startTimers s
  dramWrite 7 0 s.regionMap s

/-- The unlock token that flash holds, if it verifies (R60, R108). -/
def storedScope (s : State) : Option (BitVec 20) :=
  let n := fieldAt (s.flashBytes 0x282000 4) 0 4
  let bs := s.flashBytes 0x282008 n
  if n = 0 ∨ 4088 < n ∨ (crc32c bs).toNat ≠ fieldAt (s.flashBytes 0x282004 4) 0 4 then none else tokenScope bs s

/-- Host access, the debug channels 10 and 11, and the lock of the binding table (R77, R106, R108). -/
def openAccess (s : State) : State :=
  let free := decide (s.otp.lc = .test ∨ s.otp.lc = .rma)
  let s := s.put R.glbHostacc_WEN (if free then 0xFFFFF else 0)
  let scope := storedScope s
  let s := match scope with | some w => unlockWith w s | none => s
  let s := if free ∨ scope.isSome then bindWrite .control 11 (BitVec.ofNat 32 (2 + 5 * 16)) (bindWrite .control 10 (BitVec.ofNat 32 (5 + 2 * 16)) s) else s
  s.put R.pnrBindlock_LOCK 1

/-- A limit record held in a bundle is passed on to the ridge (R380). -/
def passLimits (s : State) : State :=
  match Config.bundleLimits s.flash with
  | some r => if s.flag R.rdgLock_LOCK = true ∨ limitFail r s ≠ none then s else applyLimits r s
  | none => s

/-- The first kick of the heartbeat, which lets the ridge clear cause BOOT and, with no other cause, end the safe state; READY is
reached, and SAFE from it while another cause stands (R98, R383, R388). -/
def startReady (s : State) : State :=
  let s := if s.flag R.rdgHbstat_ARMED then s else kickAccepted s
  let s := setDev .ready 6 ((clearCauses 1 (s.setBoot { s.boot with served := true })).put R.glbBootstat_PHASE 9)
  if s.get R.rdgCause_CAUSE = 0 then releaseSafe s else setDev .safe 2 (interruptJob s)

/-- The table scans begin (R353). -/
def startScans (s : State) : State := { s with scans := (List.range 16).map fun k => (k, (s.now, false)) }

/-- The firmware takes over the fabric ports (R308). -/
def endKickstand (s : State) : State := joinDue (s.setBoot { s.boot with kickstand := false, kickFrom := 0 })

/-- Boot step 10. A failure of R312 raises `DRAM_INIT_FAIL` and leads to FAULT. -/
def bootComplete (spd0 spd1 : Option Spd) (trained : Bool) (s : State) : State :=
  if s.dev ≠ .boot ∨ s.fw.running = false ∨ s.get R.glbBootstat_PHASE ≠ 8 then s
  else
    let m := meets 32 0 (decide (dramPlan spd0 spd1 s = none) || !trained) s
    let s := noteCapacity (dramGeom spd0 spd1) m.2.2
    match m.1, dramPlan spd0 spd1 s with
    | false, some (g, v) => serve (endKickstand (startReady (startScans (passLimits (openAccess (startDram g v s))))))
    | _, _ => serve (endKickstand (fatal 32 0 none 0 m.2.1 (startScans (openAccess s))))

def execBootComplete (t : Nat) (spd0 spd1 : Option Spd) (trained : Bool) (s : State) : Result :=
  live t s (bootComplete spd0 spd1 trained)

/-- The command of the firmware that forwards an inner message (R103). -/
def execChainForward (t : Nat) (c : Cmd) (s : State) : Result :=
  command t c s (runCommand chainForwardRow chainForwardFail chainForwardAct)

end Sys2Proof.Machine
end

