-- ==== Sys2Proof/Machine/ProxyRows.lean ====
section
/-!
DEFINITION. Reads over TC1 (R289), the operations of PROXY packets (R290), and the end of a forwarded command (R103).
-/
namespace Sys2Proof.Machine

/-! TC1 reads (R289). -/

/-- A READ_DATA packet to the member that asked. -/
def sendReadData (p : Pkt) (status off : Nat) (bs : List Byte) (s : State) : State :=
  sendTo 0x11 1 p.src.toNat p.tag.toNat ([BitVec.ofNat 8 status, 0, 0, 0] ++ leBytes 4 off ++ bs) s

/-- At most 256 bytes of the range, read as ingest DMA reads; a burst that cannot be given is a BUS_ERROR for the packet's range. -/
def answerPiece (p : Pkt) (a : Nat) (e : Nat × Nat) (s : State) : State :=
  let r := dramRead 4 (a + e.1) e.2 s
  match r.1 with
  | some bs => sendReadData p 0 e.1 bs r.2
  | none => sendReadData p 1 e.1 [] r.2

/-- Offsets and lengths of the packets of a range. -/
def answerPieces (n : Nat) : List (Nat × Nat) := (List.range ((n + 255) / 256)).map fun i => (256 * i, min 256 (n - 256 * i))

/-- The owner serves the request in address order; a range that it does not have is one BUS_ERROR. -/
def serveRead (p : Pkt) (s : State) : State :=
  let a := fieldAt p.payload 0 8
  let n := fieldAt p.payload 8 4
  if n = 0 ∨ 4096 < n ∨ s.capacity < a + n ∨ s.trained = false then sendReadData p 1 0 [] s
  else forEach (answerPieces n) s (answerPiece p a)

def execReadReq (t : Nat) (q : FabPort) (p : Pkt) (s : State) : Result :=
  packetRow t q s p (receive q p (fun p => decide (p.ty = 0x10)) (serveRead p))

/-- What a read holds after a packet: new bytes, or that it ends as a bus error. -/
def FarRead.add (r : FarRead) (p : Pkt) : FarRead :=
  let off := fieldAt p.payload 4 4
  if fieldAt p.payload 0 1 ≠ 0 then { r with bad := true }
  else
    let bs := ((p.payload.drop 8).take (min 256 (r.len - off))).zipIdx.map fun e => (off + e.2, e.1)
    { r with got := r.got ++ bs.filter fun e => (r.got.lookup e.1).isNone }

/-- All bytes of the read have come. -/
def FarRead.full (r : FarRead) : Bool := !r.bad && (List.range r.len).all fun i => (r.got.lookup i).isSome

/-- A packet of a read in flight: its bytes wait for the requester once all have come (R289). -/
def readData (p : Pkt) (s : State) : State :=
  match s.fab.reads.find? fun r => decide (r.tag = p.tag.toNat ∧ r.member = p.src.toNat) with
  | none => s
  | some r =>
    let r' := r.add p
    let rest := s.fab.reads.filter fun x => decide (x.tag ≠ r.tag)
    let s := if r'.full then
        s.setFab { s.fab with reads := rest, far := s.fab.far ++ r'.got.map fun e => ((r.member, r.addr + e.1), e.2) }
      else s.setFab { s.fab with reads := rest ++ [r'] }
    if r'.bad then serve (failFar r.tag s) else if r'.full then serve s else s

def execReadData (t : Nat) (q : FabPort) (p : Pkt) (s : State) : Result :=
  packetRow t q s p (receive q p (fun p => decide (p.ty = 0x11)) (readData p))

/-- A read not complete within 2 ms ends as a bus error to its requester (R289). -/
def execTc1Timeout (t tag : Nat) (s : State) : Result :=
  live t s fun s =>
    match s.fab.reads.find? fun r => decide (r.tag = tag) && !r.bad with
    | none => s
    | some r =>
      if s.now < r.t0 + 2000000000 then s
      else serve (failFar tag s)

/-! PROXY packets (R290). -/

/-- A PROXY packet with the operation. -/
def isProxy (op : Nat) (p : Pkt) : Bool := decide (p.ty = 0x20) && decide (proxyOp p = op)

/-- A POST from a member: onto channel 8, held, answered again, dropped or answered BUSY; what waits is served. -/
def execProxyPost (t : Nat) (q : FabPort) (p : Pkt) (s : State) : Result :=
  packetRow t q s p (receive q p (isProxy 1) fun s => serve (proxyServe (acceptPost p.src.toNat p.tag.toNat (proxyWords p) s)))

/-- The open `CHAIN_FORWARD` of an operation. -/
def forwardOf (tag : Nat) (s : State) : Option OpenCmd := s.fw.opens.find? fun o => decide (o.op = 0x0703 ∧ o.data.headD 0 = tag)

/-- Words of an answer are written at the response address plus an offset (R103). -/
def storeAnswer (tag off : Nat) (ws : List Word) (s : State) : State :=
  match forwardOf tag s with
  | some o => deliver 4 (cmdDword o.cmd 5 + off) (messageBytes ws) s
  | none => s

/-- The operation of this member that a packet answers. -/
def answered (op : Nat) (p : Pkt) (s : State) : Option ProxyOp :=
  s.fab.ops.find? fun o => decide (o.tag = p.tag.toNat ∧ o.dest = p.src.toNat ∧ o.op = op)

/-- The inner response arrives. -/
def proxyResponse (p : Pkt) (s : State) : State :=
  match answered 1 p s with
  | some o =>
    if o.resp ≠ [] then s
    else storeAnswer o.tag 0 (proxyWords p) (setOp o.tag (some { o with resp := proxyWords p, sentAt := s.now }) s)
  | none => s

def execProxyResponse (t : Nat) (q : FabPort) (p : Pkt) (s : State) : Result :=
  packetRow t q s p (receive q p (isProxy 2) (proxyResponse p))

/-- The inner `COMMAND_DONE` arrives (R103). -/
def proxyDone (p : Pkt) (s : State) : State :=
  match answered 1 p s with
  | some o =>
    if o.done ≠ [] ∨ o.isE = false then s
    else storeAnswer o.tag 64 (proxyWords p) (setOp o.tag (some { o with done := proxyWords p }) s)
  | none => s

def execProxyDone (t : Nat) (q : FabPort) (p : Pkt) (s : State) : Result :=
  packetRow t q s p (receive q p (isProxy 6) (proxyDone p))

/-- A lock of channels 12 to 15 read or released as master 4 for the member; the answer holds the value read, or 0. -/
def proxyLock (release : Bool) (p : Pkt) (s : State) : State :=
  let n := proxyCh p
  if n < 12 ∨ 15 < n then s
  else
    let r : Word × State := if release then (0, lockWrite .proxy n 4 s) else lockRead .proxy p.src.toNat n s
    sendProxy 5 n [r.1] p.src.toNat p.tag.toNat r.2

def execProxyLockRead (t : Nat) (q : FabPort) (p : Pkt) (s : State) : Result :=
  packetRow t q s p (receive q p (isProxy 3) (proxyLock false p))

def execProxyLockRelease (t : Nat) (q : FabPort) (p : Pkt) (s : State) : Result :=
  packetRow t q s p (receive q p (isProxy 4) (proxyLock true p))

/-- A lock operation of this member is answered. -/
def proxyLockResult (p : Pkt) (s : State) : State :=
  match s.fab.ops.find? fun o => decide (o.tag = p.tag.toNat ∧ o.dest = p.src.toNat ∧ (o.op = 3 ∨ o.op = 4)) with
  | some o => setOp o.tag none s
  | none => s

def execProxyLockResult (t : Nat) (q : FabPort) (p : Pkt) (s : State) : Result :=
  packetRow t q s p (receive q p (isProxy 5) (proxyLockResult p))

/-- An operation is due again: unanswered 1 ms after it was sent, at most three times; an accepted E command without its DONE every
1 s. -/
def retryDue (o : ProxyOp) (s : State) : Bool :=
  if o.resp = [] then decide (o.tries < 3 ∧ o.sentAt + 1000000000 ≤ s.now)
  else o.isE && decide ((o.resp.getD 1 0).toNat % 256 = 0 ∧ o.done = [] ∧ o.sentAt + 1000000000000 ≤ s.now)

def execProxyRetry (t tag : Nat) (s : State) : Result :=
  live t s fun s =>
    match s.proxyOpOf tag with
    | none => s
    | some o =>
      if retryDue o s = false then s
      else sendProxy o.op o.ch o.words o.dest o.tag (setOp tag (some { o with tries := o.tries + 1, sentAt := s.now }) s)

/-! The end of CHAIN_FORWARD (R103, R290). -/

/-- How a forward ends: with a refused inner command's status; with the status of the inner R command or of the inner
`COMMAND_DONE`; with TIMEOUT 100 ms after it was taken without a response, or when the member is LOST. `none` while it waits. -/
def forwardEnd (o : OpenCmd) (s : State) : Option (Nat × List Nat) :=
  match s.proxyOpOf (o.data.headD 0) with
  | none => some (stTimeout, [])
  | some x =>
    let st := (x.resp.getD 1 0).toNat % 256
    if x.resp = [] then (if x.t0 + 100000000000 ≤ s.now then some (stTimeout, []) else none)
    else if st ≠ 0 then some (st, [st])
    else if x.isE = false then some (stOk, [stOk])
    else if x.done = [] then none
    else some (stOk, [(x.done.getD 4 0).toNat % 256])

def execChainForwardDone (t : Nat) (q : Queue) (s : State) : Result :=
  completion t 0x0703 q s fun o s =>
    match forwardEnd o s with
    | none => s
    | some e => finish o e.1 0 e.2 (setOp (o.data.headD 0) none s)

end Sys2Proof.Machine
end

