-- ==== Sys2Proof/Machine/Dispatch.lean ====
section
/-! DEFINITION. The meaning of every command: one arm per constructor of `Instr`, each one direct call. -/
namespace Sys2Proof.Machine

def exec (i : Instr) (s : State) : Host.Outcome State Fault Refusal :=
  match i with
  | .identify t c => Sys2Proof.Machine.execIdentify t c s
  | .getState t c => Sys2Proof.Machine.execGetState t c s
  | .sysReset t c => Sys2Proof.Machine.execSysReset t c s
  | .logRead t c => Sys2Proof.Machine.execLogRead t c s
  | .unlock t c => Sys2Proof.Machine.execUnlock t c s
  | .lifecycle t c => Sys2Proof.Machine.execLifecycle t c s
  | .eventMask t c => Sys2Proof.Machine.execEventMask t c s
  | .imgWrite t c => Sys2Proof.Machine.execImgWrite t c s
  | .imgWriteDone t q => Sys2Proof.Machine.execImgWriteDone t q s
  | .imgInfo t c => Sys2Proof.Machine.execImgInfo t c s
  | .bundleApply t c => Sys2Proof.Machine.execBundleApply t c s
  | .bundleApplyDone t q => Sys2Proof.Machine.execBundleApplyDone t q s
  | .chGeometry t c => Sys2Proof.Machine.execChGeometry t c s
  | .chSegment t c => Sys2Proof.Machine.execChSegment t c s
  | .tblLoad t c => Sys2Proof.Machine.execTblLoad t c s
  | .tblLoadDone t q => Sys2Proof.Machine.execTblLoadDone t q s
  | .tblCommit t c => Sys2Proof.Machine.execTblCommit t c s
  | .tblCommitEffect t ch => Sys2Proof.Machine.execTblCommitEffect t ch s
  | .copyForwardDone t ch => Sys2Proof.Machine.execCopyForwardDone t ch s
  | .tblRead t c => Sys2Proof.Machine.execTblRead t c s
  | .tblReadDone t q => Sys2Proof.Machine.execTblReadDone t q s
  | .jetStatus t c => Sys2Proof.Machine.execJetStatus t c s
  | .jobDefine t c => Sys2Proof.Machine.execJobDefine t c s
  | .jobPost t c => Sys2Proof.Machine.execJobPost t c s
  | .jobArm t c => Sys2Proof.Machine.execJobArm t c s
  | .jobArmDone t q => Sys2Proof.Machine.execJobArmDone t q s
  | .jobStart t c => Sys2Proof.Machine.execJobStart t c s
  | .jobPause t c => Sys2Proof.Machine.execJobPause t c s
  | .jobResume t c => Sys2Proof.Machine.execJobResume t c s
  | .jobAbort t c => Sys2Proof.Machine.execJobAbort t c s
  | .jobDisarm t c => Sys2Proof.Machine.execJobDisarm t c s
  | .runway t c => Sys2Proof.Machine.execRunway t c s
  | .libStore t c => Sys2Proof.Machine.execLibStore t c s
  | .libStoreDone t q => Sys2Proof.Machine.execLibStoreDone t q s
  | .jobRestore t c => Sys2Proof.Machine.execJobRestore t c s
  | .jobRestoreDone t q => Sys2Proof.Machine.execJobRestoreDone t q s
  | .cadConfig t c => Sys2Proof.Machine.execCadConfig t c s
  | .cadSpeed t c => Sys2Proof.Machine.execCadSpeed t c s
  | .cadMark t c => Sys2Proof.Machine.execCadMark t c s
  | .cadStatus t c => Sys2Proof.Machine.execCadStatus t c s
  | .hpConfig t c => Sys2Proof.Machine.execHpConfig t c s
  | .hpRowgroup t c => Sys2Proof.Machine.execHpRowgroup t c s
  | .hpStrobe t c => Sys2Proof.Machine.execHpStrobe t c s
  | .hpTemptable t c => Sys2Proof.Machine.execHpTemptable t c s
  | .hpTemptableDone t q => Sys2Proof.Machine.execHpTemptableDone t q s
  | .hpLink t c => Sys2Proof.Machine.execHpLink t c s
  | .hpLinkDone t q => Sys2Proof.Machine.execHpLinkDone t q s
  | .ledgerConfig t c => Sys2Proof.Machine.execLedgerConfig t c s
  | .ledgerAdvance t c => Sys2Proof.Machine.execLedgerAdvance t c s
  | .chainDiscover t c => Sys2Proof.Machine.execChainDiscover t c s
  | .chainDiscoverDone t q => Sys2Proof.Machine.execChainDiscoverDone t q s
  | .chainStatus t c => Sys2Proof.Machine.execChainStatus t c s
  | .chainForward t c => Sys2Proof.Machine.execChainForward t c s
  | .chainForwardDone t q => Sys2Proof.Machine.execChainForwardDone t q s
  | .chainCadence t c => Sys2Proof.Machine.execChainCadence t c s
  | .chainEdge t c => Sys2Proof.Machine.execChainEdge t c s
  | .calSave t c => Sys2Proof.Machine.execCalSave t c s
  | .calSaveDone t q => Sys2Proof.Machine.execCalSaveDone t q s
  | .calRestore t c => Sys2Proof.Machine.execCalRestore t c s
  | .calRestoreDone t q => Sys2Proof.Machine.execCalRestoreDone t q s
  | .calRun t c => Sys2Proof.Machine.execCalRun t c s
  | .calRunDone t q gains offsets taps => Sys2Proof.Machine.execCalRunDone t q gains offsets taps s
  | .motConfig t c => Sys2Proof.Machine.execMotConfig t c s
  | .motMove t c => Sys2Proof.Machine.execMotMove t c s
  | .motMoveDone t q => Sys2Proof.Machine.execMotMoveDone t q s
  | .motHome t c => Sys2Proof.Machine.execMotHome t c s
  | .motStop t c => Sys2Proof.Machine.execMotStop t c s
  | .motStatus t c => Sys2Proof.Machine.execMotStatus t c s
  | .bistRun t c => Sys2Proof.Machine.execBistRun t c s
  | .bistRunDone t q => Sys2Proof.Machine.execBistRunDone t q s
  | .errRead t c => Sys2Proof.Machine.execErrRead t c s
  | .errInject t c => Sys2Proof.Machine.execErrInject t c s
  | .errRoute t c => Sys2Proof.Machine.execErrRoute t c s
  | .laneTest t c => Sys2Proof.Machine.execLaneTest t c s
  | .laneTestDone t q present errors => Sys2Proof.Machine.execLaneTestDone t q present errors s
  | .memMap t c => Sys2Proof.Machine.execMemMap t c s
  | .dmaRun t c => Sys2Proof.Machine.execDmaRun t c s
  | .dmaRunDone t q => Sys2Proof.Machine.execDmaRunDone t q s
  | .eccErasure t c => Sys2Proof.Machine.execEccErasure t c s
  | .poisonList t c => Sys2Proof.Machine.execPoisonList t c s
  | .scrubPeriod t c => Sys2Proof.Machine.execScrubPeriod t c s
  | .pmcSelect t c => Sys2Proof.Machine.execPmcSelect t c s
  | .pmcSnapshot t c => Sys2Proof.Machine.execPmcSnapshot t c s
  | .traceSet t c => Sys2Proof.Machine.execTraceSet t c s
  | .traceRead t c => Sys2Proof.Machine.execTraceRead t c s
  | .rdgIdentify t c => Sys2Proof.Machine.execRdgIdentify t c s
  | .rdgStatus t c => Sys2Proof.Machine.execRdgStatus t c s
  | .rdgLimits t c => Sys2Proof.Machine.execRdgLimits t c s
  | .rdgSafeEnter t c => Sys2Proof.Machine.execRdgSafeEnter t c s
  | .rdgSafeRelease t c => Sys2Proof.Machine.execRdgSafeRelease t c s
  | .rdgPortClear t c => Sys2Proof.Machine.execRdgPortClear t c s
  | .rdgMaint t c => Sys2Proof.Machine.execRdgMaint t c s
  | .pnrMsgWrite t m n k v => Sys2Proof.Machine.execPnrMsgWrite t m n k v s
  | .pnrPost t m n len => Sys2Proof.Machine.execPnrPost t m n len s
  | .pnrCtrlLenWrite t m n len => Sys2Proof.Machine.execPnrCtrlLenWrite t m n len s
  | .pnrTake t m n => Sys2Proof.Machine.execPnrTake t m n s
  | .pnrLockRead t m member n => Sys2Proof.Machine.execPnrLockRead t m member n s
  | .pnrLockRelease t m n owner => Sys2Proof.Machine.execPnrLockRelease t m n owner s
  | .pnrEpochWrite t m n epoch => Sys2Proof.Machine.execPnrEpochWrite t m n epoch s
  | .pnrBindWrite t m n v => Sys2Proof.Machine.execPnrBindWrite t m n v s
  | .pnrBindlockSet t m => Sys2Proof.Machine.execPnrBindlockSet t m s
  | .pnrBellClear t m owner v => Sys2Proof.Machine.execPnrBellClear t m owner v s
  | .pnrBellenWrite t m owner v => Sys2Proof.Machine.execPnrBellenWrite t m owner v s
  | .jtagTapReset t => Sys2Proof.Machine.execJtagTapReset t s
  | .claimWrite t m reg1 v => Sys2Proof.Machine.execClaimWrite t m reg1 v s
  | .registerWrite t m a v => Sys2Proof.Machine.execRegisterWrite t m a v s
  | .registerReadClear t m a => Sys2Proof.Machine.execRegisterReadClear t m a s
  | .cadPosloRead t m => Sys2Proof.Machine.execCadPosloRead t m s
  | .fabTimeloRead t m => Sys2Proof.Machine.execFabTimeloRead t m s
  | .pmcCntloRead t m n => Sys2Proof.Machine.execPmcCntloRead t m n s
  | .sramWindowWrite t m off v => Sys2Proof.Machine.execSramWindowWrite t m off v s
  | .bar2Read t addr len => Sys2Proof.Machine.execBar2Read t addr len s
  | .bar2Write t addr bytes => Sys2Proof.Machine.execBar2Write t addr bytes s
  | .powerOn t rails => Sys2Proof.Machine.execPowerOn t rails s
  | .brownOut t rail mv durNs => Sys2Proof.Machine.execBrownOut t rail mv durNs s
  | .resetNAssert t durNs => Sys2Proof.Machine.execResetNAssert t durNs s
  | .resetBegin t => Sys2Proof.Machine.execResetBegin t s
  | .orderlyTimeout t => Sys2Proof.Machine.execOrderlyTimeout t s
  | .internalResetRelease t straps => Sys2Proof.Machine.execInternalResetRelease t straps s
  | .bootImageCheck t flashResponds => Sys2Proof.Machine.execBootImageCheck t flashResponds s
  | .bootComplete t spd0 spd1 trained => Sys2Proof.Machine.execBootComplete t spd0 spd1 trained s
  | .sysclkLoss gap => Sys2Proof.Machine.execSysclkLoss gap s
  | .sysclkFreq t m => Sys2Proof.Machine.execSysclkFreq t m s
  | .ridgeOsc t khz => Sys2Proof.Machine.execRidgeOsc t khz s
  | .pllUnlock t inst => Sys2Proof.Machine.execPllUnlock t inst s
  | .lanePllRelock t rate => Sys2Proof.Machine.execLanePllRelock t rate s
  | .encoderCount t enc a b => Sys2Proof.Machine.execEncoderCount t enc a b s
  | .zEdge t enc => Sys2Proof.Machine.execZEdge t enc s
  | .cadenceLock t => Sys2Proof.Machine.execCadenceLock t s
  | .standstill t => Sys2Proof.Machine.execStandstill t s
  | .lineStart t => Sys2Proof.Machine.execLineStart t s
  | .ledgerRecordLimit t => Sys2Proof.Machine.execLedgerRecordLimit t s
  | .ledgerNewTimer t => Sys2Proof.Machine.execLedgerNewTimer t s
  | .strobeDue t p k => Sys2Proof.Machine.execStrobeDue t p k s
  | .strobeFall t p k => Sys2Proof.Machine.execStrobeFall t p k s
  | .strobeWatchdog t p k => Sys2Proof.Machine.execStrobeWatchdog t p k s
  | .widthCompute t => Sys2Proof.Machine.execWidthCompute t s
  | .ridgeThetaTimeout t p => Sys2Proof.Machine.execRidgeThetaTimeout t p s
  | .markEdge t mark1 => Sys2Proof.Machine.execMarkEdge t mark1 s
  | .boundaryFix t ch sg => Sys2Proof.Machine.execBoundaryFix t ch sg s
  | .cadenceRecordSend t => Sys2Proof.Machine.execCadenceRecordSend t s
  | .cadencePacket t q p => Sys2Proof.Machine.execCadencePacket t q p s
  | .cadRecordLost t => Sys2Proof.Machine.execCadRecordLost t s
  | .lineDecodeStart t ch b => Sys2Proof.Machine.execLineDecodeStart t ch b s
  | .blockFetch t ch sg => Sys2Proof.Machine.execBlockFetch t ch sg s
  | .blockVerify t ch sg => Sys2Proof.Machine.execBlockVerify t ch sg s
  | .decodeLate t p sg y => Sys2Proof.Machine.execDecodeLate t p sg y s
  | .redecodeDone t p => Sys2Proof.Machine.execRedecodeDone t p s
  | .bfpop t m ch v => Sys2Proof.Machine.execBfpop t m ch v s
  | .compressorBlock t => Sys2Proof.Machine.execCompressorBlock t s
  | .edgePacket t q p => Sys2Proof.Machine.execEdgePacket t q p s
  | .lineFrameSend t p => Sys2Proof.Machine.execLineFrameSend t p s
  | .sosEdge t p => Sys2Proof.Machine.execSosEdge t p s
  | .sosWindowClose t p => Sys2Proof.Machine.execSosWindowClose t p s
  | .telemetryFrame t p r => Sys2Proof.Machine.execTelemetryFrame t p r s
  | .headAlignBlock t p aseq sender => Sys2Proof.Machine.execHeadAlignBlock t p aseq sender s
  | .headLinkDown t p => Sys2Proof.Machine.execHeadLinkDown t p s
  | .moduleLost t p m => Sys2Proof.Machine.execModuleLost t p m s
  | .laneBlockLock t w => Sys2Proof.Machine.execLaneBlockLock t w s
  | .laneBlockLoss t w => Sys2Proof.Machine.execLaneBlockLoss t w s
  | .laneEnable t x => Sys2Proof.Machine.execLaneEnable t x s
  | .lnsInj t m l v => Sys2Proof.Machine.execLnsInj t m l v s
  | .pcieReset t kind => Sys2Proof.Machine.execPcieReset t kind s
  | .pcieError t uncorrectable => Sys2Proof.Machine.execPcieError t uncorrectable s
  | .fabricPortUp t q => Sys2Proof.Machine.execFabricPortUp t q s
  | .fabricPortDown t q => Sys2Proof.Machine.execFabricPortDown t q s
  | .fabricAlign t q far pair => Sys2Proof.Machine.execFabricAlign t q far pair s
  | .haltPacket t q p => Sys2Proof.Machine.execHaltPacket t q p s
  | .readReq t q p => Sys2Proof.Machine.execReadReq t q p s
  | .readData t q p => Sys2Proof.Machine.execReadData t q p s
  | .tc1Timeout t tag => Sys2Proof.Machine.execTc1Timeout t tag s
  | .proxyPost t q p => Sys2Proof.Machine.execProxyPost t q p s
  | .proxyResponse t q p => Sys2Proof.Machine.execProxyResponse t q p s
  | .proxyLockRead t q p => Sys2Proof.Machine.execProxyLockRead t q p s
  | .proxyLockRelease t q p => Sys2Proof.Machine.execProxyLockRelease t q p s
  | .proxyLockResult t q p => Sys2Proof.Machine.execProxyLockResult t q p s
  | .proxyDone t q p => Sys2Proof.Machine.execProxyDone t q p s
  | .proxyRetry t tag => Sys2Proof.Machine.execProxyRetry t tag s
  | .probe t q p => Sys2Proof.Machine.execProbe t q p s
  | .assign t q p => Sys2Proof.Machine.execAssign t q p s
  | .route t q p => Sys2Proof.Machine.execRoute t q p s
  | .heartbeat t q p => Sys2Proof.Machine.execHeartbeat t q p s
  | .heartbeatSend t => Sys2Proof.Machine.execHeartbeatSend t s
  | .memberLost t id => Sys2Proof.Machine.execMemberLost t id s
  | .join t q p => Sys2Proof.Machine.execJoin t q p s
  | .lost t q p => Sys2Proof.Machine.execLost t q p s
  | .break t q p => Sys2Proof.Machine.execBreak t q p s
  | .tsyncSend t q => Sys2Proof.Machine.execTsyncSend t q s
  | .tsync t q p => Sys2Proof.Machine.execTsync t q p s
  | .dramRead t d made => Sys2Proof.Machine.execDramRead t d made s
  | .dramWrite t req addr data => Sys2Proof.Machine.execDramWrite t req addr data s
  | .writeDrain t d => Sys2Proof.Machine.execWriteDrain t d s
  | .narrowWrite t req addr bytes => Sys2Proof.Machine.execNarrowWrite t req addr bytes s
  | .rowWindowEnd t => Sys2Proof.Machine.execRowWindowEnd t s
  | .dramRefresh t d sub rank bank => Sys2Proof.Machine.execDramRefresh t d sub rank bank s
  | .mr4Poll t d doubled => Sys2Proof.Machine.execMr4Poll t d doubled s
  | .dqsRemeasure t d sub gap drifted => Sys2Proof.Machine.execDqsRemeasure t d sub gap drifted s
  | .dramAlert t d => Sys2Proof.Machine.execDramAlert t d s
  | .scrubRead t => Sys2Proof.Machine.execScrubRead t s
  | .scrubLate t => Sys2Proof.Machine.execScrubLate t s
  | .diagRawWrite t m => Sys2Proof.Machine.execDiagRawWrite t m s
  | .diagRawRead t m => Sys2Proof.Machine.execDiagRawRead t m s
  | .diagEncode t m => Sys2Proof.Machine.execDiagEncode t m s
  | .dmaStart t m n v => Sys2Proof.Machine.execDmaStart t m n v s
  | .dmaAbort t m n v => Sys2Proof.Machine.execDmaAbort t m n v s
  | .dmaResume t m n v => Sys2Proof.Machine.execDmaResume t m n v s
  | .dmaDescriptor t n => Sys2Proof.Machine.execDmaDescriptor t n s
  | .dmaAccessTimeout t n => Sys2Proof.Machine.execDmaAccessTimeout t n s
  | .crcInit t m u v => Sys2Proof.Machine.execCrcInit t m u v s
  | .crcGo t m u v => Sys2Proof.Machine.execCrcGo t m u v s
  | .crcScanDone t u => Sys2Proof.Machine.execCrcScanDone t u s
  | .crcDataFeed t m u logBytes v => Sys2Proof.Machine.execCrcDataFeed t m u logBytes v s
  | .crcValWrite t m u hi v => Sys2Proof.Machine.execCrcValWrite t m u hi v s
  | .tableScan t ch tab => Sys2Proof.Machine.execTableScan t ch tab s
  | .heartbeatKick t m key => Sys2Proof.Machine.execHeartbeatKick t m key s
  | .heartbeatExpired t => Sys2Proof.Machine.execHeartbeatExpired t s
  | .heartbeatResetRequest t => Sys2Proof.Machine.execHeartbeatResetRequest t s
  | .estop t lowNs => Sys2Proof.Machine.execEstop t lowNs s
  | .safeEnter t m cause => Sys2Proof.Machine.execSafeEnter t m cause s
  | .safeRelease t m => Sys2Proof.Machine.execSafeRelease t m s
  | .safeResetreq t m => Sys2Proof.Machine.execSafeResetreq t m s
  | .rdgCauseClear t m v => Sys2Proof.Machine.execRdgCauseClear t m v s
  | .rdgGrantWrite t m v => Sys2Proof.Machine.execRdgGrantWrite t m v s
  | .wdfaultClear t m h v => Sys2Proof.Machine.execWdfaultClear t m h v s
  | .motionStep t a => Sys2Proof.Machine.execMotionStep t a s
  | .limitSwitchEdge t a side level => Sys2Proof.Machine.execLimitSwitchEdge t a side level s
  | .standstillHold t a => Sys2Proof.Machine.execStandstillHold t a s
  | .senseConversion t slot code => Sys2Proof.Machine.execSenseConversion t slot code s
  | .delayMeasure t p m => Sys2Proof.Machine.execDelayMeasure t p m s
  | .senseCommit t m => Sys2Proof.Machine.execSenseCommit t m s
  | .senseCommitApply t => Sys2Proof.Machine.execSenseCommitApply t s
  | .bistSliceStart t g inst => Sys2Proof.Machine.execBistSliceStart t g inst s
  | .bistSliceSwap t g => Sys2Proof.Machine.execBistSliceSwap t g s
  | .bistMarchDone t g fail => Sys2Proof.Machine.execBistMarchDone t g fail s
  | .errCfgClr t m k => Sys2Proof.Machine.execErrCfgClr t m k s
  | .pmcSnap t m => Sys2Proof.Machine.execPmcSnap t m s
  | .pmcUsnap t m => Sys2Proof.Machine.execPmcUsnap t m s
  | .traceAbandon t r => Sys2Proof.Machine.execTraceAbandon t r s
  | .cdrLockLoss t l => Sys2Proof.Machine.execCdrLockLoss t l s
  | .tableScanLate t ch tab => Sys2Proof.Machine.execTableScanLate t ch tab s

end Sys2Proof.Machine
end

