-- ==== Sys2Proof/Safety.lean ====
section
/-!
DEFINITION. What a safe state of the block is, in the terms the statements use: memories in canonical form, no strobe
high at a port without head power (R24, R377), and a device state that its register shows (R98).
-/
namespace Sys2Proof.Machine

/-- The byte memories of the block keep their canonical form; flash reads 0xFF where nothing is listed (R60; log entry 6). -/
def State.memWf (s : State) : Prop :=
  Memory.wf 0 s.mem ∧ Memory.wf 0 s.chk ∧ Memory.wf 0xFF s.flash ∧ Memory.wf 0 s.stage

/-- A port whose `HPEN` is low has no strobe high (R24, R255, R377). -/
def State.strobesGated (s : State) : Prop := ∀ p k : Nat, hpen s p = false → (s.strobe p k).high = false

/-- `GLB_DEVSTATE` holds the code of the device state and the low half of the job's ID, 0 without a job (R98). -/
def State.shownRight (s : State) : Prop :=
  s.get R.glbDevstate_STATE = s.dev.code ∧
    s.get R.glbDevstate_JOB = (match s.job with | some j => j.id.toNat % 65536 | none => 0)

/-- The invariant of every step. -/
def State.sound (s : State) : Prop := s.strobesGated ∧ s.shownRight

end Sys2Proof.Machine
end

