-- ==== Sys2Proof/Certificates/Slice0/Obligations.lean ====
section
/-!
DEFINITION. The statements for the provers, and the words they use. A command acts at instant `t` on `atTime t s`: its time has advanced
and the outputs of the command before are gone. `Claim.ends` is the end of a firmware command, `Claim.completes` of its completion. A statement
that gives the whole next state says with it what the command leaves unchanged.
-/
namespace Sys2Proof.Claim
open Sys2Proof.Machine

/-- Internal reset is not asserted at the command's instant (R50, R55). -/
abbrev Awake (t : Nat) (s : State) : Prop := (atTime t s).asserted = false

/-- The firmware or the ridge takes the command, and the tests that every command of the row shares pass: internal reset not asserted, the queue served,
the words and flags named, the device state listed, a job where one is needed (R92, R93, R99, R466, R469). -/
def Taken (r : OpRow) (t : Nat) (c : Cmd) (s : State) : Prop :=
  Awake t s ∧ takes c.q (atTime t s) = true ∧ judge r (fun _ _ => none) c (atTime t s) = none

/-- A next state: the command answered, then remote posts that waited for channel 9 served, and the end of every command. -/
def ends (t : Nat) (s s1 : State) : Result := .next (conclude (atTime t s) (proxyServe (reads [11] s1)))

/-- The answer OK of a command, with its result words (R94, R97). -/
def ok (op : Nat) (c : Cmd) (ws : List Nat) (s : State) : State := respond op c 0 0 ws s

/-- The answer OK of an E command, which is then open with its objects (R95). -/
def opened (op : Nat) (c : Cmd) (objects : List Nat) (s : State) : State := respond op c 0 0 [] (openE op c objects s)

/-- A completion finds the queue's open command of the opcode (R95). -/
def Open (op : Nat) (q : Queue) (o : OpenCmd) (t : Nat) (s : State) : Prop :=
  Awake t s ∧ openFor op q (atTime t s) = some o

/-- A next state of a completion. -/
def completes (t : Nat) (s s1 : State) : Result := .next (conclude (atTime t s) (proxyServe s1))

/-- A next state of any other command. -/
def becomes (t : Nat) (s s1 : State) : Result := .next (conclude (atTime t s) s1)

/-- A sound packet of TC1 or TC2 for this member itself, at a port that is up, while the firmware runs (R285, R286, R291). -/
def ForMe (q : Nat) (p : Pkt) (t : Nat) (s : State) : Prop :=
  Awake t s ∧ (atTime t s).kicking = false ∧ s.fw.running = true ∧ s.fabUp q = true ∧ armedFor 29 q s = false ∧ pktCrcOk p = true ∧
    pktFormOk p = true ∧ p.ttl ≠ 0 ∧ p.ty ≠ 0x30 ∧ p.cls ≠ 0 ∧ p.dest ≠ 0 ∧ p.dest ≠ 255 ∧ routePort p.dest.toNat s = some 4

/-- A packet has been acted on: reads of the fabric's memories follow, at which their upsets show (R340). -/
def acted (t : Nat) (s s1 : State) : Result := becomes t s (reads [18, 19] s1)

/-- The state in which a register write by a master finds the device: a host write counts as 4 bytes of posted writes (R430). -/
def written (m : Master) (t : Nat) (s : State) : State := if m = .host then (atTime t s).tally 0x0601 0 4 else atTime t s

/-- The state in which a register read by a master finds the device: a host read counts as 4 bytes answered (R430). -/
def asked (m : Master) (t : Nat) (s : State) : State := if m = .host then (atTime t s).tally 0x0602 0 4 else atTime t s

/-- A master's writes act on a block that has a write enable: any master but the fabric proxy, the host while the enable is 1 (R106, R107, R290). -/
def Writes (wen : Nat) (m : Master) (s : State) : Prop := m ≠ .proxy ∧ (m = .host → bitOf (s.get R.glbHostacc_WEN) wen = true)

/-- A master's writes act on a CRC unit: master 2 and the host on units 0 to 2, and on unit 3 the owner of its claim (R376). -/
def WritesCrc (m : Master) (u : Nat) (s : State) : Prop :=
  Writes 11 m s ∧ (u ≠ 3 ∧ (m = .control ∨ m = .host) ∨ u = 3 ∧ (m = .control ∧ (s.owner true 0 = 3 ∨ s.owner true 0 = 4 ∨ s.owner true 0 = 5) ∨
    m = .host ∧ s.owner true 0 = 4 ∨ m = .ridge ∧ s.owner true 0 = 7 ∨ m = .debug ∧ s.owner true 0 = 6))

/-- Reads made of the DRAM controller join those that wait, each with the instant at which it came, from which on its subchannel is not idle
(R318, R326). -/
def readsJoin (made : List ReadReq) (s : State) : State :=
  forEach made s fun r u => noteUse r.addr (u.setDram { u.dram with reads := u.dram.reads ++ [(r, u.now)] })

/-- The state from which a chosen read is made: it waits no more, its requester has had its turn in the class, and its admission is noted
(R318, R324). -/
def readTaken (d : Dimm) (c : Nat) (e : ReadReq × Nat) (s : State) : State :=
  s.setDram { s.dram with reads := s.dram.reads.erase e, turns := nset 0 s.dram.turns c (e.1.req + 1),
                          admitted := nset 0 s.dram.admitted (2 * e.1.req + d) s.now }

/-- No posted line waits for its response (R121). -/
abbrev NoneWaits (s : State) : Prop := ∀ e ∈ s.segs, ∀ p ∈ e.2.posts, p.waits = none

/-- All eight device states: no ridge command but `RDG_MAINT` asks for one (R389). -/
def everyState : List DevState := [.boot, .held, .ready, .armed, .printing, .paused, .safe, .fault]

/-- The opcode tables (R101, R103, R389, R469): a command's instant, the command, and its row: opcode, argument words, device states, served in
HELD, loaded job. `RDG_MAINT` has a row of its own (R389). -/
def opRowOf : Instr → Option (Nat × Cmd × OpRow)
  | .identify t c => some (t, c, { op := 0x0101, argw := 0, states := anyState, held := true })
  | .getState t c => some (t, c, { op := 0x0102, argw := 0, states := anyState })
  | .sysReset t c => some (t, c, { op := 0x0103, argw := 1, states := anyState, held := true })
  | .logRead t c => some (t, c, { op := 0x0104, argw := 5, states := anyState, held := true })
  | .unlock t c => some (t, c, { op := 0x0105, argw := 5, states := [.ready] })
  | .lifecycle t c => some (t, c, { op := 0x0106, argw := 4, states := [.ready] })
  | .eventMask t c => some (t, c, { op := 0x0107, argw := 1, states := anyState })
  | .imgWrite t c => some (t, c, { op := 0x0201, argw := 7, states := [.ready, .fault], held := true })
  | .imgInfo t c => some (t, c, { op := 0x0202, argw := 1, states := anyState, held := true })
  | .bundleApply t c => some (t, c, { op := 0x0203, argw := 1, states := [.ready] })
  | .chGeometry t c => some (t, c, { op := 0x0301, argw := 6, states := [.ready] })
  | .chSegment t c => some (t, c, { op := 0x0302, argw := 4, states := [.ready] })
  | .tblLoad t c => some (t, c, { op := 0x0303, argw := 7, states := activeStates })
  | .tblCommit t c => some (t, c, { op := 0x0304, argw := 5, states := activeStates })
  | .tblRead t c => some (t, c, { op := 0x0305, argw := 7, states := anyState })
  | .jetStatus t c => some (t, c, { op := 0x0306, argw := 4, states := activeStates })
  | .jobDefine t c => some (t, c, { op := 0x0401, argw := 4, states := [.ready] })
  | .jobPost t c => some (t, c, { op := 0x0402, argw := 7, states := activeStates, needsJob := true })
  | .jobArm t c => some (t, c, { op := 0x0403, argw := 2, states := [.ready], needsJob := true })
  | .jobStart t c => some (t, c, { op := 0x0404, argw := 3, states := [.armed] })
  | .jobPause t c => some (t, c, { op := 0x0405, argw := 2, states := [.printing, .paused] })
  | .jobResume t c => some (t, c, { op := 0x0406, argw := 2, states := [.paused] })
  | .jobAbort t c => some (t, c, { op := 0x0407, argw := 1, states := activeStates, needsJob := true })
  | .jobDisarm t c => some (t, c, { op := 0x0408, argw := 0, states := [.armed] })
  | .runway t c => some (t, c, { op := 0x0409, argw := 2, states := anyState })
  | .libStore t c => some (t, c, { op := 0x040A, argw := 5, states := activeStates })
  | .jobRestore t c => some (t, c, { op := 0x040B, argw := 2, states := [.ready], needsJob := true })
  | .cadConfig t c => some (t, c, { op := 0x0501, argw := 4, states := [.ready] })
  | .cadSpeed t c => some (t, c, { op := 0x0502, argw := 4, states := [.ready] })
  | .cadMark t c => some (t, c, { op := 0x0503, argw := 8, states := [.ready] })
  | .cadStatus t c => some (t, c, { op := 0x0504, argw := 0, states := anyState })
  | .hpConfig t c => some (t, c, { op := 0x0601, argw := 5, states := [.ready] })
  | .hpRowgroup t c => some (t, c, { op := 0x0602, argw := 5, states := [.ready] })
  | .hpStrobe t c => some (t, c, { op := 0x0603, argw := 4, states := [.ready, .armed] })
  | .hpTemptable t c => some (t, c, { op := 0x0604, argw := 5, states := [.ready, .armed] })
  | .hpLink t c => some (t, c, { op := 0x0605, argw := 2, states := [.ready] })
  | .ledgerConfig t c => some (t, c, { op := 0x0606, argw := 4, states := [.ready] })
  | .ledgerAdvance t c => some (t, c, { op := 0x0607, argw := 1, states := anyState })
  | .chainDiscover t c => some (t, c, { op := 0x0701, argw := 0, states := [.ready] })
  | .chainStatus t c => some (t, c, { op := 0x0702, argw := 1, states := anyState })
  | .chainForward t c => some (t, c, { op := 0x0703, argw := 6, states := anyState })
  | .chainCadence t c => some (t, c, { op := 0x0704, argw := 1, states := [.ready] })
  | .chainEdge t c => some (t, c, { op := 0x0705, argw := 4, states := [.ready] })
  | .calSave t c => some (t, c, { op := 0x0801, argw := 0, states := activeStates ++ [.safe] })
  | .calRestore t c => some (t, c, { op := 0x0802, argw := 0, states := [.ready] })
  | .calRun t c => some (t, c, { op := 0x0803, argw := 1, states := [.ready] })
  | .motConfig t c => some (t, c, { op := 0x0901, argw := 6, states := [.ready, .armed, .paused] })
  | .motMove t c => some (t, c, { op := 0x0902, argw := 9, states := [.ready, .armed, .paused] })
  | .motHome t c => some (t, c, { op := 0x0903, argw := 2, states := [.ready, .armed, .paused] })
  | .motStop t c => some (t, c, { op := 0x0904, argw := 1, states := anyState })
  | .motStatus t c => some (t, c, { op := 0x0905, argw := 1, states := anyState })
  | .bistRun t c => some (t, c, { op := 0x0A01, argw := 2, states := activeStates })
  | .errRead t c => some (t, c, { op := 0x0A02, argw := 3, states := anyState })
  | .errInject t c => some (t, c, { op := 0x0A03, argw := 2, states := anyState })
  | .errRoute t c => some (t, c, { op := 0x0A04, argw := 3, states := anyState })
  | .laneTest t c => some (t, c, { op := 0x0A05, argw := 3, states := [.ready] })
  | .memMap t c => some (t, c, { op := 0x0B01, argw := 0, states := anyState })
  | .dmaRun t c => some (t, c, { op := 0x0B02, argw := 3, states := activeStates })
  | .eccErasure t c => some (t, c, { op := 0x0B03, argw := 3, states := [.ready] })
  | .poisonList t c => some (t, c, { op := 0x0B04, argw := 2, states := anyState })
  | .scrubPeriod t c => some (t, c, { op := 0x0B05, argw := 1, states := anyState })
  | .pmcSelect t c => some (t, c, { op := 0x0C01, argw := 3, states := anyState })
  | .pmcSnapshot t c => some (t, c, { op := 0x0C02, argw := 0, states := anyState })
  | .traceSet t c => some (t, c, { op := 0x0C03, argw := 2, states := anyState })
  | .traceRead t c => some (t, c, { op := 0x0C04, argw := 2, states := anyState })
  | .rdgIdentify t c => some (t, c, { op := 0x1001, argw := 0, states := everyState, held := true })
  | .rdgStatus t c => some (t, c, { op := 0x1002, argw := 0, states := everyState, held := true })
  | .rdgLimits t c => some (t, c, { op := 0x1003, argw := 4, states := everyState, held := true })
  | .rdgSafeEnter t c => some (t, c, { op := 0x1004, argw := 0, states := everyState, held := true })
  | .rdgSafeRelease t c => some (t, c, { op := 0x1005, argw := 0, states := everyState, held := true })
  | .rdgPortClear t c => some (t, c, { op := 0x1006, argw := 2, states := everyState, held := true })
  | _ => none

/-- The completions of E commands (R95): instant, opcode, queue. -/
def doneOf : Instr → Option (Nat × Nat × Queue)
  | .imgWriteDone t q => some (t, 0x0201, q)
  | .bundleApplyDone t q => some (t, 0x0203, q)
  | .tblLoadDone t q => some (t, 0x0303, q)
  | .tblReadDone t q => some (t, 0x0305, q)
  | .jobArmDone t q => some (t, 0x0403, q)
  | .libStoreDone t q => some (t, 0x040A, q)
  | .jobRestoreDone t q => some (t, 0x040B, q)
  | .hpTemptableDone t q => some (t, 0x0604, q)
  | .hpLinkDone t q => some (t, 0x0605, q)
  | .chainDiscoverDone t q => some (t, 0x0701, q)
  | .chainForwardDone t q => some (t, 0x0703, q)
  | .calSaveDone t q => some (t, 0x0801, q)
  | .calRestoreDone t q => some (t, 0x0802, q)
  | .calRunDone t q _ _ _ => some (t, 0x0803, q)
  | .motMoveDone t q => some (t, 0x0902, q)
  | .bistRunDone t q => some (t, 0x0A01, q)
  | .laneTestDone t q _ _ => some (t, 0x0A05, q)
  | .dmaRunDone t q => some (t, 0x0B02, q)
  | _ => none

/-- A packet that a row brings: its instant, its port and itself. -/
def packetOf : Instr → Option (Nat × FabPort × Pkt)
  | .cadencePacket t q p | .edgePacket t q p | .haltPacket t q p | .readReq t q p | .readData t q p | .proxyPost t q p | .proxyResponse t q p | .proxyLockRead t q p | .proxyLockRelease t q p | .proxyLockResult t q p
  | .proxyDone t q p | .probe t q p | .assign t q p | .route t q p | .heartbeat t q p | .join t q p | .lost t q p | .break t q p | .tsync t q p => some (t, q, p)
  | _ => none

/-- Rows that act while the device is in full reset: rails, `RESET_N`, `SYSCLK`, the release, and the filter of `ESTOP_N` (R26, R46, R49 to R57). -/
def actsInReset : Instr → Bool
  | .powerOn _ _ | .brownOut _ _ _ _ | .resetNAssert _ _ | .internalResetRelease _ _ | .estop _ _ | .orderlyTimeout _ | .sysclkLoss _ | .sysclkFreq _ _ => true
  | _ => false

/-- Registers that an answer changes: the channels' and the bells' (R78, R80, R82). -/
def answerKinds : List RegKind := [.pnrMsg, .pnrStatus, .pnrEpoch, .pnrTake, .pnrCtrl, .pnrBell]

/-- What stands in memories, flash and the staging buffer is, byte by byte, as it was. -/
def SameBytes (s s' : State) : Prop :=
  ∀ a, Memory.read 0 s'.mem a = Memory.read 0 s.mem a ∧ Memory.read 0 s'.chk a = Memory.read 0 s.chk a ∧
    Memory.read 0xFF s'.flash a = Memory.read 0xFF s.flash a ∧ Memory.read 0 s'.stage a = Memory.read 0 s.stage a

/-- Registers of other kinds, every byte, the device state, the job, OTP, channels, segments, axes, the library and the DRAM controller are as
they were. `GLB_DEVSTATE` shows the state and the job (R98). -/
def Keeps (ks : List RegKind) (s s' : State) : Prop :=
  (∀ r : RegId, r.k ∉ ks → r.k ≠ .glbDevstate → s'.reg r = s.reg r) ∧ SameBytes s s' ∧ s'.dev = s.dev ∧ s'.job = s.job ∧ s'.otp = s.otp ∧
    s'.chans = s.chans ∧ s'.segs = s.segs ∧ s'.axes = s.axes ∧ s'.lib = s.lib ∧ s'.dram = s.dram ∧ s'.inject = s.inject

/-- Every queued write stands in the queue of its DIMM channel, at a burst's address, with 64 bytes or the 80 of a raw write (R319, R354). -/
def QueuesRight (s : State) : Prop :=
  ∀ c, ∀ w ∈ s.wq c, (s.loc w.addr).c = c ∧ w.addr % 64 = 0 ∧ (w.data.length = 64 ∨ w.data.length = 80)

end Sys2Proof.Claim

open Sys2Proof Sys2Proof.Machine Sys2Proof.Claim

/-- R101, R52, R96, R102: the queries and settings of group 0x01 answer OK; only `SYS_RESET` and `EVENT_MASK` change anything else. -/
def Obligations.SystemCommandsComplete : Prop :=
  (∀ t c s, Taken { op := 0x0101, argw := 0, states := anyState, held := true } t c s →
    exec (.identify t c) s = ends t s (let u := atTime t s; ok 0x0101 c
      [(u.reg ⟨.glbIdentity, 0, 0⟩).toNat, u.get R.glbUid0_UID_LO, u.get R.glbUid1_UID_HI, fieldAt u.boot.ctlHeader 8 4,
       fieldAt u.boot.rdgHeader 8 4, fieldAt u.boot.ctlHeader 0x0E 2 + 65536 * u.rdg.proto,
       fieldAt u.boot.ctlHeader 0x10 2 + 65536 * u.memberId, (u.reg ⟨.glbBootstat, 0, 0⟩).toNat] u)) ∧
  (∀ t c s, Taken { op := 0x0102, argw := 0, states := anyState } t c s →
    exec (.getState t c) s = ends t s (let u := atTime t s; ok 0x0102 c
      ([u.dev.code, (u.job.map fun j => j.id.toNat).getD 0] ++ twoWords (wrapInt 64 u.fire) ++ twoWords (pendingLine u)) u)) ∧
  (∀ t c s, Taken { op := 0x0103, argw := 1, states := anyState, held := true } t c s → cmdNat c 1 ≤ 1 →
    exec (.sysReset t c) s = ends t s (let u := atTime t s
      ok 0x0103 c [] (u.setFw { u.fw with resetPending := some (decide (cmdNat c 1 = 1 ∨ u.dev = .held), u.now) }))) ∧
  (∀ t c s, Taken { op := 0x0107, argw := 1, states := anyState } t c s →
    exec (.eventMask t c) s = ends t s (let u := atTime t s; ok 0x0107 c [] (u.setFw { u.fw with mask := c.w 1 }))) ∧
  (∀ t c s, Taken { op := 0x0202, argw := 1, states := anyState, held := true } t c s → cmdNat c 1 = 1 ∨ cmdNat c 1 = 2 →
    exec (.imgInfo t c) s = ends t s (let u := atTime t s; let ty := cmdNat c 1; ok 0x0202 c
      [fieldAt (u.header ty 0) 8 4, fieldAt (u.header ty 1) 8 4, b2n (imageValid ty 0 u) + 2 * b2n (imageValid ty 1 u),
       if ty = 1 then u.boot.cslot else u.boot.rslot] u)) ∧
  (∀ t c s, Taken { op := 0x0203, argw := 1, states := [.ready] } t c s → 0x290000 ≤ cmdNat c 1 → queueBusy c (atTime t s) = false →
    exec (.bundleApply t c) s = ends t s (opened 0x0203 c [0, 0] (atTime t s))) ∧
  (∀ t c s, Taken { op := 0x0B01, argw := 0, states := anyState } t c s →
    exec (.memMap t c) s = ends t s (let u := atTime t s; ok 0x0B01 c (twoWords 0 ++ [u.regionMap.length]) u))

/-- R60, R66, R68, R69, R101, R102, R105, R108: commands that move bytes to or from flash and OTP. -/
def Obligations.FlashCommandsComplete : Prop :=
  (∀ t c s, Taken { op := 0x0104, argw := 5, states := anyState, held := true } t c s → logReadFail c (atTime t s) = none →
    exec (.logRead t c) s = ends t s (let r := logSource (cmdNat c 1) (cmdNat c 2) (cmdNat c 3) (atTime t s)
      match r.1 with
      | none => respond 0x0104 c stIntegrity 0 [] r.2
      | some bs => ok 0x0104 c [bs.length, (crc32c bs).toNat]
        (if usesBuffer (atTime t s) then { r.2 with stage := Memory.writeN 0 r.2.stage (cmdDword c 4) bs } else deliver 4 (cmdDword c 4) bs r.2))) ∧
  (∀ t c s bs v, Taken { op := 0x0105, argw := 5, states := [.ready] } t c s → unlockFail c (atTime t s) = none →
    fetch 7 (cmdDword c 1) (cmdNat c 3) (atTime t s) = (.bytes bs, v) → crc32c bs = c.w 4 →
    exec (.unlock t c) s = ends t s (let u := doneWith (cmdDword c 1) (cmdNat c 3) v
      match tokenScope bs u with
      | none => respond 0x0105 c stDenied 0 [] u
      | some w => ok 0x0105 c [w.toNat] (let x := (u.put R.glbHostacc_WEN w.toNat).put R.glbHostacc_UNLOCKED 1
          if cmdNat c 5 = 1 then writeSector 0x282000 (leBytes 4 bs.length ++ wordBytes (crc32c bs) ++ bs) x else x))) ∧
  (∀ t c s bs v, Taken { op := 0x0106, argw := 4, states := [.ready] } t c s → lifecycleFail c (atTime t s) = none →
    fetch 7 (cmdDword c 1) (cmdNat c 3) (atTime t s) = (.bytes bs, v) → crc32c bs = c.w 4 →
    exec (.lifecycle t c) s = ends t s (let u := doneWith (cmdDword c 1) (cmdNat c 3) v
      match (Config.lifecycleTarget bs u.otp.uid).map fun k => lifeCycleOf k with
      | none => respond 0x0106 c stDenied 0 [] u
      | some l => if transitionOk u.otpState l then ok 0x0106 c [] (programLifeCycle l u) else respond 0x0106 c stDenied 0 [] u)) ∧
  (∀ t c s, Taken { op := 0x0201, argw := 7, states := [.ready, .fault], held := true } t c s → imgWriteFail c (atTime t s) = none →
    s.dev ≠ .held → addrSpace (cmdDword c 4) ≠ 3 →
    exec (.imgWrite t c) s = ends t s (opened 0x0201 c [0x100 + 2 * cmdNat c 1 + cmdNat c 2, 0] (atTime t s))) ∧
  (∀ t c s, Taken { op := 0x0201, argw := 7, states := [.ready, .fault], held := true } t c s → imgWriteFail c (atTime t s) = none →
    s.dev = .held →
    exec (.imgWrite t c) s = ends t s
      (let r := programChunk c (Memory.readN 0 s.stage (cmdDword c 4) (cmdNat c 6)) (atTime t s); respond 0x0201 c r.1 0 [] r.2)) ∧
  (∀ t q o s bs v w, Open 0x0201 q o t s →
    (if usesBuffer (atTime t s) then (Fetched.bytes (Memory.readN 0 s.stage (cmdDword o.cmd 4) (cmdNat o.cmd 6)), atTime t s)
      else dmaFetch (cmdDword o.cmd 4) (cmdNat o.cmd 6) (atTime t s)) = (.bytes bs, v) →
    claimUnit3 o (doneWith (cmdDword o.cmd 4) (cmdNat o.cmd 6) v) = .ok w →
    exec (.imgWriteDone t q) s = completes t s
      (let p := programChunk o.cmd bs w; finish o p.1 0 [] p.2)) ∧
  (∀ t q o s, Open 0x0203 q o t s →
    exec (.bundleApplyDone t q) s = completes t s (let u := atTime t s
      match Config.bundleItems u.flash (cmdNat o.cmd 1) with
      | none => finish o stIntegrity 0 [] u
      | some l => match bundleApply o l u with
        | (none, v) => finish o stOk 0 [l.length] v
        | (some st, v) => finish o st 0 [] (u.setReg ⟨.glbClaimerr, 0, 0⟩ (v.reg ⟨.glbClaimerr, 0, 0⟩))))


/-- R11, R198, R199, R200: the commands of group 0x03 answer OK, or are open as E commands; each changes its channel, its segment or
the inactive copies, and nothing else. -/
def Obligations.TableCommandsComplete : Prop :=
  (∀ t c s, Taken { op := 0x0301, argw := 6, states := [.ready] } t c s → chGeometryFail c (atTime t s) = none →
    exec (.chGeometry t c) s = ends t s (let u := atTime t s; let ch := cmdNat c 1
      let side (n : Nat) : Option Nat := if n = 0xFF then none else some n
      ok 0x0301 c [] (showColumns ch (u.chan ch).active (u.setChan ch { u.chan ch with
        configured := true, n := cmdNat c 2, l := cmdNat c 3, b := cmdNat c 4, left := side (cmdNat c 5), right := side (cmdNat c 6) })))) ∧
  (∀ t c s, Taken { op := 0x0302, argw := 4, states := [.ready] } t c s → chSegmentFail c (atTime t s) = none →
    exec (.chSegment t c) s = ends t s (let u := atTime t s
      ok 0x0302 c [] (u.setSeg (cmdNat c 1) (cmdNat c 2) { u.seg (cmdNat c 1) (cmdNat c 2) with
        first := if cmdNat c 4 = 0 then 0 else cmdNat c 3, width := cmdNat c 4 }))) ∧
  (∀ t c s i, Taken { op := 0x0303, argw := 7, states := activeStates } t c s → tblLoadFail c (atTime t s) = none →
    stagingArea (cmdDword c 3) (cmdNat c 5) (atTime t s) = some i →
    exec (.tblLoad t c) s = ends t s (opened 0x0303 c [cmdNat c 1, i + 1] (atTime t s))) ∧
  (∀ t c s, Taken { op := 0x0304, argw := 5, states := activeStates } t c s → tblCommitFail c (atTime t s) = none → s.dev = .ready →
    exec (.tblCommit t c) s = ends t s (let u := atTime t s; let ch := cmdNat c 1
      let v := openE 0x0304 c [ch, 0] u
      let w := showColumns ch (commitTables c u) ((v.setChan ch { u.chan ch with copyMask := cmdNat c 2 }).put R.chTblstat_PENDING 1 ch)
      respond 0x0304 c 0 0 [] (activate_ ch (-(2 ^ 63)) (commitTables c u) (commitAt ch 0 w)))) ∧
  (∀ t c s y, Taken { op := 0x0304, argw := 5, states := activeStates } t c s → tblCommitFail c (atTime t s) = none → s.dev ≠ .ready →
    commitLine c (atTime t s) = some y →
    exec (.tblCommit t c) s = ends t s (let u := atTime t s; let ch := cmdNat c 1
      let v := openE 0x0304 c [ch, 0] u
      let w := commitAt ch y (showColumns ch (commitTables c u)
        ((v.setChan ch { u.chan ch with copyMask := cmdNat c 2 }).put R.chTblstat_PENDING 1 ch))
      respond 0x0304 c 0 0 [] (w.setChan ch { w.chan ch with next := some (y, commitTables c u) }))) ∧
  (∀ t c s, Taken { op := 0x0305, argw := 7, states := anyState } t c s → tblReadFail c (atTime t s) = none →
    exec (.tblRead t c) s = ends t s (opened 0x0305 c [cmdNat c 1, destMark (cmdDword c 4) (cmdNat c 6) (atTime t s)] (atTime t s))) ∧
  (∀ t c s, Taken { op := 0x0306, argw := 4, states := activeStates } t c s → jetStatusFail c (atTime t s) = none →
    exec (.jetStatus t c) s = ends t s (let u := atTime t s; let ch := cmdNat c 1
      let jet (T : Tables) (n : Nat) : Tables := T.setUnit 0 n (T.unit 0 n - bitsOf (T.unit 0 n) 20 2 * 2 ^ 20 + cmdNat c 4 * 2 ^ 20)
      ok 0x0306 c [] (u.setChan ch { u.chan ch with
        inactive := (List.range (cmdNat c 3)).foldl (fun T i => jet T (cmdNat c 2 + i)) (u.chan ch).inactive })))

/-- R104, R105, R198, R199, R200, R353, R375: what ends the E commands on tables, and the scan. -/
def Obligations.TableCompletionsComplete : Prop :=
  (∀ t q o s bs v w, Open 0x0303 q o t s → o.lockLost = false →
    dmaFetch (cmdDword o.cmd 3) (cmdNat o.cmd 5) (atTime t s) = (.bytes bs, v) →
    entryDetail (Tables.setBytes (cmdNat o.cmd 2) (cmdNat o.cmd 7 * entrySize (cmdNat o.cmd 2)) bs (v.chan (cmdNat o.cmd 1)).inactive)
      (cmdNat o.cmd 2) (cmdNat o.cmd 7 * entrySize (cmdNat o.cmd 2)) bs.length (v.chan (cmdNat o.cmd 1)).b = none →
    claimUnit3 o v = .ok w →
    exec (.tblLoadDone t q) s = completes t s (let ch := cmdNat o.cmd 1
      if crc32c bs = o.cmd.w 6 then
        finish o stOk 0 [(crc32c bs).toNat] (w.setChan ch { w.chan ch with
          inactive := Tables.setBytes (cmdNat o.cmd 2) (cmdNat o.cmd 7 * entrySize (cmdNat o.cmd 2)) bs (v.chan ch).inactive })
      else finish o stIntegrity 0 [] w)) ∧
  (∀ t (ch : Chan) y T s, Awake t s → (s.chan ch).next = some (y, T) → s.dev = .ready →
    exec (.tblCommitEffect t ch) s = becomes t s (activate_ ch y T (atTime t s))) ∧
  (∀ t (ch : Chan) (y f : Int) T s, Awake t s → (s.chan ch).next = some (y, T) → (atTime t s).front = some f →
    (∀ k : Nat, k < 4 → (atTime t s).dueBy (4 * ch.val + k) y f = true) →
    exec (.tblCommitEffect t ch) s = becomes t s (activate_ ch y T (atTime t s))) ∧
  (∀ t (ch : Chan) o s, Awake t s → (s.chan ch).next = none → (s.chan ch).waitSeg = none →
    (s.fw.opens.find? fun o => decide (o.op = 0x0304 ∧ o.data.head? = some ch.val)) = some o →
    exec (.copyForwardDone t ch) s = becomes t s (let u := reads ((maskList 4 (s.chan ch).copyMask).map tableGroup) (atTime t s); let x := s.chan ch
      let v := u.setChan ch { x with inactive := Tables.merge x.copyMask x.active x.inactive, copyMask := 0 }
      finish o stOk 0 [v.get R.chCommitlo_LINE_LO ch.val] (v.put R.chTblstat_PENDING 0 ch.val))) ∧
  (∀ t q o s, Open 0x0305 q o t s →
    exec (.tblReadDone t q) s = completes t s (let c := o.cmd; let u := tableReads (cmdNat c 2) (atTime t s); let x := u.chan (cmdNat c 1)
      let bs := (if cmdNat c 3 = 0 then x.active else x.inactive).bytes (cmdNat c 2) (cmdNat c 7 * entrySize (cmdNat c 2)) (cmdNat c 6)
      finish o stOk 0 [(crc32c bs).toNat] (deliver 4 (cmdDword c 4) bs u))) ∧
  (∀ t (ch : Chan) (tab : Fin 4) s v, Awake t s → s.fw.running = true → s.get R.glbBootstat_PHASE = 9 →
    s.copying ch tab = false → claimFor true 0 3 (atTime t s) = (true, v) →
    exec (.tableScan t ch tab) s = becomes t s (let x := tableReads tab (claimFree true 0 3 v)
      let w := { x with scans := nset (0, false) x.scans (4 * ch.val + tab.val) (x.now, false) }
      let m := meets 47 ch (decide (crc32c ((w.chan ch).active.bytes tab 0 (entrySize tab * entryCount tab)) ≠ w.tableRef ch tab)) w
      if m.1 = true then fatal 47 ch none tab.val m.2.1 m.2.2 else m.2.2)) ∧
  (∀ t (ch : Chan) (tab : Fin 4) s u, Awake t s → s.fw.running = true → s.get R.glbBootstat_PHASE = 9 →
    s.owner true 0 ≠ 0 → s.owner true 0 ≠ 3 → s.scans.lookup (4 * ch.val + tab.val) = some (u, false) → u + 100000000000 < (atTime t s).now →
    exec (.tableScanLate t ch tab) s = becomes t s (raise 48 ch none tab.val false
      { atTime t s with scans := nset (0, false) s.scans (4 * ch.val + tab.val) (u, true) }))

/-- R98, R100, R109, R220, R221, R469: the commands that define, start, pause, resume and end a job. -/
def Obligations.JobCommandsComplete : Prop :=
  (∀ t c s, Taken { op := 0x0401, argw := 4, states := [.ready] } t c s → jobDefineFail c (atTime t s) = none →
    exec (.jobDefine t c) s = ends t s (ok 0x0401 c [] (showShift (showState ((clearSegs (atTime t s)).setJob
      (some { id := c.w 1, mask := cmdNat c 2, policy := cmdNat c 3, threshold := cmdNat c 4 })))))) ∧
  (∀ t c j s, Taken { op := 0x0404, argw := 3, states := [.armed] } t c s → jobStartFail c (atTime t s) = none → s.job = some j → cmdNat c 3 = 0 →
    exec (.jobStart t c) s = ends t s (ok 0x0404 c [] (setOrigin (cmdLine c 1 - j.jc.getD 0) (showShift { atTime t s with
      stagger := []
      job := some { j with
        startAt := some (cmdLine c 1, false), y0 := none, startLine := none, shift := 0, fired := false, ledgerPause := false, haltAt := none, haltRecs := [],
        pauseAt := none, abortAt := none, resumeAt := none, stoppedAt := cmdLine c 1 } })))) ∧
  (∀ t c j s, Taken { op := 0x0404, argw := 3, states := [.armed] } t c s → jobStartFail c (atTime t s) = none → s.job = some j → cmdNat c 3 = 1 →
    exec (.jobStart t c) s = ends t s (ok 0x0404 c [] (showShift { atTime t s with
      stagger := []
      job := some { j with
        startAt := some (cmdLine c 1, true), y0 := none, startLine := none, shift := 0, fired := false, ledgerPause := false, haltAt := none, haltRecs := [],
        pauseAt := none, abortAt := none, resumeAt := none, stoppedAt := cmdLine c 1 } }))) ∧
  (∀ t c j s, Taken { op := 0x0405, argw := 2, states := [.printing, .paused] } t c s → s.job = some j → s.dev = .paused →
    exec (.jobPause t c) s = ends t s (ok 0x0405 c (twoWords (wrapInt 64 j.stoppedAt)) (atTime t s))) ∧
  (∀ t c j s, Taken { op := 0x0405, argw := 2, states := [.printing, .paused] } t c s → s.job = some j → s.dev = .printing →
    j.pauseAt = none → j.haltAt = none →
    exec (.jobPause t c) s = ends t s (let u := atTime t s
      let f := if cmdDword c 1 = 2 ^ 64 - 1 then u.fire + 1 else max (u.fire + 1) (cmdLine c 1)
      ok 0x0405 c (twoWords (wrapInt 64 f)) (u.setJob (some { j with pauseAt := some f })))) ∧
  (∀ t c j s, Taken { op := 0x0406, argw := 2, states := [.paused] } t c s → jobResumeFail c (atTime t s) = none → s.job = some j →
    exec (.jobResume t c) s = ends t s (let u := atTime t s
      let tested (r : Nat × Nat × Nat × Int × Int) : Bool := decide (r.2.2.1 = 2) && (u.seg (r.1 / 4) r.2.1).under.isSome
      let v := u.setJob (some (({ j with resumeAt := some (cmdLine c 1), haltRecs := j.haltRecs.filter fun r => !tested r, pauseAt := none }).rehalt))
      let w := forEach v.jobSegs v fun e x =>
        let told (h : Nat × Int) : Bool := match (x.seg e.1 e.2).under with
          | some n => decide (h.2 < n) || !j.haltRecs.any fun r => decide (r.1 = h.1 ∧ r.2.1 = e.2 ∧ r.2.2.1 = 2)
          | none => true
        x.setSeg e.1 e.2 { x.seg e.1 e.2 with under := none, halted := (x.seg e.1 e.2).halted.filter told }
      ok 0x0406 c [] (setGrant (w.get R.rdgHpen_GRANT ||| w.grantable j.ports) w))) ∧
  (∀ t c j s, Taken { op := 0x0407, argw := 1, states := activeStates, needsJob := true } t c s → s.job = some j → j.id = c.w 1 →
    exec (.jobAbort t c) s = ends t s (let u := atTime t s
      ok 0x0407 c [] (if u.dev = .printing then u.setJob (some { j with abortAt := some (u.fire + 1) }) else unloadJob 0 u))) ∧
  (∀ t c s, Taken { op := 0x0408, argw := 0, states := [.armed] } t c s →
    exec (.jobDisarm t c) s = ends t s (ok 0x0408 c [] (setDev .ready 0 (disarmPorts (cancelStart (atTime t s)))))) ∧
  (∀ t c s, Taken { op := 0x0403, argw := 2, states := [.ready], needsJob := true } t c s → jobArmFail c (atTime t s) = none →
    exec (.jobArm t c) s = ends t s (opened 0x0403 c
      (cmdNat c 2 :: ((List.range 4).flatMap fun ch => [keepRef (s.chan ch).refL, keepRef (s.chan ch).refR]) ++ [0]) (let u := atTime t s
      let kept := forEach u.jobChans u fun ch x =>
        let e (e : Option (Nat × Nat)) (n : Nat) : Option Nat := match e with | some (m, r) => Config.remoteRef m r n | none => none
        x.setChan ch { x.chan ch with refL := e (x.chan ch).edgeL x.freeCount, refR := e (x.chan ch).edgeR (x.freeCount + 1) }
      { kept with freeCount := kept.freeCount + 2 }))) ∧
  (∀ t q o j s, Open 0x0403 q o t s → s.job = some j → j.id = o.cmd.w 1 → s.cadLocked = true → s.dev = .ready →
    (maskList 16 (cmdNat o.cmd 2)).filter (atTime t s).armable = maskList 16 (cmdNat o.cmd 2) →
    exec (.jobArmDone t q) s = completes t s (let m := cmdNat o.cmd 2
      let u := (atTime t s).setJob (some { j with ports := m, startAt := none, startLine := none, printing := false })
      let v := forEach (List.range 16) u fun p x =>
        let x := (if bitOf m p then watchTheta p x else x).put R.hptPstat_ARMED (b2n (bitOf m p)) p
        if bitOf m p then x.setPort p { x.port p with frame := none, lastDue := none, gated := none } else x
      setDev .armed 0 (finish o stOk 0 [m] (setGrant (v.get R.rdgHpen_GRANT ||| v.grantable m) v))))

/-- R116 to R124, R131: a post in each form, the runway, and the library. A raw post is answered by the compressor (R121). -/
def Obligations.PostsAndLibraryComplete : Prop :=
  (∀ t c s bs v, Taken { op := 0x0402, argw := 7, states := activeStates, needsJob := true } t c s → jobPostFail c (atTime t s) = none →
    postForm c = 0 →
    dmaFetch (cmdDword c 4) (postLen c) (if addrSpace (cmdDword c 4) = 3 then
      requestFar (addrMember (cmdDword c 4)) (addrIn (cmdDword c 4)) (postLen c) (atTime t s) else atTime t s) = (.bytes bs, v) →
    exec (.jobPost t c) s = ends t s (let (ch, g, n) := (cmdNat c 1, cmdNat c 2, postLen c)
      let x := dropKept ch (doneWith (cmdDword c 4) n v)
      let a := (x.ringPlace ch (roundBurst n)).getD 0
      let y := if (s.seg ch g).abandoned (cmdNat c 3) then x else dramWrite 4 a (fillTo 0 (roundBurst n) bs) x
      let z := addPost ch g { page := cmdNat c 3, lines := cmdNat c 7, addr := a, len := n, ring := roundBurst n, raw := false, lib := none,
                              pages := 1, index := (y.chan ch).postIndex, waits := postWaits c y } y
      ok 0x0402 c [runwayWord ch g z] z)) ∧
  (∀ t c s e, Taken { op := 0x0402, argw := 7, states := activeStates, needsJob := true } t c s → jobPostFail c (atTime t s) = none →
    postForm c = 2 → s.lib.lookup (cmdNat c 4) = some e →
    exec (.jobPost t c) s = ends t s (let (ch, g) := (cmdNat c 1, cmdNat c 2); let u := dropKept ch (atTime t s)
      let z := addPost ch g { page := cmdNat c 3, lines := (u.seg ch g).pageLen, addr := e.addr + 16, len := e.streamLen, ring := 0, raw := false,
                              lib := some (cmdNat c 4), pages := cmdNat c 7, index := (u.chan ch).postIndex, waits := postWaits c u } u
      ok 0x0402 c [runwayWord ch g z] z)) ∧
  (∀ t c s, Taken { op := 0x0402, argw := 7, states := activeStates, needsJob := true } t c s → jobPostFail c (atTime t s) = none →
    postForm c = 3 →
    exec (.jobPost t c) s = ends t s (let u := atTime t s; let (ch, g) := (cmdNat c 1, cmdNat c 2)
      let z := (dropKept ch u).setSeg ch g { u.seg ch g with endPage := some (cmdNat c 3), postPage := cmdNat c 3, postLines := 0 }
      ok 0x0402 c [runwayWord ch g z] z)) ∧
  (∀ t c s, Taken { op := 0x0409, argw := 2, states := anyState } t c s → cmdNat c 1 ≤ 3 → cmdNat c 2 ≤ 127 →
    exec (.runway t c) s = ends t s (let u := atTime t s
      ok 0x0409 c [min 0xFFFFFFFF (u.seg (cmdNat c 1) (cmdNat c 2)).runway, (u.seg (cmdNat c 1) (cmdNat c 2)).nextPage] u)) ∧
  (∀ t c s, Taken { op := 0x040A, argw := 5, states := activeStates } t c s → libStoreFail c (atTime t s) = none →
    bitOf (cmdNat c 1) 31 = true ∨ cmdNat c 4 = 0 →
    exec (.libStore t c) s = ends t s (let u := atTime t s
      let area := match stagingArea (cmdDword c 2) (cmdNat c 4) u with | some i => i + 1 | none => 0
      opened 0x040A c [cmdNat c 1 % 4096, if cmdNat c 4 = 0 then 0 else area] u)) ∧
  (∀ t c s i h v, Taken { op := 0x040A, argw := 5, states := activeStates } t c s → libStoreFail c (atTime t s) = none →
    bitOf (cmdNat c 1) 31 = false → cmdNat c 4 ≠ 0 → stagingArea (cmdDword c 2) (cmdNat c 4) (atTime t s) = some i →
    dramRead 7 (addrIn (cmdDword c 2)) 16 (atTime t s) = (some h, v) → libHeaderOk h (cmdNat c 4) = true →
    ((atTime t s).libPlace (cmdNat c 1 % 4096) (16 + fieldAt h 8 4)).isSome →
    exec (.libStore t c) s = ends t s (opened 0x040A c [cmdNat c 1 % 4096, i + 1] v)) ∧
  (∀ t q o s, Open 0x040A q o t s → bitOf (cmdNat o.cmd 1) 31 = false → (atTime t s).libUsed (cmdNat o.cmd 1 % 4096) = false →
    cmdNat o.cmd 4 = 0 →
    exec (.libStoreDone t q) s = completes t s (finish o stOk 0 [] (setLib (cmdNat o.cmd 1 % 4096) none (atTime t s)))) ∧
  (∀ t q o s bs v w, Open 0x040A q o t s → bitOf (cmdNat o.cmd 1) 31 = false → (atTime t s).libUsed (cmdNat o.cmd 1 % 4096) = false →
    cmdNat o.cmd 4 ≠ 0 → o.lockLost = false →
    dmaFetch (cmdDword o.cmd 2) (cmdNat o.cmd 4) (atTime t s) = (.bytes bs, v) → claimUnit3 o v = .ok w →
    exec (.libStoreDone t q) s = completes t s (let e := cmdNat o.cmd 1 % 4096
      if crc32c bs ≠ o.cmd.w 5 then finish o stIntegrity 0 [] w
      else match w.libPlace e (16 + fieldAt bs 8 4) with
      | some a =>
        let r := storeChecked a bs (o.cmd.w 5) w
        if r.1 then finish o stOk 0 [] (setLib e (some { width := fieldAt bs 0 4, lines := fieldAt bs 4 4, streamLen := fieldAt bs 8 4,
                                                         stored := cmdNat o.cmd 4 - 16, addr := a }) r.2)
        else finish o stIntegrity 0 [] r.2
      | none => finish o stNoResource 0 [] w)) ∧
  (∀ t q o s bs v w x, Open 0x040A q o t s → bitOf (cmdNat o.cmd 1) 31 = true → o.lockLost = false →
    dmaFetch (cmdDword o.cmd 2) (cmdNat o.cmd 4) (atTime t s) = (.bytes bs, v) → claimUnit3 o v = .ok w →
    w.lib.lookup (cmdNat o.cmd 1 % 4096) = some x → x.stored + cmdNat o.cmd 4 ≤ x.streamLen →
    exec (.libStoreDone t q) s = completes t s (
      let r := storeChecked (x.addr + 16 + x.stored) bs (o.cmd.w 5) w
      if r.1 then finish o stOk 0 [] (setLib (cmdNat o.cmd 1 % 4096) (some { x with stored := x.stored + cmdNat o.cmd 4 }) r.2)
      else finish o stIntegrity 0 [] r.2)) ∧
  (∀ t c s, Taken { op := 0x040B, argw := 2, states := [.ready], needsJob := true } t c s → jobRestoreFail c (atTime t s) = none →
    snapsFail c (readSnaps (cmdNat c 2) (atTime t s)).1 (readSnaps (cmdNat c 2) (atTime t s)).2 = none →
    exec (.jobRestore t c) s = ends t s (opened 0x040B c [0x100, 0] (readSnaps (cmdNat c 2) (atTime t s)).2)) ∧
  (∀ t q o j s, Open 0x040B q o t s →
    let snaps := readSnaps (cmdNat o.cmd 2) (atTime t s)
    snapsFail o.cmd snaps.1 snaps.2 = none →
    let segs := snaps.2.jobSegs
    let r := forEach segs snaps.2 fun e x => loadSnap e.1 e.2 (cmdNat o.cmd 2) x
    let jc := segs.foldl (fun (m : Int) e => max m (r.seg e.1 e.2).y) ((segs.head?.map fun e => (r.seg e.1 e.2).y).getD 0)
    let d := forEach segs r fun e x => decodeTo ((jc - (x.seg e.1 e.2).y).toNat + 1) e.1 e.2 jc x
    d.job = some j → (∀ e ∈ segs, (d.seg e.1 e.2).ends = [] ∧ (d.seg e.1 e.2).y = jc) →
    exec (.jobRestoreDone t q) s = completes t s (
      let h := forEach segs d fun e x => x.setSeg e.1 e.2 { x.seg e.1 e.2 with
          home := ((x.seg e.1 e.2).page, (x.seg e.1 e.2).pageStart, jc, (x.seg e.1 e.2).dec, (x.seg e.1 e.2).blockStart) }
      let k := match h.job with | some i => h.setJob (some { i with jc := some jc, shift := 0 }) | none => h
      finish o stOk 0 (twoWords (wrapInt 64 jc)) (showShift { k with kept := k.kept.filter fun e => !segs.contains (e.1 / 128, e.1 % 128) })))

/-- R202, R205, R208, R213, R214, R223, R226: the cadence commands and the read of `CAD_POSLO`. Input `ENC1` and input `MARK1` lie on
balls that must be claimed first (R202). -/
def Obligations.CadenceCommandsComplete : Prop :=
  (∀ t c s, Taken { op := 0x0501, argw := 4, states := [.ready] } t c s → cadConfigFail c (atTime t s) = none →
    (cmdNat c 1 = 1 → (claimFor false 0 2 (atTime t s)).1 = true) →
    exec (.cadConfig t c) s = ends t s (
      let e := cmdNat c 1
      let u := if e = 1 then (claimFor false 0 2 (atTime t s)).2 else atTime t s
      let v := (((u.put R.cadCtrl_FWWIN (cmdNat c 3)).put R.cadCtrl_INV (cmdNat c 4)).put R.cadCtrl_ENC e).put R.cadPitch_K (cmdNat c 2)
      let w := if u.cad.selected = some (decide (e = 1)) then v else selectEncoder v
      ok 0x0501 c [] (rebase (w.setCad { w.cad with selected := some (decide (e = 1)) })))) ∧
  (∀ t c s, Taken { op := 0x0502, argw := 4, states := [.ready] } t c s → cadSpeedFail c (atTime t s) = none →
    exec (.cadSpeed t c) s = ends t s (ok 0x0502 c [] (((((atTime t s).put R.cadWarncfg_WARNPER (cmdNat c 1)).put
      R.cadWarncfg_HORIZON (cmdNat c 2)).put R.cadFirecfg_SLACK (cmdNat c 3)).put R.cadFirecfg_MINPER (cmdNat c 4)))) ∧
  (∀ t c s, Taken { op := 0x0503, argw := 8, states := [.ready] } t c s → cadMarkFail c (atTime t s) = none →
    (cmdNat c 3 = 2 → (claimFor false 1 2 (atTime t s)).1 = true) →
    exec (.cadMark t c) s = ends t s (
      let u := if cmdNat c 3 = 2 then (claimFor false 1 2 (atTime t s)).2 else atTime t s
      ok 0x0503 c [] (u.setSeg (cmdNat c 1) (cmdNat c 2) { u.seg (cmdNat c 1) (cmdNat c 2) with
        src := cmdNat c 3, u := cmdNat c 4, win := cmdNat c 5, slew := cmdNat c 6, missLimit := cmdNat c 7, pageLen := cmdNat c 8 }))) ∧
  (∀ t c s, Taken { op := 0x0504, argw := 0, states := anyState } t c s →
    exec (.cadStatus t c) s = ends t s (let u := atTime t s
      ok 0x0504 c (twoWords (wrapInt 64 (signed 40 (wrapInt 40 u.cad.pos))) ++
        [u.get R.cadLineper_TN, b2n u.cadLocked + 2 * b2n (decide (u.fwNow = .reversed)) + 4 * b2n u.cad.warn]) u)) ∧
  (∀ t m s, Awake t s →
    exec (.cadPosloRead t m) s = becomes t s (let u := asked m t s
      let v := [wrapInt 40 u.cad.pos, wrapInt 40 u.cad.hw, wrapInt 40 u.cad.zpos, wrapInt 64 u.fire]
      (u.setCad { u.cad with caps := nset [] u.cad.caps m.num v }).emit (.readData (BitVec.ofNat 32 (wrapInt 40 u.cad.pos)))))

/-- R203 to R213, R223 to R228: the events of the encoder and the marks, and what the unit does at a line start. -/
def Obligations.CadenceEventsAct : Prop :=
  (∀ t s, Awake t s → s.cad.selected ≠ none → s.cad.locked = false → s.follows = false →
    (atTime t s).cad.lockFrom + 1000000000 ≤ (atTime t s).now →
    exec (.cadenceLock t) s = becomes t s (let u := atTime t s
      let v := u.setCad { u.cad with locked := true, fault := false, markSeq := 0, recChanged := true }
      if u.cad.everLocked = true then v else startLine 0 (v.setCad { v.cad with everLocked := true, p0 := u.cad.pos, fbase := 0 }))) ∧
  (∀ t enc a b s, Awake t s → s.counts enc = true → ¬(s.cad.a = a ∧ s.cad.b = b) →
    armedFor 10 (b2n enc) s = false → armedFor 11 (b2n enc) s = false → armedFor 12 (b2n enc) s = false →
    exec (.encoderCount t enc a b) s = becomes t s (let u := tellEncoder enc a b (atTime t s)
      let v := u.setCad { u.cad with a := a, b := b, changes := u.cad.changes + 1 }
      let d := quadStep u.cad.a u.cad.b a b * (if u.flag R.cadCtrl_INV = true then -1 else 1)
      let w := if d = 0 then illegalCount false false v else countBy d false v
      if armedFor 12 (b2n enc) w = true ∧ w.dev = .printing then
        feed (List.replicate (w.get R.cadCtrl_FWWIN + 1) (-1) ++ List.replicate (w.get R.cadCtrl_FWWIN + 1) 1) (disarm w) else w)) ∧
  (∀ t enc s, Awake t s → s.counts enc = true →
    exec (.zEdge t enc) s = becomes t s (let u := if enc then ((atTime t s).tellBall 4 true).tellBall 5 false else atTime t s; u.setCad { u.cad with zpos := u.cad.pos })) ∧
  (∀ t s, Awake t s → s.follows = false → s.cad.still = false →
    (2 ^ 20 ≤ (atTime t s).tick - s.cad.tc ∨ ∃ p, s.cad.tc8 = some p ∧ p ≤ ((atTime t s).tick - s.cad.tc) * 16) →
    exec (.standstill t) s = becomes t s (let u := atTime t s; let v := keepPast (noteE (u.tick - 1) (fallLine u))
      fallLine (endCount (v.setCad { v.cad with still := true })))) ∧
  (∀ t s, Awake t s →
    exec (.markEdge t false) s = becomes t s (let u := atTime t s; let e := u.eAt (u.tick - 39)
      markActs 1 (u.fireOf e) (u.setCad { u.cad with markPos := Int.fdiv e 65536, markSeq := (u.cad.markSeq + 1) % 2 ^ 32, recChanged := true }))) ∧
  (∀ t s, Awake t s → s.owner false 1 = 2 →
    exec (.markEdge t true) s = becomes t s (let u := (atTime t s).tellBall 6 true; markActs 2 (u.fireOf (u.eAt (u.tick - 39))) u)) ∧
  (∀ t (ch : Chan) (g : Seg) ye s, Awake t s → (s.seg ch g).ye = some ye → s.dev = .printing ∨ s.dev = .armed → s.inJob ch (s.seg ch g) = true →
    (atTime t s).fixLine ch g ye ≤ (atTime t s).fire →
    exec (.boundaryFix t ch g) s = becomes t s (fixBoundary ch g ye (atTime t s))) ∧
  (∀ t s, Awake t s → s.cad.everLocked = true → (atTime t s).reached (s.cad.line + 1) 0 = true →
    exec (.lineStart t) s = becomes t s (reads [0, 1, 2, 3, 7, 21] (injectMarks (startLine (s.cad.line + 1) (atTime t s)))))

/-- R230 to R233, R300 to R303: a master of cadence sends records; a follower takes them, holds its position when they stop coming, and
EDGE and HALT packets reach their job. -/
def Obligations.CadenceChainActs : Prop :=
  (∀ t s, Awake t s → s.get R.cadCtrl_ROLE = 1 → s.lineLocked = true →
    (∀ u, s.fab.recAt = some u → u + 250000 ≤ (atTime t s).now) →
    exec (.cadenceRecordSend t) s = becomes t s (let u := atTime t s
      let config := u.cad.recChanged || decide (u.cad.recCount % 256 = 0)
      let v := broadcast 0x01 0 (cadenceBody config u) u
      let w := v.setFab { v.fab with recAt := some v.now }
      w.setCad { w.cad with recCount := w.cad.recCount + 1, recChanged := false })) ∧
  (∀ t (q : FabPort) p s, Awake t s → (atTime t s).kicking = false → s.fw.running = true →
    exec (.cadencePacket t q p) s = becomes t s (reads [18, 19] (receive q p (fun p => decide (p.ty = 0x01)) (tc0 fun u =>
      if u.follows = false ∨ armedFor 15 0 u = true then u else takeRecord p u) (atTime t s)))) ∧
  (∀ t (q : FabPort) p s, Awake t s → (atTime t s).kicking = false → s.fw.running = true →
    exec (.edgePacket t q p) s = becomes t s (reads [18, 19] (receive q p (fun p => decide (p.ty = 0x02)) (tc0 (takeEdge p)) (atTime t s)))) ∧
  (∀ t (q : FabPort) p s, Awake t s → (atTime t s).kicking = false → s.fw.running = true →
    exec (.haltPacket t q p) s = becomes t s (reads [18, 19] (receive q p (fun p => decide (p.ty = 0x03)) (tc0 (takeHalt p)) (atTime t s)))) ∧
  (∀ t s, Awake t s → s.follows = true → s.cad.held = none → s.cad.followFrom + 8000000 ≤ (atTime t s).now →
    (∀ r, s.cad.rcd = some r → r.arrived + 8000000 ≤ (atTime t s).now) →
    exec (.cadRecordLost t) s = becomes t s (let u := atTime t s
      let m := meets 15 0 true u
      let v := raise 15 0 none 0 m.2.1 m.2.2
      let w := v.setCad { v.cad with held := some u.e }
      if w.dev = .printing then haltAtLine (w.cad.line + 1) 0 w else w))

/-- R201, R239, R244, R252, R254, R258: the commands of group 0x06 on ports, and the ends of the two E commands. -/
def Obligations.HeadCommandsComplete : Prop :=
  (∀ t c s, Taken { op := 0x0601, argw := 5, states := [.ready] } t c s → hpConfigFail c (atTime t s) = none →
    exec (.hpConfig t c) s = ends t s (let p := cmdNat c 1; let u := catchUp p (atTime t s)
      let v := (((u.put R.hptPcfg_RATE (cmdNat c 2) p).put R.hptPcfg_MODULES (cmdNat c 3) p).put R.hptPcfg_SOSWIN (cmdNat c 5) p).put
        R.hptBaseoff_BASE (cmdNat c 4) p
      ok 0x0601 c [] (headRate p (s.get R.hptPcfg_RATE p) (loadTxeq p (cmdNat c 2) (v.setPort p { v.port p with conf := true }))))) ∧
  (∀ t c s, Taken { op := 0x0602, argw := 5, states := [.ready] } t c s → hpRowgroupFail c (atTime t s) = none →
    exec (.hpRowgroup t c) s = ends t s (let p := cmdNat c 1; let r := cmdNat c 2
      ok 0x0602 c [] (((((atTime t s).put R.hptRg_OFFSET (cmdNat c 3) p r).put R.hptRg_STROBE (cmdNat c 4) p r).put
        R.hptRg_PHASE (cmdNat c 5) p r).put R.hptRg_CONF 1 p r))) ∧
  (∀ t c s, Taken { op := 0x0603, argw := 4, states := [.ready, .armed] } t c s → hpStrobeFail c (atTime t s) = none →
    exec (.hpStrobe t c) s = ends t s (let u := (atTime t s).put R.hptStrobe_W0 (cmdNat c 3) (cmdNat c 1) (cmdNat c 2)
      ok 0x0603 c [] (if cmdNat c 4 = 0 then u else u.put R.hptVnom_V0 (cmdNat c 4) (cmdNat c 1)))) ∧
  (∀ t c s i, Taken { op := 0x0604, argw := 5, states := [.ready, .armed] } t c s → hpTemptableFail c (atTime t s) = none →
    stagingArea (cmdDword c 2) 64 (atTime t s) = some i →
    exec (.hpTemptable t c) s = ends t s (opened 0x0604 c [cmdNat c 1, i + 1] (atTime t s))) ∧
  (∀ t q o s bs v, Open 0x0604 q o t s → o.lockLost = false → dmaFetch (cmdDword o.cmd 2) 64 (atTime t s) = (.bytes bs, v) →
    crc32c bs = o.cmd.w 5 →
    exec (.hpTemptableDone t q) s = completes t s (
      let entry (i : Nat) : Nat := fieldAt bs (4 * i) 4
      if strictlyUp ((List.range 16).map fun i => signed 16 (entry i)) = false then finish o stBadArgument 0x0B05 [] v
      else finish o stOk 0 [] (forEach (List.range 16) v fun i x =>
        (x.put R.hptTt_TEMP (entry i % 65536) (cmdNat o.cmd 1) i).put R.hptTt_FACT (entry i / 65536) (cmdNat o.cmd 1) i))) ∧
  (∀ t c s, Taken { op := 0x0605, argw := 2, states := [.ready] } t c s → hpLinkFail c (atTime t s) = none → cmdNat c 2 = 0 →
    exec (.hpLink t c) s = ends t s (let p := cmdNat c 1
      let u := laneOff p (headDown p false ((openE 0x0605 c [p, (atTime t s).get R.hptPcfg_UP p, 0] (atTime t s)).put R.hptPcfg_UP 0 p))
      ok 0x0605 c [] (u.setPort p { u.port p with upSince := 0 }))) ∧
  (∀ t c s, Taken { op := 0x0605, argw := 2, states := [.ready] } t c s → hpLinkFail c (atTime t s) = none → cmdNat c 2 = 1 →
    exec (.hpLink t c) s = ends t s (let p := cmdNat c 1
      let u := openE 0x0605 c [p, (atTime t s).get R.hptPcfg_UP p, 0] (atTime t s)
      ok 0x0605 c [] (if u.flag R.hptPstat_LINKUP p = true then
          configModules p (u.setPort p { u.port p with answered := 0, askedAt := u.now })
        else settlePlls (u.put R.hptPcfg_UP 1 p)))) ∧
  (∀ t q o s, Open 0x0605 q o t s → cmdNat o.cmd 2 = 0 →
    exec (.hpLinkDone t q) s = completes t s (finish o stOk 0 [0] (atTime t s))) ∧
  (∀ t q o s, Open 0x0605 q o t s → cmdNat o.cmd 2 ≠ 0 → s.flag R.hptPstat_LINKUP (cmdNat o.cmd 1) = true →
    (∀ m, m < s.get R.hptPcfg_MODULES (cmdNat o.cmd 1) → bitOf (s.port (cmdNat o.cmd 1)).answered m = true) ∨
      (s.port (cmdNat o.cmd 1)).askedAt + 10000000000 ≤ (atTime t s).now →
    exec (.hpLinkDone t q) s = completes t s (finish o stOk 0 [(s.port (cmdNat o.cmd 1)).answered] (atTime t s)))

/-- R19, R114, R262, R263: the ledger's commands and timers. The ring that stood before an orderly reset goes on where it stood, and records
held follow into whichever ring is set (model's reading, log entry 24). -/
def Obligations.LedgerCommandsComplete : Prop :=
  (∀ t c s, Taken { op := 0x0606, argw := 4, states := [.ready] } t c s → ledgerConfigFail c (atTime t s) = none → s.ledger.was = none →
    exec (.ledgerConfig t c) s = ends t s (let u := atTime t s
      let v := (((u.put R.hptLdbase_ADDR (cmdDword c 1 / 32)).put R.hptLdsize_SIZE (cmdNat c 3)).put R.hptLdwr_WR 0).put R.hptLdrd_RD 0
      let w := v.setLedger { u.ledger with was := none, threshold := cmdNat c 4, seq := 0, fresh := 0, freshSince := none }
      ok 0x0606 c [] (drainLedger w.ledgerHeld w))) ∧
  (∀ t c a n wr rd s, Taken { op := 0x0606, argw := 4, states := [.ready] } t c s → ledgerConfigFail c (atTime t s) = none →
    s.ledger.was = some (a, n, wr, rd) → a = cmdDword c 1 → n = cmdNat c 3 →
    exec (.ledgerConfig t c) s = ends t s (let u := atTime t s
      let v := (((u.put R.hptLdbase_ADDR (cmdDword c 1 / 32)).put R.hptLdsize_SIZE (cmdNat c 3)).put R.hptLdwr_WR wr).put R.hptLdrd_RD rd
      let w := v.setLedger { u.ledger with was := none, threshold := cmdNat c 4, seq := 0, fresh := 0, freshSince := none }
      ok 0x0606 c [] (drainLedger w.ledgerHeld w))) ∧
  (∀ t c s, Taken { op := 0x0607, argw := 1, states := anyState } t c s → ledgerAdvanceFail c (atTime t s) = none →
    exec (.ledgerAdvance t c) s = ends t s (let u := (atTime t s).put R.hptLdrd_RD (cmdNat c 1)
      let v := drainLedger u.ledgerHeld u
      ok 0x0607 c [v.get R.hptLdwr_WR] v)) ∧
  (∀ t s, Awake t s →
    exec (.ledgerRecordLimit t) s = becomes t s (let u := atTime t s
      forEach (sortRuns (u.ledger.runs.filter fun r => decide (r.opened + 1000000000 ≤ u.now))) u fun r x => closeRun r (!x.broken r) x)) ∧
  (∀ t s since, Awake t s → s.ledger.freshSince = some since → since + 10000000000 ≤ (atTime t s).now →
    exec (.ledgerNewTimer t) s = becomes t s (ledgerNew (atTime t s)))

/-- R27, R246 to R257, R260, R382: a line's frame, its confirmation and its strobes, each at the instant its row stands for. A strobe of a
line that fires late across a pause stays low (log entry 89). -/
def Obligations.FiringActs : Prop :=
  (∀ t (p : Port) x s, Awake t s → s.flag R.hptPstat_ARMED p = true → s.flag R.hptPstat_LINKUP p = true →
    (let u := atTime t s
     let f := u.frameLine p
     u.laneTested p = false ∧ u.frameWanted f = true ∧ (∀ y, (s.port p).frame = some y → y.f < f) ∧ u.startOf f = some x ∧
       x ≤ u.now + u.sosWindow p ∧ u.codesWait p f = false ∧ u.strobesBusy p f = false) →
    exec (.lineFrameSend t p) s = becomes t s (reads [0, 20] (sendLine p ((atTime t s).frameLine p) (atTime t s)))) ∧
  (∀ t (p : Port) x s, Awake t s → armedFor 17 p s = false → (s.port p).frame = some x → (atTime t s).awaits p = true →
    exec (.sosEdge t p) s = becomes t s (let u := atTime t s
      traceFire p x.f 5 (u.setPort p { u.port p with frame := some { x with awaiting := false, sosAt := some u.sosTick } }))) ∧
  (∀ t (p : Port) s, Awake t s → armedFor 17 p s = false → (s.port p).frame = none →
    exec (.sosEdge t p) s = becomes t s (raise 17 p none 0 false ((atTime t s).bump R.hptLinkerr_SPURIOUS p))) ∧
  (∀ t (p : Port) x l s, Awake t s → (s.port p).frame = some x → s.cad.cur = some l → l.f = x.f →
    l.fired < (atTime t s).now + 37500 → s.printing = true →
    exec (.sosWindowClose t p) s = becomes t s (settleRuns (judgeTo p l (atTime t s)))) ∧
  (∀ t (p : Port) (k : StrobeIx) l s, Awake t s → (atTime t s).strobeLine p k = some l → s.fwNow ≠ .reversed →
    exec (.strobeDue t p k) s = becomes t s (let u := atTime t s
      if u.flag R.hptPstat_ARMED p = true ∧ u.printing = true then endAfterStrobe (dueStrobe p k l u) else passStrobe p k l.f u)) ∧
  (∀ t (p : Port) (k : StrobeIx) s, Awake t s → (s.strobe p k).genHigh = true →
    (s.strobe p k).riseAt + (s.strobe p k).width * 1250 ≤ (atTime t s).now →
    exec (.strobeFall t p k) s = becomes t s (let u := atTime t s; let x := u.strobe p k
      let v := u.setStrobe p k { x with high := false, genHigh := false, fallAt := if x.high = true then u.now else x.fallAt }
      endAfterStrobe (if x.high = true then v.emit (.strobeFall p k) else v))) ∧
  (∀ t (p : Port) (k : StrobeIx) m s, Awake t s → wdFault (atTime t s) p k = false →
    meets 24 (4 * p + k) ((s.strobe p k).high && decide ((s.strobe p k).riseAt + s.get R.rdgPortTime_WDLIM p * 2500 < (atTime t s).now))
      (atTime t s) = (true, m) →
    exec (.strobeWatchdog t p k) s = becomes t s (
      let z := s.strobe p k
      let v := if z.high = true then (m.2.setStrobe p k { z with high := false, fallAt := m.2.now }).emit (.strobeFall p k) else m.2
      let w := v.setReg ⟨.hptWdfault, p / 8, 0⟩ (v.reg ⟨.hptWdfault, p / 8, 0⟩ ||| BitVec.ofNat 32 (2 ^ wdBit p k))
      let x := raise 24 (4 * p + k) none 0 m.1 w
      let y := match z.lastLine with
        | some f => if z.high = true then ledgerLine p 0xFF 7 true f (x.firedAt f) x else x
        | none => x
      endAfterStrobe (if y.flag R.rdgPstat_WDDROP p = true ∧ (y.flag R.hptPstat_ARMED p = true ∨ bitOf (y.get R.rdgHpen_GRANT) p = true) then
        tripPort p y else y))) ∧
  (∀ t s, Awake t s → (∀ e r, (s.port 0).widths = e :: r → e.1 + 1000000000 ≤ (atTime t s).now) →
    exec (.widthCompute t) s = becomes t s (let u := atTime t s
      forEach (List.range 16) { u with snsCfg := u.regs.filter fun e => decide (e.1.k = .snsPortcfg ∨ e.1.k = .snsThtab) } computePort)) ∧
  (∀ t (p : Port) s, Awake t s → s.flag R.hptPstat_ARMED p = true ∨ bitOf (s.get R.rdgHpen_GRANT) p = true →
    (s.port p).thetaAt + 5000000000 ≤ (atTime t s).now →
    exec (.ridgeThetaTimeout t p) s = becomes t s (tripPort p (atTime t s)))

/-- R236, R241 to R244, R250: the link of a port and its telemetry; a data block outside a frame counts as a frame discarded (log entry 25). -/
def Obligations.HeadLinkActs : Prop :=
  (∀ t (p : Port) aseq sender s, Awake t s → s.flag R.hptPcfg_UP p = true → s.flag R.lnsStat_LOCK p = true →
    s.laneTested p = false → armedFor 19 p s = false →
    exec (.headAlignBlock t p aseq sender) s = becomes t s (let u := atTime t s; let h := u.port p
      let run := if h.aseqRun ≠ 0 ∧ aseq.toNat = (h.lastAseq + 1) % 65536 then min 4 (h.aseqRun + 1) else 1
      settleLink p (u.setPort p { h with
        aseqRun := run, lastAseq := aseq.toNat, lastAlign := u.now, rxUp := h.rxUp || decide (4 ≤ run),
        farUp := decide (sender.toNat = 0xF0 + u.get R.hptPcfg_MODULES p - 1) }))) ∧
  (∀ t (p : Port) s, Awake t s → (s.port p).rxUp = true → (s.port p).lastAlign + 8192 * blockPs (s.laneRate p) ≤ (atTime t s).now →
    armedFor 19 p s = false →
    exec (.headLinkDown t p) s = becomes t s (headDown p false (atTime t s))) ∧
  (∀ t (p : Port) before blocks s, Awake t s → s.flag R.hptPcfg_UP p = true → s.laneTested p = false → armedFor 20 p s = false →
    exec (.telemetryFrame t p ⟨before, blocks⟩) s = becomes t s (forEach (offLane before blocks) (atTime t s) fun b x => takeBlock p b x)) ∧
  (∀ (p : Port) b start data blocksOk s, blockKind b = .fin → (s.port p).rx = some (start, data, blocksOk) → armedFor 16 p s = false →
    takeBlock p b s = (let u := s.setPort p { s.port p with rx := none }
      if blocksOk = true ∧ ((blockBytes b).drop 1).take 4 = leBytes 4 (crc32c (start ++ data)).toNat ∧ start.headD 0 = 3 ∧ data.length = 16 then
        takeTelemetry p start data u
      else raise 16 p none 0 false (u.bump R.hptLinkerr_FRAMEERR p))) ∧
  (∀ (p : Port) b s, blockKind b = .data → (s.port p).rx = none →
    takeBlock p b s = raise 16 p none 0 false (s.bump R.hptLinkerr_FRAMEERR p)) ∧
  (∀ t (p : Port) (m : Fin 8) s, Awake t s → s.flag R.hptPcfg_UP p = true → (s.port p).upSince ≠ 0 →
    m.val < s.get R.hptPcfg_MODULES p → (s.port p).lostRaised.contains m.val = false →
    (∀ x, (s.port p).tel.lookup m.val = some x → x.at_ + 10000000000 ≤ (atTime t s).now) →
    (s.port p).upSince + 10000000000 ≤ (atTime t s).now → armedFor 20 p s = false →
    exec (.moduleLost t p m) s = becomes t s (let u := atTime t s
      raise 20 p none 0 false (u.setPort p { u.port p with lostRaised := m.val :: (u.port p).lostRaised })))

/-- R103, R185, R230, R293 to R295, R310: the commands of group 0x07, and the ends of discovery and of a forwarded command. An inner
message is read from this member's memory. -/
def Obligations.ChainCommandsComplete : Prop :=
  (∀ t c s, Taken { op := 0x0701, argw := 0, states := [.ready] } t c s → chainDiscoverFail c (atTime t s) = none →
    exec (.chainDiscover t c) s = ends t s (let u := atTime t s
      let p := match u.fab.parentPort with | some k => k | none => 4
      ok 0x0701 c [] (probePorts [] 7 ((openE 0x0701 c [0, p, 0] u).setFab { u.fab with found := [], foundLinks := [] })))) ∧
  (∀ t q o rootId held s, Open 0x0701 q o t s → rootId = (if (atTime t s).memberId = 0 then 1 else (atTime t s).memberId) →
    held = ((atTime t s).uid, rootId) :: (s.fab.found.filter fun n => decide (n.cur ≠ 0)).map (fun n => (n.uid, n.cur)) →
    (∀ a ∈ held, ∀ b ∈ held, a.2 = b.2 → a.1 = b.1) → (∀ n ∈ s.fab.found, ¬(bitOf n.flags 0 = true ∧ bitOf n.flags 1 = true)) →
    s.fab.found.length < 250 →
    exec (.chainDiscoverDone t q) s = completes t s (let u := atTime t s
      let v := u.setFab { u.fab with found := [], foundLinks := [], nodes := u.fab.found, parentPort := none }
      let T := v.tree u.fab.foundLinks rootId held
      let w := setChain true u.fab.foundLinks rootId T (v.setFab { v.fab with
        members := v.fab.members.filter fun m => T.any fun x => decide (x.uid = m.uid)
        plan := [] })
      let d := listMax (u.fab.foundLinks.map fun e => w.linkDelay e.1 e.2)
      finish o stOk 0 [T.length, min 249 ((w.get R.fabLookahead_NS - 4000) * 16 / (2 * (3040 + d)))] w)) ∧
  (∀ t q o n s, Open 0x0701 q o t s → n ∈ s.fab.found → bitOf n.flags 0 = true → bitOf n.flags 1 = true →
    exec (.chainDiscoverDone t q) s = completes t s (let u := atTime t s
      finish o stConflict 0 [] (u.setFab { u.fab with
        found := [], foundLinks := [], parentPort := if o.data.getD 1 4 < 4 then some (o.data.getD 1 4) else none }))) ∧
  (∀ t c s, Taken { op := 0x0702, argw := 1, states := anyState } t c s → 1 ≤ cmdNat c 1 → cmdNat c 1 ≤ 250 →
    exec (.chainStatus t c) s = ends t s (let u := atTime t s
      let ws := match u.fab.members.find? fun m => decide (m.id = cmdNat c 1) with
        | some m => [m.mode, m.proto, if m.path = [] then 0 else m.hop / 16 + 150]
        | none => if cmdNat c 1 = u.memberId then [u.get R.fabState_MODE, u.chainProto, 0] else [0, 0, 0]
      ok 0x0702 c ws u)) ∧
  (∀ t c s bs v, Taken { op := 0x0703, argw := 6, states := anyState } t c s → chainForwardFail c (atTime t s) = none →
    fetch 7 (cmdDword c 2) (4 * cmdNat c 4) (atTime t s) = (.bytes bs, v) →
    ((bytesWords bs).getD 0 0).toNat / 65536 ∉ eOpcodes →
    exec (.chainForward t c) s = ends t s (
      let p := sendPost (cmdNat c 1) (bytesWords bs) false (doneWith (cmdDword c 2) (4 * cmdNat c 4) v)
      opened 0x0703 c [p.1, destMark (cmdDword c 5) 64 (doneWith (cmdDword c 2) (4 * cmdNat c 4) v)] p.2)) ∧
  (∀ t q o e s, Open 0x0703 q o t s → forwardEnd o (atTime t s) = some e →
    exec (.chainForwardDone t q) s = completes t s (finish o e.1 0 e.2 (setOp (o.data.headD 0) none (atTime t s)))) ∧
  (∀ t c s, Taken { op := 0x0704, argw := 1, states := [.ready] } t c s → chainCadenceFail c (atTime t s) = none → cmdNat c 1 = 0 →
    s.get R.cadCtrl_ROLE ≠ 1 →
    exec (.chainCadence t c) s = ends t s (let u := endCount ((atTime t s).put R.cadCtrl_ROLE 1)
      ok 0x0704 c [] (u.setCad { u.cad with
        rcd := none, held := none, recCount := 0, recChanged := true, lockFrom := if u.cad.locked = true then u.cad.lockFrom else u.now }))) ∧
  (∀ t c s, Taken { op := 0x0704, argw := 1, states := [.ready] } t c s → chainCadenceFail c (atTime t s) = none → cmdNat c 1 = 1 →
    s.get R.cadCtrl_ROLE ≠ 2 →
    exec (.chainCadence t c) s = ends t s (let u := endCount ((atTime t s).put R.cadCtrl_ROLE 2)
      ok 0x0704 c [] (u.setCad { u.cad with
        rcd := none, rcfg := none, held := none, everLocked := false, locked := false, cur := none, prev := none, older := [], eMax := 0,
        followFrom := u.now, past := [] }))) ∧
  (∀ t c s, Taken { op := 0x0704, argw := 1, states := [.ready] } t c s → chainCadenceFail c (atTime t s) = none →
    s.get R.cadCtrl_ROLE = cmdNat c 1 + 1 → exec (.chainCadence t c) s = ends t s (ok 0x0704 c [] (atTime t s))) ∧
  (∀ t c s, Taken { op := 0x0705, argw := 4, states := [.ready] } t c s → chainEdgeFail c (atTime t s) = none →
    exec (.chainEdge t c) s = ends t s (let u := atTime t s; let x := u.chan (cmdNat c 1)
      let e := some (cmdNat c 3, cmdNat c 4)
      ok 0x0705 c [] (u.setChan (cmdNat c 1) (if cmdNat c 2 = 0 then { x with edgeL := e } else { x with edgeR := e }))))

/-- R289, R290: reads over the fabric and the proxy, for packets to this member, and the time limits of both. -/
def Obligations.FabricServicesAct : Prop :=
  (∀ t (q : FabPort) p s, ForMe q p t s → p.ty = 0x10 → exec (.readReq t q p) s = acted t s (serveRead p (atTime t s))) ∧
  (∀ t (q : FabPort) p s, ForMe q p t s → p.ty = 0x11 → exec (.readData t q p) s = acted t s (readData p (atTime t s))) ∧
  (∀ t tag r s, Awake t s → s.fab.reads = [r] → r.tag = tag → r.bad = false → r.tries = 0 → r.t0 + 2000000000 ≤ (atTime t s).now →
    exec (.tc1Timeout t tag) s = becomes t s (let u := atTime t s; serve (u.setFab { u.fab with reads := [{ r with bad := true }] }))) ∧
  (∀ t (q : FabPort) p s, ForMe q p t s → isProxy 1 p = true →
    exec (.proxyPost t q p) s = acted t s (serve (proxyServe (acceptPost p.src.toNat p.tag.toNat (proxyWords p) (atTime t s))))) ∧
  (∀ t (q : FabPort) p o s, ForMe q p t s → isProxy 2 p = true → answered 1 p s = some o → o.resp = [] →
    exec (.proxyResponse t q p) s = acted t s (let u := atTime t s
      storeAnswer o.tag 0 (proxyWords p) (setOp o.tag (some { o with resp := proxyWords p, sentAt := u.now }) u))) ∧
  (∀ t (q : FabPort) p o s, ForMe q p t s → isProxy 6 p = true → answered 1 p s = some o → o.done = [] → o.isE = true →
    exec (.proxyDone t q p) s = acted t s (storeAnswer o.tag 64 (proxyWords p) (setOp o.tag (some { o with done := proxyWords p }) (atTime t s)))) ∧
  (∀ t (q : FabPort) p s, ForMe q p t s → isProxy 3 p = true → 12 ≤ proxyCh p → proxyCh p ≤ 15 →
    exec (.proxyLockRead t q p) s = acted t s (let r := lockRead .proxy p.src.toNat (proxyCh p) (atTime t s)
      sendProxy 5 (proxyCh p) [r.1] p.src.toNat p.tag.toNat r.2)) ∧
  (∀ t (q : FabPort) p s, ForMe q p t s → isProxy 4 p = true → 12 ≤ proxyCh p → proxyCh p ≤ 15 →
    exec (.proxyLockRelease t q p) s = acted t s (sendProxy 5 (proxyCh p) [0] p.src.toNat p.tag.toNat (lockWrite .proxy (proxyCh p) 4 (atTime t s)))) ∧
  (∀ t (q : FabPort) p o s, ForMe q p t s → isProxy 5 p = true → s.fab.ops = [o] → o.tag = p.tag.toNat → o.dest = p.src.toNat → o.op = 3 ∨ o.op = 4 →
    exec (.proxyLockResult t q p) s = acted t s (let u := atTime t s; u.setFab { u.fab with ops := [] })) ∧
  (∀ t tag o s, Awake t s → s.proxyOpOf tag = some o → retryDue o (atTime t s) = true →
    exec (.proxyRetry t tag) s = becomes t s (let u := atTime t s
      sendProxy o.op o.ch o.words o.dest o.tag (setOp tag (some { o with tries := o.tries + 1, sentAt := u.now }) u)))

/-- R293, R305 to R307: MGMT packets that reach this member, and the root's own timers. -/
def Obligations.ManagementActs : Prop :=
  (∀ t (q : FabPort) p s, ForMe q p t s → isMgmt 1 p = true → mgmtStatus p = 0 → exec (.probe t q p) s = acted t s (answerProbe q p (atTime t s))) ∧
  (∀ t (q : FabPort) p s, ForMe q p t s → isMgmt 1 p = true → mgmtStatus p = 1 → exec (.probe t q p) s = acted t s (probed p (atTime t s))) ∧
  (∀ t (q : FabPort) p s, ForMe q p t s → isMgmt 2 p = true → mgmtStatus p = 0 →
    exec (.assign t q p) s = acted t s (applyAssign (mgmtBody p) (atTime t s))) ∧
  (∀ t (q : FabPort) p s, ForMe q p t s → isMgmt 3 p = true → mgmtStatus p = 0 →
    exec (.route t q p) s = acted t s (applyRoute (mgmtBody p) (atTime t s))) ∧
  (∀ t (q : FabPort) p s, ForMe q p t s → isMgmt 4 p = true → mgmtStatus p = 0 →
    exec (.heartbeat t q p) s = acted t s (let u := atTime t s
      sendMgmt 4 p.src.toNat 0 1 p.tag.toNat (List.replicate 63 0) [BitVec.ofNat 8 (u.get R.fabState_MODE)] u)) ∧
  (∀ t s, Awake t s → s.fw.running = true → s.isRoot = true → (∀ u, s.fab.beatAt = some u → u + 1000000000 ≤ (atTime t s).now) →
    exec (.heartbeatSend t) s = becomes t s (let u := atTime t s
      forEach (u.fab.members.filter fun m => decide (m.uid ≠ u.uid ∧ m.mode ≠ 6)) (u.setFab { u.fab with beatAt := some u.now }) fun m x =>
        let tag := (x.fab.msgTag + 1) % 65536
        sendMgmt 4 m.id 0 0 tag (List.replicate 63 0) [] (x.setFab { x.fab with msgTag := tag }))) ∧
  (∀ t id m s, Awake t s → (s.fab.members.find? fun m => decide (m.id = id.toNat ∧ m.uid ≠ s.uid)) = some m → s.isRoot = true →
    m.mode ≠ 6 → (m.kickEnded = none ∧ m.mode ≠ 5 ∧ m.heard + 3000000000 ≤ (atTime t s).now ∨
      ∃ u, m.kickEnded = some u ∧ u + 1000000000000 ≤ (atTime t s).now) →
    exec (.memberLost t id) s = becomes t s (let u := atTime t s
      let v := u.setFab { u.fab with members := u.fab.members.map fun x => if x.uid = m.uid then { x with mode := 6, kickEnded := none } else x }
      endMember m.id (broadcast 0x22 2 (mgmtPayload 6 0 0 0 (List.replicate 63 0) [BitVec.ofNat 8 m.id]) (memberEvent m.id 2 v)))) ∧
  (∀ t (q : FabPort) p s, ForMe q p t s → isMgmt 6 p = true → exec (.lost t q p) s = acted t s (endMember (fieldAt (mgmtBody p) 0 1) (atTime t s))) ∧
  (∀ t (q : FabPort) p s, ForMe q p t s → isMgmt 5 p = true → exec (.join t q p) s = acted t s (joined q p (atTime t s))) ∧
  (∀ t (q : FabPort) p s, ForMe q p t s → isMgmt 7 p = true → s.isRoot = true →
    exec (.break t q p) s = acted t s (let b := mgmtBody p
      breakReport (fieldAt b 0 1) (fieldAt b 1 1) (fieldAt b 2 1) (fieldAt b 3 1) (atTime t s)))

/-- R283, R284, R296, R297, R305, R309: the state of a fabric port, and chain time. -/
def Obligations.FabricPortsAndTimeAct : Prop :=
  (∀ t (q : FabPort) s, Awake t s → (atTime t s).kicking = false → s.flag R.fabPctrl_EN q = true → s.fabUp q = false →
    s.flag R.fabPstat_L0LOCK q = true → s.flag R.fabPstat_L1LOCK q = true → s.laneTested (16 + 2 * q) = false → s.laneTested (17 + 2 * q) = false →
    s.flag R.fabPstat_DESKEW q = true → s.aligned q = true →
    exec (.fabricPortUp t q) s = becomes t s (let u := atTime t s
      joinDue (reportBreak q 1 (u.get R.fabPstat_NID q) (showHold (u.put R.fabPstat_UP 1 q))))) ∧
  (∀ t (q : FabPort) s, Awake t s → s.fabUp q = true → mapGet 0 s.fab.aligns q.val + 4096 * blockPs (s.get R.fabPctrl_RATE q) ≤ (atTime t s).now →
    exec (.fabricPortDown t q) s = becomes t s (let u := ((atTime t s).put R.fabPstat_UP 0 q).put R.fabPstat_DESKEW 0 q
      let v := u.setFab { u.fab with
        tsync := u.fab.tsync.filter (fun e => decide (e.1 ≠ q)), alignRun := u.fab.alignRun.filter fun e => decide (e.1 ≠ q) }
      let w := { v with tx := { v.tx with queue := v.tx.queue.filter fun w => decide (w.port ≠ q) } }
      reportBreak q 0 (w.get R.fabPstat_NID q) (showHold (raise 28 q none 0 false w)))) ∧
  (∀ t (q : FabPort) aseq skewNs nid nport s, Awake t s → (atTime t s).kicking = false → s.flag R.fabPctrl_EN q = true →
    s.flag R.fabPstat_L0LOCK q = true → s.flag R.fabPstat_L1LOCK q = true → s.laneTested (16 + 2 * q) = false → s.laneTested (17 + 2 * q) = false →
    exec (.fabricAlign t q ⟨nid, nport⟩ ⟨aseq, skewNs⟩) s = becomes t s (let u := atTime t s; let old := u.get R.fabPstat_NID q
      let v := ((noteAlign q aseq.toNat skewNs u).put R.fabPstat_NID nid.toNat q).put R.fabPstat_NPORT nport.toNat q
      let a := (v.fab.kickOf.lookup q.val).getD 0
      if v.flag R.fabPstat_KICK q = true then
        (if nid = 0 ∨ nid.toNat = a then
          reportBreak q 3 a ((v.put R.fabPstat_KICK 0 q).setFab { v.fab with kickOf := v.fab.kickOf.filter fun e => decide (e.1 ≠ q.val) })
        else v)
      else if v.fabUp q = true ∧ old ≠ 0 ∧ nid ≠ 0 ∧ nid.toNat ≠ old then
        reportBreak q 2 old ((v.put R.fabPstat_KICK 1 q).setFab { v.fab with kickOf := (q.val, old) :: v.fab.kickOf })
      else v)) ∧
  (∀ t (q : FabPort) far (pair : AlignPair) s, (atTime t s).kicking = true →
    exec (.fabricAlign t q far pair) s = becomes t s (passAlign q far pair.aseq.toNat (atTime t s))) ∧
  (∀ (q : FabPort) a skew skew' s, (noteAlign q ((a + 2) % 65536) skew' (noteAlign q a skew s)).aligned q = true) ∧
  (∀ t (q : FabPort) s, Awake t s → (atTime t s).kicking = false → s.fabUp q = true →
    (∀ u, s.fab.tsyncAt.lookup q.val = some u → u + 16000000 ≤ (atTime t s).now) →
    exec (.tsyncSend t q) s = becomes t s (let u := atTime t s; let seq := (u.fab.tsyncSeq + 1) % 256
      let v := u.setFab { u.fab with
        tsyncAt := (q.val, u.now) :: u.fab.tsyncAt.filter fun e => decide (e.1 ≠ q)
        tsyncSeq := seq, tsync := (q.val, (seq, u.stamp)) :: u.fab.tsync.filter fun e => decide (e.1 ≠ q) }
      joinDue (sendPacket q (mkPkt 0x30 0 0 v.memberId 0 (tsyncBody 0 seq v.stamp 0 0)) v))) ∧
  (∀ t (q : FabPort) p s, Awake t s → (atTime t s).kicking = false → s.fw.running = true → s.fabUp q = true → armedFor 29 q s = false →
    pktCrcOk p = true → pktFormOk p = true → p.ttl ≠ 0 → p.ty = 0x30 →
    exec (.tsync t q p) s = acted t s (tsync q p (atTime t s))) ∧
  (∀ t m s, Awake t s →
    exec (.fabTimeloRead t m) s = becomes t s (let u := asked m t s
      (u.setFab { u.fab with timeCap := nset 0 u.fab.timeCap m.num u.chainTime }).emit (.readData (BitVec.ofNat 32 u.chainTime))))

/-- R391 to R403: the commands of group 0x09 and the motions they start. The master of a move is the axis with the most steps to go. A step comes
at an instant within its profile (`State.paced`, model's reading, log entry 14), and only on balls that the axis has. -/
def Obligations.MotionCommandsComplete : Prop :=
  (∀ t c z s, Taken { op := 0x0901, argw := 6, states := [.ready, .armed, .paused] } t c s → motConfigFail c (atTime t s) = none →
    (if cmdNat c 1 < 6 then (true, atTime t s) else claimFor false (cmdNat c 1 - 4) 2 (atTime t s)) = (true, z) →
    exec (.motConfig t c) s = ends t s (let a := cmdNat c 1
      let u := ((z.put R.motAxVmax_VMAX (cmdNat c 2) a).put R.motAxAmax_AMAX (cmdNat c 3) a).put R.motAxJmax_JMAX (cmdNat c 4) a
      let v := (u.put R.motAxCur_HOLD (cmdNat c 5) a).put R.motAxCur_STILLMS (cmdNat c 6) a
      let w := v.setAxis a { v.axis a with configured := true, lastStep := v.now }
      ok 0x0901 c [] (if w.get R.motAxStat_STATE a = 0 then w.put R.motAxStat_STATE 1 a else w))) ∧
  (∀ t c z s, Taken { op := 0x0901, argw := 6, states := [.ready, .armed, .paused] } t c s → motConfigFail c (atTime t s) = none →
    6 ≤ cmdNat c 1 → claimFor false (cmdNat c 1 - 4) 2 (atTime t s) = (false, z) →
    exec (.motConfig t c) s = ends t s (respond 0x0901 c stConflict 0 [] z)) ∧
  (∀ t c s, Taken { op := 0x0902, argw := 9, states := [.ready, .armed, .paused] } t c s → motMoveFail c (atTime t s) = none →
    exec (.motMove t c) s = ends t s (let u := atTime t s; let l := moveSteps c u; let m := moveMaster l
      let v := forEach (moveTargets c) u fun e x =>
        let n := (e.2 - axisPos x e.1).natAbs
        let up := decide (axisPos x e.1 < e.2)
        let held := x.flag R.motAxStat_HOLDCUR e.1
        let y := x.setAxis e.1 { x.axis e.1 with
          moving := true, homing := false, group := m.1, total := n, left := n, acc := m.2 / 2, up := up,
          dirUp := if n = 0 then (x.axis e.1).dirUp else up, phase := 0, startAt := x.now + (if held = true then 200000000 else 200000) }
        (y.put R.motAxStat_HOLDCUR 0 e.1).put R.motAxStat_STATE 2 e.1
      opened 0x0902 c (m.1 :: (l.map (·.1)).filter (fun a => decide (a ≠ m.1)) ++ [0]) v)) ∧
  (∀ t c s, Taken { op := 0x0903, argw := 2, states := [.ready, .armed, .paused] } t c s → motHomeFail c (atTime t s) = none →
    exec (.motHome t c) s = ends t s (let u := atTime t s; let a := cmdNat c 1; let up := decide (cmdNat c 2 = 1)
      let on := switchActive u a (if up = true then .limp else .limn)
      let v := u.setAxis a { u.axis a with
        moving := true, homing := true, group := a, total := 0, left := 0, acc := 0, up := up, dirUp := if on = true then !up else up,
        phase := if on = true then 2 else 1, phaseSteps := 0, release := none, chatters := 0, recent := [],
        startAt := u.now + (if u.flag R.motAxStat_HOLDCUR a = true then 200000000 else 200000) }
      opened 0x0903 c [a, 0] ((v.put R.motAxStat_HOLDCUR 0 a).put R.motAxStat_STATE 3 a))) ∧
  (∀ t c s, Taken { op := 0x0904, argw := 1, states := anyState } t c s → cmdNat c 1 ≤ 255 →
    exec (.motStop t c) s = ends t s (ok 0x0904 c [] (endMotion (maskList 8 (cmdNat c 1)) 5 stWrongState (atTime t s)))) ∧
  (∀ t c s, Taken { op := 0x0905, argw := 1, states := anyState } t c s → cmdNat c 1 ≤ 7 →
    exec (.motStatus t c) s = ends t s (let u := atTime t s
      ok 0x0905 c [u.get R.motAxPos_POS (cmdNat c 1), motStatWord u (cmdNat c 1)] u)) ∧
  (∀ t q o s, Open 0x0902 q o t s → (s.axis (o.data.headD 0)).moving = true → (s.axis (o.data.headD 0)).left = 0 →
    exec (.motMoveDone t q) s = completes t s (endMotion [o.data.headD 0] 0 stOk (atTime t s))) ∧
  (∀ t (a : Axis) s, Awake t s → (s.axis a).moving = true → s.flag R.rdgMoten_GATE = true → (s.axis a).homing = false →
    (s.axis a).group = a.val → 0 < (s.axis a).left → armedFor 57 a s = false → (atTime t s).paced a = true →
    (∀ b, b < 8 → b = a.val ∨ (s.axis b).moving = true ∧ (s.axis b).group = a.val → axisOnBalls s b = true) →
    exec (.motionStep t a) s = becomes t s (groupStep a (atTime t s))) ∧
  (∀ t (a : Axis) s, Awake t s → (s.axis a).moving = true → s.flag R.rdgMoten_GATE = true → (s.axis a).homing = true →
    (atTime t s).paced a = true → (∀ b, b < 8 → b = a.val ∨ (s.axis b).moving = true ∧ (s.axis b).group = a.val → axisOnBalls s b = true) →
    exec (.motionStep t a) s = becomes t s (homingStep a (atTime t s))) ∧
  (∀ t (a : Axis) side level raw s, Awake t s → axisOnBalls s a = true →
    exec (.limitSwitchEdge t a side ⟨level, raw⟩) s = becomes t s (switchEdge a side level raw (tellSwitch a side level (atTime t s)))) ∧
  (∀ t (a : Axis) s, Awake t s → (s.axis a).configured = true → (s.axis a).moving = false →
    (s.axis a).lastStep + s.get R.motAxCur_STILLMS a * 1000000000 ≤ (atTime t s).now →
    exec (.standstillHold t a) s = becomes t s ((atTime t s).put R.motAxStat_HOLDCUR 1 a))

/-- R410 to R417: calibration commands, shadows and their commit, and the measurements of the sense block. -/
def Obligations.SenseActs : Prop :=
  (∀ t c s, Taken { op := 0x0801, argw := 0, states := activeStates ++ [.safe] } t c s → calFail true c (atTime t s) = none →
    exec (.calSave t c) s = ends t s (opened 0x0801 c [0x300, 0] (atTime t s))) ∧
  (∀ t q o s, Open 0x0801 q o t s →
    exec (.calSaveDone t q) s = completes t s (let u := atTime t s
      finish o stOk 0 [fieldAt (calRecord u) 0x2A0 4] (dramWrite 7 (u.regionBase 2) (calRecord u) u))) ∧
  (∀ t c s, Taken { op := 0x0802, argw := 0, states := [.ready] } t c s → calFail true c (atTime t s) = none →
    exec (.calRestore t c) s = ends t s (opened 0x0802 c [0x300, 0] (atTime t s))) ∧
  (∀ t q o b v s, Open 0x0802 q o t s → chooseRecord o.cmd (atTime t s) = (.ok b, v) →
    (atTime t s).boundaryFor o.t0 = true →
    exec (.calRestoreDone t q) s = completes t s (finish o stOk 0 [] (applyRecord b v))) ∧
  (∀ t c s, Taken { op := 0x0803, argw := 1, states := [.ready] } t c s → calRunFail c (atTime t s) = none →
    exec (.calRun t c) s = ends t s (ok 0x0803 c [] ((openE 0x0803 c [0x300, 0] (atTime t s)).put R.snsStat_CALRUN 1))) ∧
  (∀ t q gains offsets medians o s, Open 0x0803 q o t s → (atTime t s).boundaryFor o.t0 = true →
    exec (.calRunDone t q gains offsets medians) s = completes t s (let u := atTime t s; let m := cmdNat o.cmd 1
      let trim (j : Nat) (x : State) : State :=
        (x.put R.snsTrim_GAINSH (gains.getD j (x.get R.snsTrim_GAINSH j)) j).put R.snsTrim_OFFSETSH (offsets.getD j (x.get R.snsTrim_OFFSETSH j)) j
      let taps (e : Nat × Nat) (x : State) : State :=
        if e.1 < 100 ∨ 166 < e.1 then raise 63 e.2 none 0 false (x.put R.snsStat_DLYERR 1) else x.put R.snsDly_TAPSSH ((e.1 + 1) / 2) e.2
      let v := if bitOf m 0 = true then forEach (List.range 32) u trim else u
      let w := if bitOf m 1 = true then forEach (medians.zipIdx.take 64) v taps else v
      let x := (commitNow w).put R.snsStat_CALRUN 0
      finish o stOk 0 [] (if w.commitAt.isSome = true then requestCommit x else x))) ∧
  (∀ t m s, Awake t s → Writes 13 m s →
    exec (.senseCommit t m) s = becomes t s (let u := written m t s
      if u.flag R.snsCtrl_COMMIT = true then u else { u.put R.snsCtrl_COMMIT 1 with commitAt := some u.now })) ∧
  (∀ t t0 s, Awake t s → s.commitAt = some t0 → s.flag R.snsStat_CALRUN = false → (atTime t s).boundaryFor t0 = true →
    exec (.senseCommitApply t) s = becomes t s (commitNow (atTime t s))) ∧
  (∀ t (p : Port) m s, Awake t s → (atTime t s).mayMeasure p = true →
    exec (.delayMeasure t p m) s = becomes t s (let u := atTime t s
      forEach (m.zipIdx.take 4) (u.setPort p { u.port p with dlyAt := u.now }) fun e x => measureLine (4 * p.val + e.2) e.1 x))

/-- R273, R340, R345, R350, R365, R369, R420, R423 to R428: the commands of groups 0x0A and 0x0B. Each of the two injection kinds is a
clause of its own. -/
def Obligations.ServiceCommandsComplete : Prop :=
  (∀ t c s, Taken { op := 0x0A01, argw := 2, states := activeStates } t c s → bistRunFail c (atTime t s) = none →
    exec (.bistRun t c) s = ends t s (let u := atTime t s; let gs := runGroups (cmdNat c 1)
      let free := gs.filter fun g => !u.spareBusy g
      let plan := free.flatMap fun g => (List.range (instancesOf g)).map fun i => (g, i)
      opened 0x0A01 c [cmdNat c 1, gs.length - free.length, 0] { u with bistPlan := u.bistPlan ++ plan })) ∧
  (∀ t q o s, Open 0x0A01 q o t s → s.bistPlan = [] → s.bistResult = [] →
    exec (.bistRunDone t q) s = completes t s (finish o stOk 0 [if o.data.getD 1 0 = 0 then 0 else 2, 0] { atTime t s with bistResult := [] })) ∧
  (∀ t c s, Taken { op := 0x0A02, argw := 3, states := anyState } t c s → errReadFail c (atTime t s) = none →
    exec (.errRead t c) s = ends t s (let u := atTime t s; let i := cmdNat c 1; let r := mapGet ([], []) u.ctxRec i
      let full (l : List Byte) : List Byte := l ++ List.replicate (32 - l.length) 0
      let w := (u.reg (hostPend i)).toNat
      let v := u.setReg (hostPend i) (BitVec.ofNat 32 (if bitOf w (i % 32) = true then w - 2 ^ (i % 32) else w))
      ok 0x0A02 c [detClass i, v.get R.errCount_COUNT i] (reads [23] (deliver 4 (cmdDword c 2) (full r.1 ++ full r.2) v)))) ∧
  (∀ t c s, Taken { op := 0x0A03, argw := 2, states := anyState } t c s → errInjectFail c (atTime t s) = none → kindR c = true →
    exec (.errInject t c) s = ends t s (ok 0x0A03 c [] (raise (cmdNat c 1) (cmdNat c 2 % 256) none 0 true (atTime t s)))) ∧
  (∀ t c s, Taken { op := 0x0A03, argw := 2, states := anyState } t c s → errInjectFail c (atTime t s) = none → kindR c = false →
    exec (.errInject t c) s = ends t s (ok 0x0A03 c [] (
      let v := { atTime t s with inject := some { id := cmdNat c 1, inst := cmdNat c 2 % 256, count := max 1 (bitsOf (cmdNat c 2) 8 8) } }
      ((v.put R.errInjstat_ARMED 1).put R.errInjstat_INSTANCE (cmdNat c 2 % 256)).put R.errInjstat_ID (cmdNat c 1)))) ∧
  (∀ t c s, Taken { op := 0x0A04, argw := 3, states := anyState } t c s → 1 ≤ cmdNat c 1 → cmdNat c 1 ≤ 65 → detClass (cmdNat c 1) < 2 →
    exec (.errRoute t c) s = ends t s (ok 0x0A04 c []
      (((atTime t s).put R.errCfg_MASK (cmdNat c 2 % 2) (cmdNat c 1)).put R.errCfg_ROUTE (cmdNat c 3 % 8) (cmdNat c 1)))) ∧
  (∀ t c s, Taken { op := 0x0A05, argw := 3, states := [.ready] } t c s → laneTestFail c (atTime t s) = none →
    exec (.laneTest t c) s = ends t s (let u := atTime t s; let (l, w) := (cmdNat c 1, cmdNat c 2); let old := (u.reg ⟨.lnsCtrl, l, 0⟩).toNat
      let v := 2 * (w % 8) + 16 + (if bitsOf w 4 2 = 2 then 0 else 32) + 64 * bitsOf w 4 2 + bitsOf old 8 1 * 256
      opened 0x0A05 c [l, old, 0] ((setLaneTest l (BitVec.ofNat 32 v) u).put R.lnsPrbserr_ERRORS 0 l))) ∧
  (∀ t q present errors o s, Open 0x0A05 q o t s → o.t0 + cmdNat o.cmd 3 * 1000000000 ≤ (atTime t s).now →
    exec (.laneTestDone t q present errors) s = completes t s (let u := atTime t s; let l := o.data.headD 0
      let loop := bitsOf (cmdNat o.cmd 2) 4 2
      let seen := decide (loop ≠ 2) && (present || decide (loop = 1))
      let mine := match u.laneChk.lookup l with | some e => if loop = 1 then e.2 else ([], 0) | none => ([], 0)
      let run := prbsRun (mergeRising (errors.length + mine.1.length) errors mine.1) (testBits (u.laneRate l) (cmdNat o.cmd 3))
      let n := if seen = true then min 0xFFFFFFFF (u.get R.lnsPrbserr_ERRORS l + (run.1 - mine.2)) else 0
      let v := { u with laneChk := u.laneChk.filter fun e => decide (e.1 ≠ l) }
      finish o stOk 0 [n, b2n (run.2 && seen)] (setLaneTest l (BitVec.ofNat 32 (o.data.getD 1 0)) (v.put R.lnsPrbserr_ERRORS n l)))) ∧
  (∀ t c s v x w, Taken { op := 0x0B02, argw := 3, states := activeStates } t c s → dmaRunFail c (atTime t s) = none →
    claimFor true 1 (claimOwner c.q) (atTime t s) = (true, v) → v.dmaState 7 ≠ 1 →
    x = ((v.put R.dmaCtrl_FENCE 1 7).put R.dmaFence_STAGE (stageMask c (v.put R.dmaCtrl_FENCE 1 7))).put R.dmaFence_FWD 0 →
    walkChain 7 (x.get R.dmaMaxdesc_MAX 7) (cmdDword c 2) none none x = (.good, w) →
    exec (.dmaRun t c) s = ends t s (opened 0x0B02 c [7, 0]
      (dmaBegin 7 ((w.put R.dmaDesclo_ADDR (lo32 (cmdDword c 2) / 32) 7).put R.dmaDeschi_ADDR (hi32 (cmdDword c 2)) 7)))) ∧
  (∀ t q o s, Open 0x0B02 q o t s → s.dmaState 7 = 0 → s.get R.dmaStat_CAUSE 7 = 0 →
    exec (.dmaRunDone t q) s = completes t s (finish o stOk 0 [0] (claimFree true 1 (claimOwner o.cmd.q) (atTime t s)))) ∧
  (∀ t c s, Taken { op := 0x0B03, argw := 3, states := [.ready] } t c s → eccErasureFail c (atTime t s) = none →
    exec (.eccErasure t c) s = ends t s (let l := erasureLoc c
      ok 0x0B03 c [] (((atTime t s).put (eraseDev l.sub) (cmdNat c 3 % 10) (eraseIndex l)).put (eraseEn l.sub) 1 (eraseIndex l)))) ∧
  (∀ t c s, Taken { op := 0x0B04, argw := 2, states := anyState } t c s → poisonListFail c (atTime t s) = none →
    exec (.poisonList t c) s = ends t s (let u := atTime t s
      ok 0x0B04 c [u.dram.poison.length] (deliver 4 (cmdDword c 1) (u.dram.poison.flatMap fun e => poisonRecord e.2 u) u))) ∧
  (∀ t c s, Taken { op := 0x0B05, argw := 1, states := anyState } t c s → 10 ≤ cmdNat c 1 → cmdNat c 1 ≤ 10080 →
    exec (.scrubPeriod t c) s = ends t s (let u := (atTime t s).put R.eccScrub_PERIOD (cmdNat c 1)
      ok 0x0B05 c [] (if u.dram.passEnd = 0 then u
        else u.setDram { u.dram with passEnd := u.now + scrubPs (cmdNat c 1) * (u.scrubBursts - u.dram.scrub) / u.scrubBursts })))

/-- R431 to R438: the commands of group 0x0C, the snapshot writes, a captured read and an abandoned record. -/
def Obligations.CounterRowsAct : Prop :=
  (∀ t c s v, Taken { op := 0x0C01, argw := 3, states := anyState } t c s → pmcSelectFail c (atTime t s) = none →
    claimFor true (bankClaim (cmdNat c 1)) (claimOwner c.q) (atTime t s) = (true, v) →
    exec (.pmcSelect t c) s = ends t s (let (n, w) := (cmdNat c 1, cmdNat c 2)
      let u := setCounter n 0 (((v.put R.pmcSel_EVENT (w % 65536) n).put R.pmcSel_INST (w / 65536) n).put R.pmcSel_PAIR (cmdNat c 3) n)
      let idle := (List.range 16).all fun i => decide (u.get R.pmcSel_EVENT (n / 16 * 16 + i) = 0)
      ok 0x0C01 c [] (if idle = true then claimFree true (bankClaim n) (u.owner true (bankClaim n)) u else u))) ∧
  (∀ t c s, Taken { op := 0x0C02, argw := 0, states := anyState } t c s →
    exec (.pmcSnapshot t c) s = ends t s (ok 0x0C02 c [] (snapshot (atTime t s)))) ∧
  (∀ t m s, Awake t s → Writes 15 m s → exec (.pmcSnap t m) s = becomes t s (snapshot (written m t s))) ∧
  (∀ t m s, Awake t s → m ≠ .proxy → (m = .host → s.flag R.pmcAccess_USER = true) →
    exec (.pmcUsnap t m) s = becomes t s (snapshot (written m t s))) ∧
  (∀ t m (n : Fin 32) s, Awake t s →
    exec (.pmcCntloRead t m n) s = becomes t s (let u := asked m t s
      { u with pmcCaps := nset 0 u.pmcCaps (32 * m.num + n) (u.counter n) }.emit (.readData (BitVec.ofNat 32 (u.counter n))))) ∧
  (∀ t c s v, Taken { op := 0x0C03, argw := 2, states := anyState } t c s → cmdNat c 1 ≤ 3 → cmdNat c 2 ≤ 24 →
    (s.chan (cmdNat c 1)).configured = true →
    claimFor true 2 (claimOwner c.q) (atTime t s) = (true, v) →
    exec (.traceSet t c) s = ends t s (let u := if v.owner false 5 = 0 then (claimFor false 5 2 v).2 else v
      ok 0x0C03 c [] { u with traceK := nset 0 u.traceK (cmdNat c 1) (cmdNat c 2), lfsr := nset 1 u.lfsr (cmdNat c 1) 1 })) ∧
  (∀ t c s, Taken { op := 0x0C04, argw := 2, states := anyState } t c s → traceReadFail c (atTime t s) = none →
    exec (.traceRead t c) s = ends t s (let u := atTime t s
      let v := showTraces { u with traces := u.traces.filter fun e => !e.2.finished }
      ok 0x0C04 c [u.doneTraces.length] (reads [22] (deliver 4 (cmdDword c 1) (u.doneTraces.flatMap fun e => traceBytes e.2) v)))) ∧
  (∀ t (r : Fin 16) s, Awake t s →
    exec (.traceAbandon t r) s = becomes t s (let u := atTime t s
      let late (e : Nat × Trace) : Bool := decide (e.1 = r.val ∧ e.2.t0 + 10000000000 ≤ u.now) && !e.2.finished
      showTraces { u with traces := u.traces.map fun e => if late e = true then (e.1, { e.2 with abandoned := true }) else e }))

/-- R377 to R382, R388 to R390: the ridge's own commands, in every device state; the limits are those of a record that meets R379. -/
def Obligations.RidgeCommandsComplete : Prop :=
  (∀ t c s, Taken { op := 0x1001, argw := 0, states := ridgeStates, held := true } t c s →
    exec (.rdgIdentify t c) s = ends t s (let u := atTime t s
      ok 0x1001 c [fieldAt u.boot.rdgHeader 8 4, u.rdg.proto, u.get R.rdgLock_LOCK, u.rdg.recordCrc.toNat] u)) ∧
  (∀ t c s, Taken { op := 0x1002, argw := 0, states := ridgeStates, held := true } t c s →
    exec (.rdgStatus t c) s = ends t s (let u := atTime t s
      ok 0x1002 c [(u.reg ⟨.rdgStatus, 0, 0⟩).toNat + 2 * b2n u.estopIn, (u.reg ⟨.rdgCause, 0, 0⟩).toNat, hpenWord u,
        pstatMask R.rdgPstat_TRIP u + 65536 * pstatMask R.rdgPstat_WARN u] u)) ∧
  (∀ t c s bs v, Taken { op := 0x1003, argw := 4, states := ridgeStates, held := true } t c s → rdgLimitsFail c (atTime t s) = none →
    fetch 7 (cmdDword c 1) 784 (atTime t s) = (.bytes bs, v) → crc32c bs = c.w 4 →
    exec (.rdgLimits t c) s = ends t s (match limitFail bs v with
      | some st => respond 0x1003 c st 0 [] v
      | none => ok 0x1003 c [] (applyLimits bs v))) ∧
  (∀ t c s, Taken { op := 0x1004, argw := 0, states := ridgeStates, held := true } t c s →
    exec (.rdgSafeEnter t c) s = ends t s (ok 0x1004 c [] (enterSafe 5 (atTime t s)))) ∧
  (∀ t c s, Taken { op := 0x1005, argw := 0, states := ridgeStates, held := true } t c s →
    exec (.rdgSafeRelease t c) s = ends t s (let u := atTime t s
      let v := clearCauses (0x20 + (if u.estopIn = true then 0 else 0x02)) u
      let left := v.get R.rdgCause_CAUSE
      respond 0x1005 c (if left = 0 then stOk else stConflict) 0 [left] (releaseSafe v))) ∧
  (∀ t c s, Taken { op := 0x1006, argw := 2, states := ridgeStates, held := true } t c s → rdgPortClearFail c (atTime t s) = none →
    exec (.rdgPortClear t c) s = ends t s (let p := cmdNat c 1
      let v := clearFaults p (cmdNat c 2) (atTime t s)
      let cool := match (v.port p).theta with
        | some th => decide (th < signed 16 (v.get R.rdgPortTemp_TWARN p)) && !portFaulted v p
        | none => false
      let w := if cool = true then v.put R.rdgPstat_TRIP 0 p else v
      ok 0x1006 c [(w.reg ⟨.rdgPstat, p, 0⟩).toNat] w)) ∧
  (∀ t c s, Taken { op := 0x1007, argw := 1, states := [.ready] } t c s → cmdNat c 1 ≤ 65535 → s.dev ≠ .held →
    exec (.rdgMaint t c) s = ends t s (let u := atTime t s
      let g := (((maskList 16 (cmdNat c 1)).filter fun p => u.flag R.rdgPstat_ENABLE p && !u.flag R.rdgPstat_TRIP p).map (2 ^ ·)).sum
      ok 0x1007 c [g] (setGrant g u)))

/-- R74, R78, R79, R80, R84, R85, R87, R88: the sender's and the receiver's accesses to a bound channel. A post and a take let the firmware
serve commands. -/
def Obligations.PannierRowsAct : Prop :=
  (∀ t m (n : PnrCh) (i : Fin 16) v s, Awake t s → s.isSender m n = true → (atTime t s).sessionOver m = false → s.flag R.pnrStatus_FULL n = false →
    exec (.pnrMsgWrite t m n i v) s = becomes t s ((written m t s).setReg ⟨.pnrMsg, n, i⟩ v)) ∧
  (∀ t m (n : PnrCh) (i : Fin 16) v s, Awake t s → s.isSender m n = true → (atTime t s).sessionOver m = false → s.flag R.pnrStatus_FULL n = true →
    exec (.pnrMsgWrite t m n i v) s = becomes t s ((written m t s).put R.pnrStatus_WFULL 1 n)) ∧
  (∀ t m (n : PnrCh) (len : BitVec 5) s, Awake t s → s.isSender m n = true → (atTime t s).sessionOver m = false → s.flag R.pnrStatus_FULL n = false →
    exec (.pnrPost t m n len) s = becomes t s (serve (postMessage n
      (if 8 ≤ len.toNat ∧ len.toNat ≤ 16 then (written m t s).put R.pnrCtrl_LEN len.toNat n else written m t s)))) ∧
  (∀ t m (n : PnrCh) (len : BitVec 5) s, Awake t s → s.isSender m n = true → (atTime t s).sessionOver m = true →
    exec (.pnrPost t m n len) s = becomes t s (serve (written m t s))) ∧
  (∀ t m (n : PnrCh) (len : BitVec 5) s, Awake t s → s.isSender m n = true →
    exec (.pnrCtrlLenWrite t m n len) s = becomes t s
      (if 8 ≤ len.toNat ∧ len.toNat ≤ 16 then (written m t s).put R.pnrCtrl_LEN len.toNat n else written m t s)) ∧
  (∀ t m (n : PnrCh) s, Awake t s → s.isReceiver m n = true → s.flag R.pnrStatus_FULL n = true →
    exec (.pnrTake t m n) s = becomes t s (let u := asked m t s
      afterTake n ((ringBell (u.get R.pnrBind_SEND n) (16 + n) (u.put R.pnrStatus_FULL 0 n)).emit
        (.readData (BitVec.ofNat 32 (u.get R.pnrStatus_PSEQ n * 65536 + u.get R.pnrTake_LEN n * 256
          + b2n (decide (u.get R.pnrEpoch_STAMP n ≠ u.get R.pnrEpoch_EPOCH n)) * 2 + 1)))))) ∧
  (∀ t m (n : PnrCh) s, Awake t s → s.isReceiver m n = true → s.flag R.pnrStatus_FULL n = false →
    exec (.pnrTake t m n) s = becomes t s ((asked m t s).emit (.readData 0))) ∧
  (∀ t m member (n : PnrCh) s, Awake t s → s.get R.pnrLock_OWNER n = 0 →
    exec (.pnrLockRead t m member n) s = becomes t s ((((asked m t s).put R.pnrLock_OWNER m.num n).put R.pnrLock_MEMBER
      (if m = .proxy then member.toNat else 0) n).emit (.readData 0))) ∧
  (∀ t m member (n : PnrCh) s, Awake t s → s.get R.pnrLock_OWNER n ≠ 0 →
    exec (.pnrLockRead t m member n) s = becomes t s ((asked m t s).emit (.readData (s.reg ⟨.pnrLock, n, 0⟩)))) ∧
  (∀ t m (n : PnrCh) (owner : BitVec 3) s, Awake t s → s.get R.pnrLock_OWNER n = m.num → owner.toNat = m.num →
    exec (.pnrLockRelease t m n owner) s = becomes t s (markLockLost n (((written m t s).put R.pnrLock_OWNER 0 n).put R.pnrLock_MEMBER 0 n))) ∧
  (∀ t m (n : PnrCh) (e : BitVec 16) s, Awake t s → s.isReceiver m n = true →
    exec (.pnrEpochWrite t m n e) s = becomes t s ((written m t s).put R.pnrEpoch_EPOCH e.toNat n)) ∧
  (∀ t m (n : PnrCh) v s, Awake t s → (m = .control ∨ m = .ridge) → s.flag R.pnrBind_RLOCK n = false → s.flag R.pnrBindlock_LOCK = false →
    exec (.pnrBindWrite t m n v) s = becomes t s (let u := ((written m t s).put R.pnrBind_SEND (fieldOf v 0 3) n).put R.pnrBind_RECV (fieldOf v 4 3) n
      if m = .ridge ∧ fieldOf v 31 1 = 1 then u.put R.pnrBind_RLOCK 1 n else u)) ∧
  (∀ t s, Awake t s → exec (.pnrBindlockSet t .control) s = becomes t s ((atTime t s).put R.pnrBindlock_LOCK 1)) ∧
  (∀ t m v s, Awake t s →
    exec (.pnrBellClear t m m v) s = becomes t s (let u := atTime t s; u.setReg ⟨.pnrBell, m.num, 0⟩ (u.reg ⟨.pnrBell, m.num, 0⟩ &&& ~~~ v))) ∧
  (∀ t m v s, Awake t s →
    exec (.pnrBellenWrite t m m v) s = becomes t s (let u := (atTime t s).setReg ⟨.pnrBellen, m.num, 0⟩ v
      let rings (b : Nat) : Bool := bitOf (s.reg ⟨.pnrBell, m.num, 0⟩).toNat b && bitOf v.toNat b && !bitOf (s.reg ⟨.pnrBellen, m.num, 0⟩).toNat b
      if m = .host then forEach ((List.range 32).filter rings) u sendMsix else u)) ∧
  (∀ t s, Awake t s → exec (.jtagTapReset t) s = becomes t s (endSession .debug none (atTime t s)))

/-- R74: an access of a pannier that the rights table does not permit is recorded in `PNR_VIOL` and raised; the channel is as before. -/
def Obligations.PannierViolationsAct : Prop :=
  let seen (m : Master) (n : PnrCh) (off : Nat) (s : State) : State :=
    let v := ((((s.bump R.pnrViol_COUNT).put R.pnrViol_OFFSET (off / 4)).put R.pnrViol_CHANNEL n).put R.pnrViol_MASTER m.num).put
      R.pnrViol_VALID 1
    raise 5 n none (v.reg ⟨.pnrViol, 0, 0⟩).toNat false v
  (∀ t m (n : PnrCh) (i : Fin 16) v s, Awake t s → s.isSender m n = false →
    exec (.pnrMsgWrite t m n i v) s = becomes t s (seen m n (4 * i) (written m t s))) ∧
  (∀ t m (n : PnrCh) (len : BitVec 5) s, Awake t s → s.isSender m n = false →
    exec (.pnrPost t m n len) s = becomes t s (serve (seen m n 0x40 (written m t s)))) ∧
  (∀ t m (n : PnrCh) s, Awake t s → s.isReceiver m n = false →
    exec (.pnrTake t m n) s = becomes t s ((seen m n 0x48 (asked m t s)).emit (.readData 0))) ∧
  (∀ t m (n : PnrCh) (e : BitVec 16) s, Awake t s → s.isReceiver m n = false →
    exec (.pnrEpochWrite t m n e) s = becomes t s (seen m n 0x50 (written m t s)))

/-- R4 to R7, R39, R67, R72, R106, R277, R278, R282, R446: accesses at an offset of BAR0, BAR2 and BAR4, by the masters that each row names. A
narrow write by a master other than the host has no effect in any block (log entry 52), and a debug-port window access needs what R67 asks (log
entry 75). -/
def Obligations.RegisterRowsAct : Prop :=
  (∀ t m reg1 v s, Awake t s → Writes 0 m s →
    exec (.claimWrite t m reg1 v) s = becomes t s (writeClaim m reg1 v (written m t s))) ∧
  (∀ t m off v s, Awake t s → (m = .host → off % 4 = 0) →
    exec (.registerWrite t m ⟨.bar0, off, 4⟩ v) s = becomes t s (serve (writeReg m off (BitVec.ofNat 32 v.toNat) (written m t s)))) ∧
  (∀ t m off v s, Awake t s → (m = .host → off % 8 = 0) →
    exec (.registerWrite t m ⟨.bar0, off, 8⟩ v) s = becomes t s (let u := if m = .host then (atTime t s).tally 0x0601 0 8 else atTime t s
      serve (writeReg m (off + 4) (BitVec.ofNat 32 (v.toNat / 2 ^ 32)) (writeReg m off (BitVec.ofNat 32 v.toNat) u)))) ∧
  (∀ t m off len v s, Awake t s → m ≠ .host → len ≠ 4 → len ≠ 8 →
    exec (.registerWrite t m ⟨.bar0, off, len⟩ v) s = becomes t s (serve (atTime t s))) ∧
  (∀ t bar off len v s, Awake t s → ¬((len = 4 ∨ len = 8) ∧ off % len = 0) →
    exec (.registerWrite t .host ⟨bar, off, len⟩ v) s = becomes t s (let u := (atTime t s).tally 0x0601 0 len
      raise 27 0 none 0 false (logHeader { u with pcie := { u.pcie with logged := some (off, len) } }))) ∧
  (∀ t off v s, Awake t s → off % 4 = 0 →
    exec (.registerWrite t .host ⟨.bar4, off, 4⟩ v) s = becomes t s (msixWrite (off / 4) (BitVec.ofNat 32 v.toNat) ((atTime t s).tally 0x0601 0 4))) ∧
  (∀ t m off s, Awake t s → off % 4 = 0 → takeAt off = none →
    exec (.registerReadClear t m ⟨.bar0, off, 4⟩) s = becomes t s (let r := readReg m off (settleRead off (asked m t s)); r.2.emit (.readData r.1))) ∧
  (∀ t m off n s, Awake t s → off % 4 = 0 → takeAt off = some n →
    exec (.registerReadClear t m ⟨.bar0, off, 4⟩) s = becomes t s (takeBy m n (asked m t s))) ∧
  (∀ t m off s, Awake t s → off % 8 = 0 →
    exec (.registerReadClear t m ⟨.bar0, off, 8⟩) s = becomes t s (let u := if m = .host then (atTime t s).tally 0x0602 0 8 else atTime t s
      readWord m (off + 4) (readWord m off u))) ∧
  (∀ t bar off len s, Awake t s → ¬((len = 4 ∨ len = 8) ∧ off % len = 0) →
    exec (.registerReadClear t .host ⟨bar, off, len⟩) s = becomes t s (((atTime t s).tally 0x0602 0 len).emit .unsupported)) ∧
  (∀ t off s, Awake t s → off % 4 = 0 →
    exec (.registerReadClear t .host ⟨.bar4, off, 4⟩) s = becomes t s (let u := (atTime t s).tally 0x0602 0 4
      u.emit (.readData (bar4Word off u)))) ∧
  (∀ t m off v s, Awake t s → off % 4 = 0 → 0x300000 ≤ off → off < 0x400000 → usesBuffer s = false → Writes 19 m s →
    (m = .debug → debugSram s = true) →
    exec (.sramWindowWrite t m off v) s = becomes t s (windowWrite m off v (written m t s))) ∧
  (∀ t m off v s, Awake t s → off % 4 = 0 → 0x300000 ≤ off → off < 0x310000 → usesBuffer s = true → m ≠ .proxy →
    (m = .debug → debugSram s = true) →
    exec (.sramWindowWrite t m off v) s = becomes t s (let u := written m t s
      { u with stage := Memory.writeN 0 u.stage (off - 0x300000) (wordBytes v) })) ∧
  (∀ t off v s, Awake t s → s.otp.lc = .field → bitOf (s.get R.glbHostacc_WEN) 19 = false →
    exec (.sramWindowWrite t .debug off v) s = becomes t s (atTime t s)) ∧
  (∀ t addr len bs v s, Awake t s → (atTime t s).hostLink = true → s.trained = true → s.inDram addr len = true →
    dramRead 5 addr len (atTime t s) = (some bs, v) →
    exec (.bar2Read t addr len) s = becomes t s (reads [13, 14, 17] ((v.tally 0x0602 0 len).emit (.bar2Data bs)))) ∧
  (∀ t addr bytes s, Awake t s → (atTime t s).hostLink = true → s.trained = true → s.inDram addr bytes.length = true →
    exec (.bar2Write t addr bytes) s = becomes t s (reads [12, 16] (dramWrite 5 addr bytes ((atTime t s).tally 0x0601 0 bytes.length))))

/-- R36, R46, R49 to R57, R62 to R65, R98, R312, R325: supplies, resets and clock monitors, and the boot sequence they lead to. A pulse in
the range where the device may act (R51, R452) is left out here: what it does is a free value. -/
def Obligations.ResetRowsAct : Prop :=
  (∀ t rails s, beyond rails = false → exec (.powerOn t rails) s = becomes t s (powerCycle (railsGood rails) (powerFail (atTime t s)))) ∧
  (∀ t (rail : Fin 8) mv durNs s, mv ≤ railMax.getD rail 0 → mv < railFall.getD rail 0 → 2000 ≤ durNs →
    exec (.brownOut t rail mv durNs) s = becomes t s (let u := hardSource srcBrown (durNs * 1000 + holdHard) (powerFail (atTime t s))
      if rail = 2 ∨ rail = 3 then u.setBoot { u.boot with kickFrom := max u.boot.kickFrom (u.now + durNs * 1000) } else u)) ∧
  (∀ t (rail : Fin 8) mv durNs s, mv ≤ railMax.getD rail 0 → durNs < 500 → exec (.brownOut t rail mv durNs) s = becomes t s (atTime t s)) ∧
  (∀ t durNs s, 1000 ≤ durNs → exec (.resetNAssert t durNs) s = becomes t s (hardSource srcPin (durNs * 1000 + holdHard) (atTime t s))) ∧
  (∀ t durNs s, durNs < 100 → exec (.resetNAssert t durNs) s = becomes t s (atTime t s)) ∧
  (∀ t hard t0 s, Awake t s → s.fw.resetPending = some (hard, t0) → t0 + 1000000000 ≤ (atTime t s).now → resetUnanswered s = false →
    exec (.resetBegin t) s = becomes t s (let u := atTime t s; let v := { u with fw := { u.fw with resetPending := none } }
      if hard = true then hardSource srcSys holdHard v else beginOrderly srcSys v)) ∧
  (∀ t t0 s, s.boot.orderly = some t0 → t0 + 2000000000 ≤ (atTime t s).now →
    exec (.orderlyTimeout t) s = becomes t s (let u := atTime t s; let v := clearAll false u
      let w := v.setReg ⟨.glbRstcause, 0, 0⟩ ((u.reg ⟨.glbRstcause, 0, 0⟩ &&& ~~~ 0x20) ||| 0x40)
      w.setBoot { w.boot with releaseAfter := w.now + holdHard })) ∧
  (∀ t straps s, s.boot.inReset = true → s.boot.powered = true → s.boot.releaseAfter ≤ (atTime t s).now →
    exec (.internalResetRelease t straps) s = becomes t s (bootRom straps (atTime t s))) ∧
  (∀ t straps t0 s, s.boot.inReset = false → s.boot.orderly = some t0 → t0 + orderlyRelease ≤ (atTime t s).now →
    exec (.internalResetRelease t straps) s = becomes t s (bootRom straps (assertOrderly (atTime t s)))) ∧
  (∀ t s, Awake t s → s.dev = .boot → s.get R.glbBootstat_PHASE = 4 → s.otp.lc ≠ .retired →
    exec (.bootImageCheck t true) s = becomes t s (serve (checkImages (atTime t s)))) ∧
  (∀ t s, Awake t s → s.dev = .boot → s.get R.glbBootstat_PHASE = 4 → s.otp.lc ≠ .retired →
    exec (.bootImageCheck t false) s = becomes t s (serve (enterHeld 6 (atTime t s)))) ∧
  (∀ t a b g v m s, Awake t s → s.dev = .boot → s.fw.running = true → s.get R.glbBootstat_PHASE = 8 →
    meets 32 0 (decide (dramPlan a b (atTime t s) = none)) (atTime t s) = (false, m) →
    dramPlan a b (noteCapacity (dramGeom a b) m.2) = some (g, v) →
    exec (.bootComplete t a b true) s = becomes t s (serve (endKickstand (startReady (startScans (passLimits (openAccess
      (startDram g v (noteCapacity (dramGeom a b) m.2))))))))) ∧
  (∀ t a b s, Awake t s → s.dev = .boot → s.fw.running = true → s.get R.glbBootstat_PHASE = 8 →
    exec (.bootComplete t a b false) s = becomes t s (let m := meets 32 0 true (atTime t s)
      serve (endKickstand (fatal 32 0 none 0 m.2.1 (startScans (openAccess (noteCapacity (dramGeom a b) m.2.2))))))) ∧
  (∀ t outNs s, s.boot.inReset = false → 1000 ≤ outNs → exec (.sysclkLoss ⟨t, outNs⟩) s = becomes t s (
    let m := meets 1 0 true (atTime t s)
    let u := hardSource srcRidge (outNs * 1000 + 1000000000 + holdHard) (enterSafe 3 (raise 1 0 none 0 m.2.1 m.2.2))
    u.setBoot { u.boot with clockHold := true })) ∧
  (∀ t outNs s, s.boot.inReset = false → outNs < 1000 → armedFor 1 0 s = false →
    exec (.sysclkLoss ⟨t, outNs⟩) s = becomes t s (atTime t s)) ∧
  (∀ t outNs s, s.boot.inReset = true → 1000 ≤ outNs → exec (.sysclkLoss ⟨t, outNs⟩) s = becomes t s (
    prolong (outNs * 1000 + (if s.boot.clockHold = true then 1000000000 else 0) + holdHard) (atTime t s))) ∧
  (∀ t khz outNs s, s.boot.inReset = false → (khz < 22500 ∨ 27500 < khz) → exec (.sysclkFreq t ⟨khz, outNs⟩) s = becomes t s (
    let m := meets 2 0 true (atTime t s)
    let u := hardSource srcRidge (outNs * 1000 + 1000000000 + holdHard) (enterSafe 3 (raise 2 0 none 0 m.2.1 m.2.2))
    u.setBoot { u.boot with clockHold := true })) ∧
  (∀ t khz outNs s, s.boot.inReset = false → 22500 ≤ khz → khz ≤ 27500 → armedFor 2 0 s = false →
    exec (.sysclkFreq t ⟨khz, outNs⟩) s = becomes t s (atTime t s)) ∧
  (∀ t khz outNs s, s.boot.inReset = true → (khz < 22500 ∨ 27500 < khz) → exec (.sysclkFreq t ⟨khz, outNs⟩) s = becomes t s (
    prolong (outNs * 1000 + (if s.boot.clockHold = true then 1000000000 else 0) + holdHard) (atTime t s))) ∧
  (∀ t khz s, Awake t s → (khz < 40000 ∨ 60000 < khz) → exec (.ridgeOsc t khz) s = becomes t s (
    let m := meets 3 0 true (atTime t s); let u := latchSafe 3 (raise 3 0 none 0 m.2.1 m.2.2)
    if u.dev = .held then u else setDev .fault 3 (interruptJob u))) ∧
  (∀ t khz s, Awake t s → 40000 ≤ khz → khz ≤ 60000 → armedFor 3 0 s = false →
    exec (.ridgeOsc t khz) s = becomes t s (atTime t s))

/-- R34, R50, R256, R257, R377, R383 to R388, R390: the ridge's watchdog, the emergency stop, and the writes of its own registers. -/
def Obligations.RidgeRowsAct : Prop :=
  (∀ t (key : Byte) s, Awake t s → (∀ u, s.rdg.expiredAt = some u → s.flag R.rdgHbstat_EXPIRED = true → u / 20000 ≠ (atTime t s).now / 20000) →
    armedFor 54 0 s = false → key.toNat = s.get R.rdgHbstat_NEXTKEY →
    exec (.heartbeatKick t .control key) s = becomes t s (
      let u := ((atTime t s).bumpWrap R.rdgHbstat_NEXTKEY).put R.rdgHbstat_ARMED 1; u.setRdg { u.rdg with hbAt := u.now })) ∧
  (∀ t (key : Byte) s, Awake t s → (∀ u, s.rdg.expiredAt = some u → s.flag R.rdgHbstat_EXPIRED = true → u / 20000 ≠ (atTime t s).now / 20000) →
    armedFor 54 0 s = false → key.toNat ≠ s.get R.rdgHbstat_NEXTKEY →
    exec (.heartbeatKick t .control key) s = becomes t s (
      let u := (atTime t s).bump R.rdgHbstat_BADKEYS; raise 53 0 none (u.reg ⟨.rdgHbstat, 0, 0⟩).toNat false u)) ∧
  (∀ t s, Awake t s → s.flag R.rdgHbstat_ARMED = true → s.flag R.rdgHbstat_EXPIRED = false → armedFor 54 0 s = false →
    s.rdg.hbAt + s.get R.rdgHbcfg_PERIOD * 1000000000 * 5 / 6 ≤ (atTime t s).now →
    exec (.heartbeatExpired t) s = becomes t s (let u := (atTime t s).put R.rdgHbstat_EXPIRED 1
      enterSafe 2 (raise 54 0 none 0 false (u.setRdg { u.rdg with expiredAt := some u.now })))) ∧
  (∀ t t0 s, Awake t s → s.rdg.expiredAt = some t0 → t0 + 10000000000 ≤ (atTime t s).now →
    exec (.heartbeatResetRequest t) s = becomes t s (ridgeReset (atTime t s))) ∧
  (∀ t lowNs s, Awake t s → 200 ≤ lowNs →
    exec (.estop t lowNs) s = becomes t s (let u := atTime t s; enterSafe 1 { u with estopUntil := max u.estopUntil (u.now + 1000 * lowNs) })) ∧
  (∀ t lowNs s, lowNs < 50 → exec (.estop t lowNs) s = becomes t s (atTime t s)) ∧
  (∀ t (cause : BitVec 3) s, Awake t s → 3 ≤ cause.toNat →
    exec (.safeEnter t .ridge cause) s = becomes t s (enterSafe cause.toNat ((atTime t s).put R.rdgSafe_CAUSE cause.toNat))) ∧
  (∀ t s, Awake t s → exec (.safeRelease t .ridge) s = becomes t s (releaseSafe (atTime t s))) ∧
  (∀ t s, Awake t s → exec (.safeResetreq t .ridge) s = becomes t s (ridgeReset (atTime t s))) ∧
  (∀ t (v : Byte) s, Awake t s → exec (.rdgCauseClear t .ridge v) s = becomes t s (let u := atTime t s
    clearCauses (v.toNat &&& (0x20 + (if u.estopIn = true then 0 else 0x02) + 0x40 + (if u.flag R.rdgHbstat_ARMED = true then 1 else 0))) u)) ∧
  (∀ t (v : BitVec 16) s, Awake t s → exec (.rdgGrantWrite t .ridge v) s = becomes t s (setGrant v.toNat (atTime t s))) ∧
  (∀ t (h : Fin 2) v s, Awake t s → exec (.wdfaultClear t .ridge h v) s = becomes t s (let u := atTime t s
    let low := (maskList 32 v.toNat).filter fun b => !(u.strobe (8 * h + b / 4) (b % 4)).genHigh
    u.setReg ⟨.hptWdfault, h, 0⟩ (u.reg ⟨.hptWdfault, h, 0⟩ &&& ~~~ BitVec.ofNat 32 ((low.map (2 ^ ·)).sum))))

/-- R46, R264 to R275, R280, R282: device lanes, PLLs and the PCI Express endpoint. -/
def Obligations.LaneRowsAct : Prop :=
  (∀ t (l : Lane) heads s, Awake t s → s.laneOn l = true → s.flag R.lnsStat_ADAPTED l = true → s.prbsOn l = false → gainsLock heads = true →
    exec (.laneBlockLock t ⟨l, heads⟩) s = becomes t s (let u := (atTime t s).put R.lnsStat_LOCK 1 l
      if l.val < 16 then u else u.put (lockField (fabLane l).2) 1 (fabLane l).1)) ∧
  (∀ t (l : Lane) heads s, Awake t s → s.flag R.lnsStat_LOCK l = true → losesLock heads = true →
    exec (.laneBlockLoss t ⟨l, heads⟩) s = becomes t s (blockLoss l (meets 25 l true (atTime t s)).2.1 (meets 25 l true (atTime t s)).2.2)) ∧
  (∀ t (l : Lane) s, Awake t s →
    exec (.cdrLockLoss t l) s = becomes t s (let u := atTime t s; if u.flag R.lnsStat_LOCK l = true then blockLoss l false u else laneRestart l u)) ∧
  (∀ t (l : Lane) s, Awake t s → s.laneOn l = true → exec (.laneEnable t ⟨l, .idle⟩) s = becomes t s (startStream l (atTime t s))) ∧
  (∀ t (l : Lane) s, Awake t s → s.laneOn l = true → exec (.laneEnable t ⟨l, .pll⟩) s = becomes t s (let u := atTime t s
    settlePlls { u with lanePll := u.laneRate l :: u.lanePll.erase (u.laneRate l) })) ∧
  (∀ t (l : Lane) s, Awake t s → s.laneOn l = true → s.flag R.lnsStat_PLL l = true →
    exec (.laneEnable t ⟨l, .cdr⟩) s = becomes t s ((atTime t s).put R.lnsStat_CDR 1 l)) ∧
  (∀ t (l : Lane) s, Awake t s → s.laneOn l = true → s.flag R.lnsStat_CDR l = true →
    exec (.laneEnable t ⟨l, .adapted⟩) s = becomes t s (adaptLane l ((atTime t s).put R.lnsStat_ADAPTED 1 l))) ∧
  (∀ t (inst : Fin 6) s, Awake t s → inst.val < 3 →
    exec (.pllUnlock t inst) s = becomes t s (let m := meets 4 inst true (atTime t s); enterFault (raise 4 inst none 0 m.2.1 m.2.2))) ∧
  (∀ t (inst : Fin 6) s, Awake t s → 3 ≤ inst.val →
    exec (.pllUnlock t inst) s = becomes t s (let m := meets 4 inst true (atTime t s); let u := raise 4 inst none 0 m.2.1 m.2.2
      forEach (u.lanesAt (inst - 3)) (settlePlls { u with lanePll := u.lanePll.erase (inst - 3) }) fun l x =>
        if x.flag R.lnsStat_LOCK l = true then blockLoss l false x else laneRestart l x)) ∧
  (∀ t (rate : Fin 3) s, Awake t s →
    exec (.lanePllRelock t rate) s = becomes t s (let u := atTime t s
      settlePlls { u with lanePll := rate.val :: u.lanePll.erase rate })) ∧
  (∀ t m (l : Lane) v s, Awake t s → Writes 17 m s → exec (.lnsInj t m l v) s = becomes t s (
    let u := (written m t s).put R.lnsInj_LEN (fieldOf v 8 6) l; let bits := if fieldOf v 0 2 = 2 then fieldOf v 8 6 + 1 else 1
    let x := if u.ownPattern l = true ∧ fieldOf v 0 2 ≠ 3 then injectPattern l bits u else u
    let y := if x.streamPaused (linkOf l) = true ∨ x.now < (x.streamIn x.tx (linkOf l)).at_ then x
      else { x with tx := { x.tx with inj := x.tx.inj ++ [(l.val, (x.now, fieldOf v 0 2, bits))] } }
    if fieldOf v 0 2 = 0 then u else y.emit (.laneError l (fieldOf v 0 2) bits))) ∧
  (∀ t s, Awake t s → (atTime t s).hostLink = true → exec (.pcieReset t .flr) s = becomes t s (
    let u := endSession .host none (atTime t s); reEnumerate u.now (u.bump R.lnsPciestat_FLRS))) ∧
  (∀ t kind s, Awake t s → (atTime t s).hostLink = true → kind ≠ .flr → exec (.pcieReset t kind) s = becomes t s (
    pcieUp ((endSession .host none (atTime t s)).bump R.lnsPciestat_DOWNS))) ∧
  (∀ t s, Awake t s → (atTime t s).hostLink = true →
    exec (.pcieError t true) s = becomes t s (raise 27 0 none 0 false (logHeader (atTime t s)))) ∧
  (∀ t s, Awake t s → (atTime t s).hostLink = true →
    exec (.pcieError t false) s = becomes t s (let m := meets 26 0 true (atTime t s); raise 26 0 none 0 m.2.1 m.2.2))

/-- R319 to R327, R332 to R348, R354: DRAM bursts and the controller's own events, once DRAM is trained. -/
def Obligations.DramRowsAct : Prop :=
  (∀ t (d : Dimm) made c e s, Awake t s → s.trained = true → (∀ r ∈ made, s.inDram (burstOf r.addr) 64 = true) →
    (readsJoin made (atTime t s)).nextRead d = some (c, e) →
    exec (.dramRead t d made) s = becomes t s (reads [13, 14] (
      let r := readChosen e.1.req 1 (burstOf e.1.addr) (readTaken d c e (readsJoin made (atTime t s))); r.2.emit (.burst e.1.req r.1)))) ∧
  (∀ t (d : Dimm) made s, Awake t s → s.trained = true → (∀ r ∈ made, s.inDram (burstOf r.addr) 64 = true) →
    (readsJoin made (atTime t s)).nextRead d = none →
    exec (.dramRead t d made) s = becomes t s (reads [13, 14] (readsJoin made (atTime t s)))) ∧
  (∀ t (d : Dimm) r s, Awake t s → s.trained = false ∨ s.inDram (burstOf r.addr) 64 = false → (atTime t s).nextRead d = none →
    exec (.dramRead t d [r]) s = becomes t s (reads [13, 14] ((atTime t s).emit (.burst r.req none)))) ∧
  (∀ (s : State) (d : Nat) c e, s.nextRead d = some (c, e) → (c, e) ∈ s.choices d ∧ ∀ x ∈ s.choices d, c ≤ x.1) ∧
  (∀ r u now, 20000000 < now - u → readClass r u now ≤ 2) ∧
  (∀ t (req : Fin 8) addr data s, Awake t s → s.inDram addr data.length = true →
    exec (.dramWrite t req addr data) s = becomes t s (dramWrite req addr data (atTime t s))) ∧
  (∀ t (req : Fin 8) addr data s, Awake t s → s.inDram addr data.length = true →
    exec (.narrowWrite t req addr data) s = becomes t s (reads [12, 13, 14] (dramWrite req addr data (atTime t s)))) ∧
  (∀ t (d : Dimm) s, Awake t s → s.trained = true → s.readWaits d = false →
    exec (.writeDrain t d) s = becomes t s (reads [12] (drainN ((atTime t s).drainable d) d (atTime t s)))) ∧
  (∀ t s, Awake t s → s.trained = true →
    exec (.rowWindowEnd t) s = becomes t s (endWindow 1 (endWindow 0 (endLevels (atTime t s))))) ∧
  (∀ (d : Nat) (u : State), mapGet 0 u.dram.windowAt d + (if u.flag (doubleField d) = true then 16000000000 else 32000000000) ≤ u.now →
    endWindow d u = u.setDram { u.dram with
      trackers := u.dram.trackers.filter (fun e => decide (e.1 / 128 ≠ d)), windowAt := nset 0 u.dram.windowAt d u.now }) ∧
  (∀ u : State, u.dram.levelAt + u.levelWindow ≤ u.now → endLevels u = (let v := forEach (List.range 8) u settleLevel
    v.setDram { v.dram with crossed := [], levelAt := v.now })) ∧
  (∀ t (d : Dimm) twice s, Awake t s → s.trained = true → (∀ u, s.dram.mr4At.lookup d.val = some u → u + 16000000000 ≤ (atTime t s).now) →
    exec (.mr4Poll t d twice) s = becomes t s (let u := settleDebt d (atTime t s)
      (u.setDram { u.dram with mr4At := (d.val, u.now) :: u.dram.mr4At.filter fun e => decide (e.1 ≠ d.val) }).put (if d = 0 then R.dmcRefstat_DOUBLE0 else R.dmcRefstat_DOUBLE1) (b2n twice))) ∧
  (∀ t (d : Dimm) sub rank (bank : Fin 4) s, Awake t s → s.trained = true → (atTime t s).rankDebt d sub rank < 12 →
    s.targets d sub rank bank = false →
    exec (.dramRefresh t d sub rank bank) s = becomes t s (settleOne (debtKey d sub rank bank) (settleDebt d (atTime t s)))) ∧
  (∀ t (d : Dimm) sub rank (bank : Fin 4) s, Awake t s → s.trained = true → 12 ≤ (atTime t s).rankDebt d sub rank →
    exec (.dramRefresh t d sub rank bank) s = becomes t s (
      allBank (((atTime t s).rankDebt d sub rank - 12) / 4 + 1) d sub rank (settleDebt d (atTime t s)))) ∧
  (∀ t (d : Dimm) sub moved s, Awake t s → s.trained = true → s.subBusy d (b2n sub) = false →
    mapGet 0 s.dram.used (2 * d.val + b2n sub) + 400000 ≤ (atTime t s).now →
    exec (.dqsRemeasure t d sub true moved) s = becomes t s (let u := atTime t s
      let k := 2 * d.val + b2n sub
      let m := meets 35 d moved (u.drawn.setDram { u.dram with dqsAt := nset 0 u.dram.dqsAt k u.now, delay := nset 0 u.dram.delay k (Config.freeNat u.freeCount) })
      if m.1 = true then raise 35 d none 0 m.2.1 (m.2.2.bump R.dmcTrainstat_DRIFT) else m.2.2)) ∧
  (∀ t (d : Dimm) sub moved s, Awake t s → s.trained = true → mapGet 0 s.dram.dqsAt (2 * d.val + b2n sub) + 1000000000000 ≤ (atTime t s).now →
    exec (.dqsRemeasure t d sub false moved) s = becomes t s (let u := atTime t s; let k := 2 * d.val + b2n sub
      let v := (u.drawn.setDram { u.dram with dqsAt := nset 0 u.dram.dqsAt k u.now, delay := nset 0 u.dram.delay k (Config.freeNat u.freeCount) }).bump R.dmcTrainstat_FORCED
      let m := meets 35 d moved (v.setDram { v.dram with dqsHold := nset 0 v.dram.dqsHold k (v.now + 400000) })
      if m.1 = true then raise 35 d none 0 m.2.1 (m.2.2.bump R.dmcTrainstat_DRIFT) else m.2.2)) ∧
  (∀ t (d : Dimm) s, Awake t s → s.trained = true →
    exec (.dramAlert t d) s = becomes t s (let u := atTime t s; let last := mapGet 0 u.dram.lastAlert d
      let m := meets 36 d (decide (last ≠ 0 ∧ u.now < last + 1000000000)) (u.bump R.dmcTrainstat_ALERTS)
      let v := reissue d (m.2.2.setDram { m.2.2.dram with lastAlert := nset 0 m.2.2.dram.lastAlert d m.2.2.now })
      if m.1 = true then fatal 36 d none 0 m.2.1 v else v)) ∧
  (∀ t s, Awake t s → s.trained = true → s.dram.passEnd ≠ 0 → s.skipPoison 257 s.dram.scrub < s.scrubBursts →
    s.scrubDue (s.skipPoison 257 s.dram.scrub) ≤ (atTime t s).now → exec (.scrubRead t) s = becomes t s (reads [13, 14] (let n := s.skipPoison 257 s.dram.scrub
      let v := scrubBurst (64 * n) (atTime t s)
      if v.scrubBursts ≤ n + 1 then endPass v else setScrub (n + 1) v))) ∧
  (∀ t s, Awake t s → s.trained = true → s.dram.passEnd = 0 → s.skipPoison 257 s.dram.scrub = 0 → 0 < s.scrubBursts →
    exec (.scrubRead t) s = becomes t s (reads [13, 14] (let u := atTime t s
      let v := scrubBurst 0 (u.setDram { u.dram with passEnd := u.now + scrubPs (s.get R.eccScrub_PERIOD) })
      if v.scrubBursts ≤ 1 then endPass v else setScrub 1 v))) ∧
  (∀ t s, Awake t s → s.dram.passEnd ≠ 0 → s.dram.passEnd ≤ (atTime t s).now → s.dram.lateRaised = false →
    exec (.scrubLate t) s = becomes t s (let u := atTime t s; raise 42 0 none 0 false (u.setDram { u.dram with lateRaised := true }))) ∧
  (∀ t m s, Awake t s → Writes 9 m s → s.reservedAddr s.diagAddr = false → s.diagAddr < s.capacity →
    exec (.diagRawWrite t m) s = becomes t s (diagWrite s.diagAddr ((written m t s).put R.eccDiagctrl_ERR 0)) ∧
    exec (.diagRawRead t m) s = becomes t s (diagRead s.diagAddr ((written m t s).put R.eccDiagctrl_ERR 0)) ∧
    exec (.diagEncode t m) s = becomes t s (diagCheck ((written m t s).put R.eccDiagctrl_ERR 0)))

/-- R355 to R375: the DMA channels and the CRC units, written by the masters that may. -/
def Obligations.EngineRowsAct : Prop :=
  (∀ t m (n : DmaCh) v s, Awake t s → exec (.dmaStart t m n v) s = becomes t s (dmaCtrlWrite m n (v ||| 1) (written m t s))) ∧
  (∀ t m (n : DmaCh) v s, Awake t s → exec (.dmaAbort t m n v) s = becomes t s (dmaCtrlWrite m n (v ||| 2) (written m t s))) ∧
  (∀ t m (n : DmaCh) v s, Awake t s → exec (.dmaResume t m n v) s = becomes t s (dmaCtrlWrite m n (v ||| 4) (written m t s))) ∧
  (∀ t (n : DmaCh) d s, Awake t s → s.dmaState n = 1 → (s.dmaCh n).cur = some d → (s.dmaCh n).writeBack = false →
    exec (.dmaDescriptor t n) s = becomes t s (reads [15] (dmaMove n d (atTime t s)))) ∧
  (∀ t (n : DmaCh) d s, Awake t s → s.dmaState n = 1 → (s.dmaCh n).cur = some d → (s.dmaCh n).writeBack = true →
    exec (.dmaDescriptor t n) s = becomes t s (reads [15] (chainEnd n d (atTime t s)))) ∧
  (∀ t (n : DmaCh) s, Awake t s → s.dmaState n = 1 → (s.dmaCh n).cur = none →
    exec (.dmaDescriptor t n) s = becomes t s (reads [15] (dmaTake n (atTime t s)))) ∧
  (∀ t (n : DmaCh) s, Awake t s → s.dmaState n = 1 → (s.dmaCh n).cur = none →
    (s.dmaCh n).since + s.get R.dmaTimeout_MS * 1000000000 ≤ (atTime t s).now →
    exec (.dmaAccessTimeout t n) s = becomes t s (let u := atTime t s; let x := u.dmaCh n
      if x.tries < u.get R.dmaCtrl_RETRY n then u.setDma n { x with tries := x.tries + 1, since := u.now }
      else dmaFail n 2 (x.at_ - x.at_ % 32) 0 1 u)) ∧
  (∀ t (n : DmaCh) d s, Awake t s → s.dmaState n = 1 → (s.dmaCh n).cur = some d → addrSpace d.src ≠ 3 →
    (s.dmaCh n).since + s.get R.dmaTimeout_MS * 1000000000 ≤ (atTime t s).now →
    exec (.dmaAccessTimeout t n) s = becomes t s (let u := atTime t s; let x := u.dmaCh n
      if x.tries < u.get R.dmaCtrl_RETRY n then u.setDma n { x with tries := x.tries + 1, since := u.now }
      else dmaFail n 2 (d.src + x.moved + x.hold.length) 0 0 u)) ∧
  (∀ t m (u : CrcUnit) v s, Awake t s → WritesCrc m u s → exec (.crcInit t m u v) s = becomes t s (
    let w := v ||| 0x100; let x := ((written m t s).put R.crcCfg_MODE (fieldOf w 4 1) u).put R.crcCfg_POLY (fieldOf w 0 2) u
    let y := if fieldOf w 8 1 = 1 then crcInitUnit u x else x
    if fieldOf w 9 1 = 1 then crcGoUnit u y else y)) ∧
  (∀ t m (u : CrcUnit) v s, Awake t s → WritesCrc m u s → exec (.crcGo t m u v) s = becomes t s (
    let w := v ||| 0x200; let x := ((written m t s).put R.crcCfg_MODE (fieldOf w 4 1) u).put R.crcCfg_POLY (fieldOf w 0 2) u
    let y := if fieldOf w 8 1 = 1 then crcInitUnit u x else x
    if fieldOf w 9 1 = 1 then crcGoUnit u y else y)) ∧
  (∀ t (u : CrcUnit) s, Awake t s → s.flag R.crcStat_BUSY u = true →
    exec (.crcScanDone t u) s = becomes t s (let v := atTime t s
      match scanLoop (v.get R.crcScanlen_LEN u / 64 + 2) u (v.get R.crcScanlo_ADDR u + 2 ^ 32 * v.get R.crcScanhi_ADDR u) (v.get R.crcScanlen_LEN u) v with
      | (none, w) => w.put R.crcStat_BUSY 0 u
      | (some b, w) => (((w.put R.crcScanlo_ADDR (lo32 b) u).put R.crcScanhi_ADDR (hi32 b) u).put R.crcStat_ERR 1 u).put R.crcStat_BUSY 0 u)) ∧
  (∀ t m (u : CrcUnit) (k : Fin 3) v s, Awake t s → WritesCrc m u s →
    exec (.crcDataFeed t m u k v) s = becomes t s (let w := written m t s
      if s.flag R.crcStat_BUSY u = true then w.put R.crcStat_OVERRUN 1 u else if s.flag R.crcCfg_MODE u = true then w else setCrcVal u (crcFeed (w.crcPolyOf u) (w.crcVal u) ((wordBytes v).take (2 ^ k.val))) w)) ∧
  (∀ t m (u : CrcUnit) hi v s, Awake t s → WritesCrc m u s →
    exec (.crcValWrite t m u hi v) s = becomes t s (let w := written m t s
      setCrcVal u (if hi = true then s.crcVal u % 2 ^ 32 + 2 ^ 32 * v.toNat else v.toNat + 2 ^ 32 * (s.crcVal u / 2 ^ 32)) w))

/-- R110, R158 to R163, R169 to R175, R405, R418 to R423: decoding, the compressor, block faults, conversions and BIST slices. -/
def Obligations.StreamAndSliceRowsAct : Prop :=
  (∀ t (ch : Chan) (b : Band) s, Awake t s →
    ((atTime t s).bandSegs ch b).filter (fun g => (atTime t s).decodeDue (4 * ch.val + b.val / 4) ((atTime t s).seg ch g).y && !((atTime t s).seg ch g).stops) = [] →
    exec (.lineDecodeStart t ch b) s = becomes t s (reads [1, 2, 3, 4, 5, 6, 7] (atTime t s))) ∧
  (∀ t (ch : Chan) (b : Band) g s, Awake t s →
    ((atTime t s).bandSegs ch b).filter (fun g => (atTime t s).decodeDue (4 * ch.val + b.val / 4) ((atTime t s).seg ch g).y && !((atTime t s).seg ch g).stops) = [g] →
    exec (.lineDecodeStart t ch b) s = becomes t s (reads [1, 2, 3, 4, 5, 6, 7] (let u := atTime t s; let y := (u.seg ch g).y; let p := 4 * ch.val + b.val / 4
      let x := decodeSegLine ch g (traceImage p y 0 u)
      let v := if (x.1.seg ch g).y = y + 1 then traceImage p y 1 (x.1.tally 0x0101 ch (x.1.seg ch g).width) else x.1
      let w := (lowRunway ch g (u.seg ch g).runway v).tally 0x0102 ch (44 + 6 + x.2)
      released ch (w.put R.chDecmax_MAXCYC (max (w.get R.chDecmax_MAXCYC ch) (min 0xFFFF (44 + 6 + x.2))) ch)))) ∧
  (∀ t (ch : Chan) (g : Seg) s, Awake t s →
    (∀ k ∈ (s.seg ch g).upcoming, k ∈ (s.seg ch g).fetched.map (·.1) ∨ k ∈ (s.seg ch g).fetchErr) → exec (.blockFetch t ch g) s = becomes t s (reads [6] (atTime t s))) ∧
  (∀ t (ch : Chan) (g : Seg) k before after s, Awake t s → (s.seg ch g).upcoming = before ++ k :: after →
    (∀ j ∈ before, j ∈ (s.seg ch g).fetched.map (·.1) ∨ j ∈ (s.seg ch g).fetchErr) →
    k ∉ (s.seg ch g).fetched.map (·.1) → k ∉ (s.seg ch g).fetchErr →
    exec (.blockFetch t ch g) s = becomes t s (reads [6] (fetchBurst ch g k (atTime t s)))) ∧
  (∀ t (ch : Chan) (g : Seg) e rest s, Awake t s → (s.seg ch g).ends = e :: rest → e.name = 0 → e.codesCrc = e.carried →
    armedFor 8 ch s = false →
    exec (.blockVerify t ch g) s = becomes t s (reads [1, 2, 3, 7] (let u := atTime t s; released ch (u.setSeg ch g { u.seg ch g with ends := rest })))) ∧
  (∀ t (ch : Chan) (g : Seg) e rest s, Awake t s → (s.seg ch g).ends = e :: rest → (e.name ≠ 0 ∨ e.codesCrc ≠ e.carried) →
    exec (.blockVerify t ch g) s = becomes t s (reads [1, 2, 3, 7] (let u := atTime t s
      let m := meets 8 ch true (u.setSeg ch g { u.seg ch g with ends := rest })
      released ch (blockFault ch g e m.2.1 m.2.2)))) ∧
  (∀ t (p : Port) (g : Seg) y inj s, Awake t s → (s.seg (p.val / 4) g).late.lookup (p.val, y) = some inj →
    (s.seg (p.val / 4) g).lateSeen.contains (p.val, y) = false →
    exec (.decodeLate t p g y) s = becomes t s (let ch := p.val / 4; let u := atTime t s
      let v := u.setSeg ch g { u.seg ch g with lateSeen := (p.val, y) :: (u.seg ch g).lateSeen }
      let w := raise 7 ch none 0 inj ((v.bump R.chDeclate_LINES ch).tally 0x0107 ch)
      match w.job with
      | some j => if bitOf j.policy 0 = true then w else haltFor ch g 2 true [(y, (u.seg ch g).first, (u.seg ch g).first + (u.seg ch g).width)] w
      | none => w)) ∧
  (∀ t (p : Port) r s, Awake t s → (mapGet [] s.faults (p.val / 4)).find? (fun r => !r.done && decide (homeOf (p.val / 4) r.seg = p.val)) = some r →
    exec (.redecodeDone t p) s = becomes t s (reads [8, 10] (let ch := p.val / 4
      let at_ : DecSt := match s.redec.lookup p.val with | some (g, pg, d) => if g = r.seg ∧ pg = r.page then d else {} | none => {}
      let x := redecode (r.w * r.pageLen * 41 + 4096) ch r [] [] at_ at_ (atTime t s)
      let q := (mapGet [] x.2.faults ch).map fun e => if e = r then { r with done := true, name := x.1.name, bitPos := x.1.bitPos } else e
      let next := (x.2.redec.filter fun e => decide (e.1 ≠ p.val)) ++ (x.1.next.toList.map fun d => (p.val, (r.seg, r.page, d)))
      let u := { x.2 with faults := nset [] x.2.faults ch q, redec := next }
      if x.1.name = fnNotReproduced ∨ x.1.name = fnRead then u
      else
        let v := dramWrite ch (diagBase ch r.slot) (savedState r.w x.1.first) u
        match x.1.error with
        | some d => dramWrite ch (diagBase ch r.slot + 0x4000) (savedState r.w d) v
        | none => v))) ∧
  (∀ t m (ch : Chan) v r rest s, Awake t s → Writes (1 + ch) m s → mapGet [] s.faults ch.val = r :: rest → fieldOf v 0 1 = 1 → r.done = true →
    exec (.bfpop t m ch v) s = becomes t s { written m t s with faults := nset [] s.faults ch rest }) ∧
  (∀ t s, Awake t s → exec (.compressorBlock t) s = becomes t s (reads [9] (serve (compressorStep (atTime t s))))) ∧
  (∀ t (slot : Fin 64) (code : BitVec 14) s, Awake t s → slot.val < 48 → (atTime t s).now / 500000 % 64 = slot.val → s.convSlot ≤ (atTime t s).now / 500000 →
    exec (.senseConversion t slot code) s = becomes t s (let u := atTime t s
      convertInput slot code.toNat { u with convSlot := u.now / 500000 + 1 })) ∧
  (∀ t (slot : Fin 64) (code : BitVec 14) s, Awake t s → 48 ≤ slot.val → (atTime t s).now / 500000 % 64 = slot.val → s.convSlot ≤ (atTime t s).now / 500000 →
    exec (.senseConversion t slot code) s = becomes t s (let u := atTime t s; let f := u.now / 32000000
      convertReference (slot.val - 48 + 16 * (f % 2)) (decide (f / 2 % 2 = 0)) code.toNat { u with convSlot := u.now / 500000 + 1 })) ∧
  (∀ t (g : BistGroup) inst s, Awake t s → s.dev ≠ .boot → s.dev ≠ .held → s.otp.lc ≠ .retired → s.bistPlan.contains (g.val, inst) = true →
    inst < instancesOf g → s.spareBusy g = false → (s.sliceOf g).isSome = false → s.slices.length < s.get R.bstCtrl_MAXSLICE →
    exec (.bistSliceStart t g inst) s = becomes t s (let u := atTime t s
      sramRead g inst (setSlice g (some { g := g, inst := inst, step := 1, since := u.now, asked := true }) u))) ∧
  (∀ t (g : BistGroup) inst s, Awake t s → s.dev ≠ .boot → s.dev ≠ .held → s.otp.lc ≠ .retired → s.bistPlan.contains (g.val, inst) = false →
    s.flag R.bstCtrl_EN = true → s.bistDone.contains (g.val, inst) = false → s.bistAt ≤ (atTime t s).now →
    inst < instancesOf g → s.spareBusy g = false → (s.sliceOf g).isSome = false → s.slices.length < s.get R.bstCtrl_MAXSLICE →
    exec (.bistSliceStart t g inst) s = becomes t s (let u := atTime t s
      sramRead g inst (setSlice g (some { g := g, inst := inst, step := 1, since := u.now, asked := false })
        { u with bistAt := u.now + s.get R.bstCtrl_PERIOD * 3600000000000000 / 288 }))) ∧
  (∀ t (g : BistGroup) x s, Awake t s → s.sliceOf g = some x → x.step = 1 →
    (s.cad.prevStart = some (atTime t s).now ∨ x.since + 100000000 ≤ (atTime t s).now) →
    exec (.bistSliceSwap t g) s = becomes t s (let u := atTime t s; setSlice g (some { x with step := 3, since := u.now }) u)) ∧
  (∀ t (g : BistGroup) x s, Awake t s → s.sliceOf g = some x → x.step = 5 →
    (s.cad.prevStart = some (atTime t s).now ∨ x.since + 100000000 ≤ (atTime t s).now) →
    exec (.bistSliceSwap t g) s = becomes t s (sliceEnds x (setSlice g none (atTime t s)))) ∧
  (∀ t (g : BistGroup) x s, Awake t s → s.sliceOf g = some x → x.step = 3 → armedFor 64 g s = false →
    exec (.bistMarchDone t g none) s = becomes t s (let u := atTime t s; setSlice g (some { x with step := 5, since := u.now }) u)) ∧
  (∀ t (g : BistGroup) x a (b : Fin 72) s, Awake t s → s.sliceOf g = some x → x.step = 3 → armedFor 64 g s = false →
    exec (.bistMarchDone t g (some (a, b))) s = becomes t s (retire g x.inst a b.val (sliceFails x a.toNat b.val false (atTime t s)))) ∧
  (∀ t m (i : Fin 66) s, Awake t s → Writes 16 m s → exec (.errCfgClr t m i) s = becomes t s (clearDetector i (written m t s)))

/-- The command in front of the queue runs on the state with the rest of the queue. The model's choice (log entry 1): with no command waiting, the
block idles. -/
def Obligations.StepRunsFront : Prop :=
  (∀ c rest s, s.pending = c :: rest → step s = exec c { s with pending := rest }) ∧ ∀ s, s.pending = [] → step s = .next s


/-- The queue is first in, first out: a step takes its front, no command adds to it, and time does not fall (log entries 1 and 2). -/
def Obligations.QueueFirstInFirstOut : Prop :=
  ∀ c rest s s', s.pending = c :: rest → step s = .next s' → s'.pending = rest ∧ s.now ≤ s'.now

/-- What the spec gives for reset: BOOT, full reset, ridge holding the safe state with cause BOOT, the registers of every block at
the reset values of their tables, the default bindings of the panniers; no memory lists a byte and no command waits. -/
def Obligations.ResetAsSpecified : Prop :=
  let s := State.reset; let r (k : RegKind) (i : Nat) : Word := s.reg ⟨k, i, 0⟩
  s.dev = .boot ∧ s.boot.inReset = true ∧ s.job = none ∧ s.pending = [] ∧ s.mem = [] ∧ s.flash = [] ∧ s.inject = none ∧
  r .rdgStatus 0 = 1 ∧ r .rdgCause 0 = 1 ∧ r .rdgHbcfg 0 = 100 ∧ r .rdgHbstat 0 = 1 ∧ r .rdgHpen 0 = 0 ∧ r .glbDevstate 0 = 0 ∧
  r .glbRstcause 0 = 2 ∧ r .glbIdentity 0 = 0x2618B001 ∧ r .glbHostacc 0 = 0 ∧ r .glbClaim0 0 = 0 ∧ r .glbClaim1 0 = 0 ∧
  r .cadPitch 0 = 0x00100000 ∧ r .cadFirecfg 0 = 0x1388 ∧ r .fabState 0 = 1 ∧ r .fabLookahead 0 = 0x9C40 ∧ r .dmcWq 0 = 0x00100030 ∧
  r .dmcCfg 0 = 0x300 ∧ r .eccCfg 0 = 0x01004008 ∧ r .eccScrub 0 = 0x5A0 ∧ r .dmaTimeout 0 = 100 ∧ r .bstCtrl 0 = 0x00180101 ∧
  (∀ n : Fin 16, r .pnrStatus n = 0 ∧ r .pnrLock n = 0 ∧ r .pnrEpoch n = 0) ∧
  ((List.range 16).map fun n => (s.get R.pnrBind_SEND n, s.get R.pnrBind_RECV n)) =
    [(1, 2), (2, 1), (2, 1), (1, 2), (1, 3), (3, 1), (2, 3), (3, 2), (4, 2), (2, 4), (0, 0), (0, 0), (0, 0), (0, 0), (0, 0), (0, 0)]

/-- The invariant of every step holds at reset. -/
def Obligations.ResetIsSound : Prop := State.reset.sound

/-- R24, R98, R255, R377: every step keeps the strobes of a port without head power low, and `GLB_DEVSTATE` showing the device state and the
job. -/
def Obligations.StepKeepsSound : Prop := ∀ s s', s.sound → step s = .next s' → s'.sound

/-- R449, R450: no command is refused, and the only stop is the fault of a rail beyond its absolute maximum rating, which
stops the block by name before anything is done. -/
def Obligations.OnlyRatingsStop : Prop :=
  (∀ c s, (∃ s', exec c s = .next s') ∨ (exec c s = .fault .beyondRatings ∧
    ((∃ t rails, c = .powerOn t rails ∧ beyond rails = true) ∨ ∃ t rail mv d, c = .brownOut t rail mv d ∧ railMax.getD rail 0 < mv))) ∧
  (∀ t rails s, beyond rails = true → exec (.powerOn t rails) s = .fault .beyondRatings) ∧
  (∀ t (rail : Fin 8) mv d s, railMax.getD rail 0 < mv → exec (.brownOut t rail mv d) s = .fault .beyondRatings)


/-- R26, R29, R57, R99, R308: while internal reset is asserted, in full reset or from that step of an orderly entry on, no other command does anything
but let time pass, except that in kickstand what comes at a fabric port passes on: a packet by the paired port, where the rates of the two agree. -/
def Obligations.FullResetHolds : Prop :=
  (∀ c s, actsInReset c = false → (∀ t, (atTime t s).asserted = true) → (∀ t q far pair, c = .fabricAlign t q far pair → (atTime t s).kicking = false) →
    (∀ e, packetOf c = some e → (atTime e.1 s).kicking = false) → ∃ t, exec c s = becomes t s (atTime t s)) ∧
  (∀ c t (q : FabPort) p s, packetOf c = some (t, q, p) → (atTime t s).kicking = true →
    exec c s = becomes t s (let u := atTime t s
      if u.get R.fabPctrl_RATE q = u.get R.fabPctrl_RATE (kickPair q) then queuePacket (kickPair q) p u else u)) ∧
  (∀ t (q : FabPort) far (pair : AlignPair) s, (atTime t s).kicking = true →
    exec (.fabricAlign t q far pair) s = becomes t s (passAlign q far pair.aseq.toNat (atTime t s)))

/-- R24, R255, R377, R387: whatever command has run, while the safe state is held no `HPEN` is asserted and no strobe is high. -/
def Obligations.SafeStateHoldsStrobes : Prop :=
  ∀ c s s', exec c s = .next s' → s'.flag R.rdgStatus_SAFE = true → ∀ p k, hpen s' p = false ∧ (s'.strobe p k).high = false

/-- R65, R67, R466: in HELD an opcode that the recovery responder does not serve, and with cause 7 every opcode but `IDENTIFY`, returns HELD
and does nothing else. -/
def Obligations.NotServedInHeld : Prop :=
  ∀ i t c r s, opRowOf i = some (t, c, r) → Awake t s → takes c.q (atTime t s) = true → s.dev = .held →
    (r.held = false ∨ (s.get R.glbBootstat_HELDCAUSE = 7 ∧ r.op ≠ 0x0101)) →
    exec i s = ends t s (respond r.op c 11 0 [] (atTime t s))

/-- R92, R99, R103, R389, R466, R469: the tests that all commands share, in their order: flags or words that the row does not name return
BAD_ARGUMENT, a state not listed or a job not loaded WRONG_STATE; then a row of group 0x05 or 0x07 that another member sends to a control-only member
returns VERSION_MISMATCH unless its arguments break a range. `RDG_MAINT` returns WRONG_STATE in every state but READY. -/
def Obligations.JudgedInOrder : Prop :=
  (∀ i t c r s, opRowOf i = some (t, c, r) → Awake t s → takes c.q (atTime t s) = true →
    ¬(s.dev = .held ∧ (r.held = false ∨ (s.get R.glbBootstat_HELDCAUSE = 7 ∧ r.op ≠ 0x0101))) →
    let away := c.q = .q8 ∧ (s.get R.fabState_MODE = 3 ∨ s.get R.fabState_MODE = 4) ∧ (r.op / 256 = 5 ∨ r.op / 256 = 7)
    let named := c.flags = 0 ∧ r.argw ≤ c.args.length ∧ ∀ w ∈ c.args.drop r.argw, w = 0
    let listed := (s.dev = .held ∨ s.dev ∈ r.states) ∧ (r.needsJob = true → s.job ≠ none)
    (¬named → exec i s = ends t s (respond r.op c 3 0 [] (atTime t s))) ∧
    (named → ¬listed → exec i s = ends t s (respond r.op c 4 0 [] (atTime t s))) ∧
    (named → listed → away → exec i s = ends t s (respond r.op c 8 0 [] (atTime t s)) ∨
      ∃ detail, exec i s = ends t s (respond r.op c 3 detail [] (atTime t s)))) ∧
  ∀ t c s, Awake t s → takes c.q (atTime t s) = true → s.dev ≠ .ready → c.q = .ridge → c.flags = 0 → 1 ≤ c.args.length →
    (∀ w ∈ c.args.drop 1, w = 0) → exec (.rdgMaint t c) s = ends t s (respond 0x1007 c 4 0 [] (atTime t s))


/-- R93, R95, R99: a command that cannot be taken yet is not run, and a completion without its open command has nothing to complete: neither changes
anything. -/
def Obligations.NothingTakenNothingDone : Prop :=
  (∀ i t c r s, opRowOf i = some (t, c, r) → Awake t s → takes c.q (atTime t s) = false → exec i s = becomes t s (atTime t s)) ∧
  (∀ i t op q s, doneOf i = some (t, op, q) → Awake t s → openFor op q s = none → exec i s = becomes t s (atTime t s))


/-- R78: while FULL is 0 the sender's writes of words and LEN are stored, and a post sets FULL, counts PSEQ, stamps the epoch, clears WFULL, latches
LEN as it stands after the same write, and rings the receiver's bell. Firmware then serves what it can. A post in the cycle in
which its sender's session ends is discarded (R89; `PannierRowsAct`). -/
def Obligations.SenderPosts : Prop :=
  ∀ t m (n : PnrCh) (len : BitVec 5) s, Awake t s → s.isSender m n = true → (atTime t s).sessionOver m = false → s.flag R.pnrStatus_FULL n = false →
    let l := if 8 ≤ len.toNat ∧ len.toNat ≤ 16 then len.toNat else s.get R.pnrCtrl_LEN n
    (∀ (i : Fin 16) v, ∃ p, exec (.pnrMsgWrite t m n i v) s = becomes t s p ∧ p.reg ⟨.pnrMsg, n, i⟩ = v) ∧
    (∃ p, exec (.pnrCtrlLenWrite t m n len) s = becomes t s p ∧ p.get R.pnrCtrl_LEN n = l) ∧
    (∃ p, exec (.pnrPost t m n len) s = becomes t s (serve p) ∧ p.flag R.pnrStatus_FULL n = true ∧
      p.get R.pnrStatus_PSEQ n = (s.get R.pnrStatus_PSEQ n + 1) % 256 ∧ p.get R.pnrEpoch_STAMP n = s.get R.pnrEpoch_EPOCH n ∧
      p.flag R.pnrStatus_WFULL n = false ∧ p.get R.pnrTake_LEN n = l ∧ (∀ i, p.reg ⟨.pnrMsg, n, i⟩ = s.reg ⟨.pnrMsg, n, i⟩) ∧
      bitOf (p.reg ⟨.pnrBell, s.get R.pnrBind_RECV n, 0⟩).toNat n = true)

/-- R79: while FULL is 1 a write of a word or a post has no effect but WFULL; a write of LEN is kept for the next post. -/
def Obligations.FullChannelHolds : Prop :=
  ∀ t m (n : PnrCh) (len : BitVec 5) s, Awake t s → s.isSender m n = true → (atTime t s).sessionOver m = false → s.flag R.pnrStatus_FULL n = true →
    (∀ (i : Fin 16) v, ∃ p, exec (.pnrMsgWrite t m n i v) s = becomes t s p ∧ p.flag R.pnrStatus_WFULL n = true ∧
      p.flag R.pnrStatus_FULL n = true ∧ ∀ r : RegId, r ≠ ⟨.pnrStatus, n, 0⟩ → p.reg r = s.reg r) ∧
    (∃ p, exec (.pnrPost t m n len) s = becomes t s (serve p) ∧ p.flag R.pnrStatus_WFULL n = true ∧
      p.flag R.pnrStatus_FULL n = true ∧ ∀ r : RegId, r ≠ ⟨.pnrStatus, n, 0⟩ → p.reg r = s.reg r) ∧
    (∃ p, exec (.pnrCtrlLenWrite t m n len) s = becomes t s p ∧ ∀ r : RegId, r ≠ ⟨.pnrCtrl, n, 0⟩ → p.reg r = s.reg r)

/-- R80: the receiver's read of `TAKE` returns the message's LEN, SEQ and STALE, clears FULL and rings the sender's take bell; while FULL is 0 it
returns 0 and does nothing else. What waits for the channel is posted then. -/
def Obligations.ReceiverTakes : Prop :=
  ∀ t m (n : PnrCh) s, Awake t s → s.isReceiver m n = true →
    (s.flag R.pnrStatus_FULL n = true → ∃ p w, exec (.pnrTake t m n) s = becomes t s (afterTake n p) ∧ .readData w ∈ p.out ∧
      fieldOf w 0 1 = 1 ∧ (fieldOf w 1 1 = 1 ↔ s.get R.pnrEpoch_STAMP n ≠ s.get R.pnrEpoch_EPOCH n) ∧ fieldOf w 8 5 = s.get R.pnrTake_LEN n ∧
      fieldOf w 16 8 = s.get R.pnrStatus_PSEQ n ∧ p.flag R.pnrStatus_FULL n = false ∧
      bitOf (p.reg ⟨.pnrBell, s.get R.pnrBind_SEND n, 0⟩).toNat (16 + n) = true) ∧
    (s.flag R.pnrStatus_FULL n = false → exec (.pnrTake t m n) s = becomes t s ((asked m t s).emit (.readData 0)))

/-- R84: a read of a free lock makes the reader its owner and returns 0; a read of an owned lock returns the owner's number and changes nothing;
for the fabric proxy, MEMBER holds the remote requester. -/
def Obligations.LockReadAcquires : Prop :=
  ∀ t m member (n : PnrCh) s, Awake t s →
    (s.get R.pnrLock_OWNER n = 0 → ∃ p, exec (.pnrLockRead t m member n) s = becomes t s p ∧ p.out = [.readData 0] ∧
      p.get R.pnrLock_OWNER n = m.num ∧ (m = .proxy → p.get R.pnrLock_MEMBER n = member.toNat) ∧
      ∀ r : RegId, r ≠ ⟨.pnrLock, n, 0⟩ → p.reg r = s.reg r) ∧
    (s.get R.pnrLock_OWNER n ≠ 0 → ∃ p w, exec (.pnrLockRead t m member n) s = becomes t s p ∧ p.out = [.readData w] ∧
      fieldOf w 0 3 = s.get R.pnrLock_OWNER n ∧ p.regs = s.regs)

/-- R85: only a write by the owner, of its own number, releases a lock. -/
def Obligations.LockWriteReleases : Prop :=
  ∀ t m (n : PnrCh) (owner : BitVec 3) s, Awake t s →
    ∃ p, exec (.pnrLockRelease t m n owner) s = becomes t s p ∧
      (s.get R.pnrLock_OWNER n = m.num ∧ owner.toNat = m.num → p.get R.pnrLock_OWNER n = 0) ∧
      (¬(s.get R.pnrLock_OWNER n = m.num ∧ owner.toNat = m.num) → p = written m t s)

/-- R383: the expected key restarts and arms the watchdog and counts NEXTKEY; a wrong key is counted and raised; another master's write does nothing;
before the first accepted kick the watchdog does not expire. -/
def Obligations.HeartbeatKicks : Prop :=
  State.reset.get R.rdgHbstat_NEXTKEY = 1 ∧
  (∀ t (key : Byte) s, Awake t s → s.flag R.rdgHbstat_EXPIRED = false → armedFor 54 0 s = false →
    (key.toNat = s.get R.rdgHbstat_NEXTKEY → ∃ p, exec (.heartbeatKick t .control key) s = becomes t s p ∧
      p.get R.rdgHbstat_NEXTKEY = (s.get R.rdgHbstat_NEXTKEY + 1) % 256 ∧ p.flag R.rdgHbstat_ARMED = true ∧ p.rdg.hbAt = p.now) ∧
    (key.toNat ≠ s.get R.rdgHbstat_NEXTKEY → ∃ p st, exec (.heartbeatKick t .control key) s = becomes t s (raise 53 0 none st false p) ∧
      p.get R.rdgHbstat_NEXTKEY = s.get R.rdgHbstat_NEXTKEY ∧ p.get R.rdgHbstat_BADKEYS = min 255 (s.get R.rdgHbstat_BADKEYS + 1) ∧ p.rdg = s.rdg)) ∧
  (∀ t m (key : Byte) s, Awake t s → m ≠ .control → exec (.heartbeatKick t m key) s = becomes t s (written m t s)) ∧
  (∀ t s, Awake t s → s.flag R.rdgHbstat_ARMED = false → exec (.heartbeatExpired t) s = becomes t s (atTime t s))

/-- R75, R377, R386, R388: the ridge's own registers and the table lock take no write of another master. -/
def Obligations.OnlyOwnersWrite : Prop :=
  ∀ t m s, Awake t s →
    (m ≠ .ridge → (∀ cause, exec (.safeEnter t m cause) s = becomes t s (written m t s)) ∧ exec (.safeRelease t m) s = becomes t s (written m t s) ∧
      exec (.safeResetreq t m) s = becomes t s (written m t s) ∧ (∀ v, exec (.rdgCauseClear t m v) s = becomes t s (written m t s)) ∧
      (∀ v, exec (.rdgGrantWrite t m v) s = becomes t s (written m t s)) ∧ ∀ h v, exec (.wdfaultClear t m h v) s = becomes t s (written m t s)) ∧
    (m ≠ .control → exec (.pnrBindlockSet t m) s = becomes t s (written m t s)) ∧
    (m ≠ .control → m ≠ .ridge → ∀ n v, exec (.pnrBindWrite t m n v) s = becomes t s (written m t s)) ∧
    ∀ owner v, m ≠ owner → exec (.pnrBellClear t m owner v) s = becomes t s (atTime t s) ∧ exec (.pnrBellenWrite t m owner v) s = becomes t s (atTime t s)

/-- R106, R107: while a block's write enable is 0 a host write has no effect; `GLB_HOSTVIOL` records its offset and the detector raises. -/
def Obligations.HostWriteNeedsEnable : Prop :=
  let seen (off : Nat) (s : State) : State :=
    let v := ((s.bump R.glbHostviol_COUNT).put R.glbHostviol_OFFSET (off / 2)).put R.glbHostviol_VALID 1
    raise 6 0 none (v.reg ⟨.glbHostviol, 0, 0⟩).toNat false v
  ∀ t s, Awake t s → let u := written .host t s
    (bitOf (s.get R.glbHostacc_WEN) 0 = false → ∀ v, exec (.claimWrite t .host false v) s = becomes t s (seen 0x40 u)) ∧
    (bitOf (s.get R.glbHostacc_WEN) 9 = false → exec (.diagRawWrite t .host) s = becomes t s (seen 0x240080 u)) ∧
    (bitOf (s.get R.glbHostacc_WEN) 11 = false → ∀ (k : CrcUnit) v, exec (.crcInit t .host k v) s = becomes t s (seen (0x260000 + 0x40 * k) u)) ∧
    (bitOf (s.get R.glbHostacc_WEN) 13 = false → exec (.senseCommit t .host) s = becomes t s (seen 0x280000 u)) ∧
    (bitOf (s.get R.glbHostacc_WEN) 15 = false → exec (.pmcSnap t .host) s = becomes t s (seen 0x2A0000 u)) ∧
    (bitOf (s.get R.glbHostacc_WEN) 16 = false → ∀ i : Fin 66, exec (.errCfgClr t .host i) s = becomes t s (seen (0x2B0100 + 8 * i) u)) ∧
    (bitOf (s.get R.glbHostacc_WEN) 17 = false → ∀ (l : Lane) v, exec (.lnsInj t .host l v) s = becomes t s (seen (0x2C0010 + 0x100 * l) u))

/-- R423, R425: an uncorrectable error of the host link is counted, saturating; it overwrites the last record and writes the first while the count is 0;
`ERR_CFG<i>.CLR` clears the count and both records. -/
def Obligations.RaiseCountsAndRecords : Prop :=
  (∀ t s, Awake t s → (atTime t s).hostLink = true → ∃ s' rec, exec (.pcieError t true) s = .next s' ∧
    s'.get R.errCount_COUNT 27 = min 0xFFFFFFFF (s.get R.errCount_COUNT 27 + 1) ∧ (mapGet ([], []) s'.ctxRec 27).2 = rec ∧
    (mapGet ([], []) s'.ctxRec 27).1 = (if s.get R.errCount_COUNT 27 = 0 then rec else (mapGet ([], []) s.ctxRec 27).1) ∧
    fieldAt rec 8 2 = 27 ∧ fieldAt rec 0x0C 4 = s'.get R.errCount_COUNT 27) ∧
  (∀ t s, Awake t s → ∃ s', exec (.errCfgClr t .control 27) s = .next s' ∧
    s'.get R.errCount_COUNT 27 = 0 ∧ mapGet ([], []) s'.ctxRec 27 = ([], []))

/-- Queries answer and change nothing else, whatever their status (R94, R101, R102, R223, R403): IDENTIFY, GET_STATE, IMG_INFO, MEM_MAP, CAD_STATUS,
MOT_STATUS, RDG_IDENTIFY and RDG_STATUS. No injection is armed for the SRAM that carries messages (R352), and no response that is to join posted
lines waits (R121). -/
def Obligations.QueriesKeepState : Prop :=
  ∀ i t c s s', i ∈ [Instr.identify t c, .getState t c, .imgInfo t c, .memMap t c, .cadStatus t c, .motStatus t c, .rdgIdentify t c, .rdgStatus t c] →
    NoneWaits s → armedFor 45 11 s = false → armedFor 46 11 s = false → exec i s = .next s' → Keeps answerKinds s s'

/-- Commands that set registers change, besides what an answer changes, only the registers named (R213, R214, R349, R424, R206): CAD_SPEED,
ERR_ROUTE and EVENT_MASK, whatever their status; ECC_ERASURE its erasure registers. -/
def Obligations.SettingsKeepOthers : Prop :=
  ∀ t c s s', NoneWaits s → armedFor 45 11 s = false → armedFor 46 11 s = false →
    (exec (.cadSpeed t c) s = .next s' → Keeps ([.cadWarncfg, .cadFirecfg] ++ answerKinds) s s') ∧
    (exec (.errRoute t c) s = .next s' → Keeps (.errCfg :: answerKinds) s s') ∧
    (exec (.eventMask t c) s = .next s' → Keeps answerKinds s s') ∧
    (exec (.eccErasure t c) s = .next s' → Keeps (.eccErase :: answerKinds) s s')

/-- Register rows change the register they name and no other, no byte of memory and no other unit (R6, R75, R78, R79, R84, R85, R88, R82, R257, R321,
R372, R383, R392, R414): each by a master that may write it. -/
def Obligations.RegisterRowsKeepOthers : Prop :=
  ∀ t m (n : PnrCh) s s', Awake t s →
    (∀ i v, s.isSender m n = true → s.flag R.pnrStatus_FULL n = false → exec (.pnrMsgWrite t m n i v) s = .next s' →
      Keeps [.pnrMsg] s s' ∧ ∀ r : RegId, r ≠ ⟨.pnrMsg, n, i⟩ → r.k ≠ .glbDevstate → s'.reg r = s.reg r) ∧
    (∀ len, s.isSender m n = true → exec (.pnrCtrlLenWrite t m n len) s = .next s' → Keeps [.pnrCtrl] s s') ∧
    (∀ e, s.isReceiver m n = true → exec (.pnrEpochWrite t m n e) s = .next s' → Keeps [.pnrEpoch] s s') ∧
    (∀ v, exec (.pnrBindWrite t m n v) s = .next s' → Keeps [.pnrBind] s s') ∧
    (exec (.pnrBindlockSet t m) s = .next s' → Keeps [.pnrBindlock] s s') ∧
    (∀ member, exec (.pnrLockRead t m member n) s = .next s' → Keeps [.pnrLock] s s') ∧
    (∀ owner, exec (.pnrLockRelease t m n owner) s = .next s' → Keeps [.pnrLock] s s') ∧
    (∀ o v, exec (.pnrBellClear t m o v) s = .next s' → Keeps [.pnrBell] s s') ∧
    (∀ h v, exec (.wdfaultClear t m h v) s = .next s' → Keeps [.hptWdfault] s s') ∧
    (∀ (u : CrcUnit) hi v, WritesCrc m u s → exec (.crcValWrite t m u hi v) s = .next s' → Keeps [.crcVallo, .crcValhi] s s') ∧
    (∀ l v, Writes 17 m s → exec (.lnsInj t m l v) s = .next s' → Keeps [.lnsInj, .lnsPrbserr] s s') ∧
    (Writes 13 m s → exec (.senseCommit t m) s = .next s' → Keeps [.snsCtrl] s s') ∧
    (exec (.cadPosloRead t m) s = .next s' → Keeps [] s s') ∧ (exec (.fabTimeloRead t m) s = .next s' → Keeps [] s s') ∧
    (∀ i, exec (.pmcCntloRead t m i) s = .next s' → Keeps [] s s') ∧
    (∀ d b, exec (.mr4Poll t d b) s = .next s' → Keeps [.dmcRefstat] s { s' with dram := s.dram }) ∧ (∀ a, exec (.standstillHold t a) s = .next s' → Keeps [.motAxStat] s s') ∧
    (∀ r, exec (.lanePllRelock t r) s = .next s' → Keeps [.lnsStat] s s')

/-- R11, R104, R198, R200: a definition changes its own channel or segment and no other, and no table: `CH_GEOMETRY` and `CH_SEGMENT`; `JET_STATUS`
the inactive copy of its channel's jet table. Whatever the status, no byte of memory changes. -/
def Obligations.TableCommandsKeepOthers : Prop :=
  ∀ t c s s', NoneWaits s → armedFor 45 11 s = false → armedFor 46 11 s = false →
    (exec (.chGeometry t c) s = .next s' → SameBytes s s' ∧ s'.segs = s.segs ∧ s'.job = s.job ∧ (∀ ch, ch ≠ cmdNat c 1 → s'.chan ch = s.chan ch) ∧
      ∀ ch, (s'.chan ch).active = (s.chan ch).active ∧ (s'.chan ch).inactive = (s.chan ch).inactive) ∧
    (exec (.chSegment t c) s = .next s' → SameBytes s s' ∧ s'.chans = s.chans ∧ s'.job = s.job ∧
      ∀ ch g, segKey ch g ≠ segKey (cmdNat c 1) (cmdNat c 2) → s'.seg ch g = s.seg ch g) ∧
    (exec (.jetStatus t c) s = .next s' → SameBytes s s' ∧ s'.segs = s.segs ∧ s'.job = s.job ∧ (∀ ch, ch ≠ cmdNat c 1 → s'.chan ch = s.chan ch) ∧
      ∀ ch, (s'.chan ch).active = (s.chan ch).active)

/-- R319, R320, R338: a write of a whole burst is what a read of its bytes then gives; every other byte of DRAM reads as before; the burst leaves the
poison table; the queues stay right. Queued data stands before the stored bytes. No read of the same requester waits: it would come first. -/
def Obligations.BurstWriteStores : Prop :=
  ∀ t (req : Fin 8) addr data s s', Awake t s → QueuesRight s → s.trained = true → addr % 64 = 0 → data.length = 64 →
    s.inDram addr 64 = true → s.reservedAddr addr = false → (∀ e ∈ s.dram.reads, e.1.req ≠ req) → exec (.dramWrite t req addr data) s = .next s' →
    (∀ i, i < 64 → s'.dramByte (addr + i) = data.getD i 0) ∧ (∀ a, a < addr ∨ addr + 64 ≤ a → s'.dramByte a = s.dramByte a) ∧
    s'.poisonOf addr = none ∧ QueuesRight s' ∧ s'.flash = s.flash ∧ s'.stage = s.stage

/-- R319, R320: while no read waits, draining a queue is not seen by reads: every byte of DRAM reads as before, and the DIMM channel's
queue is empty, unless a re-measurement holds the subchannel of one of its writes. -/
def Obligations.DrainIsInvisible : Prop :=
  ∀ t (d : Dimm) s s', Awake t s → QueuesRight s → s.trained = true → s.readWaits d = false → armedFor 45 12 s = false → armedFor 46 12 s = false →
    exec (.writeDrain t d) s = .next s' →
    ((∀ w ∈ s.wq d, (atTime t s).dqsHeld (s.loc w.addr) = false) → s'.wq d = []) ∧ (∀ a, s'.dramByte a = s.dramByte a) ∧ QueuesRight s' ∧ s'.flash = s.flash ∧ s'.stage = s.stage

/-- R318, R320, R335: the read that a DIMM channel chooses, if its burst has a queued write, returns the latest queued data and does not touch the DIMM,
poisoned or not; else a read of a burst in the poison table ends as a bus error without being decoded. -/
def Obligations.QueuedAndPoisonedReads : Prop :=
  ∀ t (d : Dimm) made c e s, Awake t s → s.trained = true → (∀ r ∈ made, s.inDram (burstOf r.addr) 64 = true) →
    (readsJoin made (atTime t s)).nextRead d = some (c, e) → s.reservedAddr (burstOf e.1.addr) = false →
    let u := readTaken d c e (readsJoin made (atTime t s))
    (∀ w, s.queued (burstOf e.1.addr) = some w →
      exec (.dramRead t d made) s = becomes t s (reads [13, 14] ((noteUse (burstOf e.1.addr) u).emit (.burst e.1.req (some (w.data.take 64)))))) ∧
    (s.queued (burstOf e.1.addr) = none → (s.poisonOf (burstOf e.1.addr)).isSome = true →
      exec (.dramRead t d made) s = becomes t s (reads [13, 14] (u.emit (.burst e.1.req none))))

/-- Commands that store bytes keep the memories in canonical form: bursts and drains, the host's window of DRAM, and the window of BAR0 with the
staging buffer (log entry 6). -/
def Obligations.StoringRowsKeepForm : Prop :=
  ∀ t s s', s.memWf → Awake t s → s.inject = none →
    (∀ (req : Fin 8) addr data, exec (.dramWrite t req addr data) s = .next s' → s'.memWf) ∧
    (∀ (req : Fin 8) addr data, exec (.narrowWrite t req addr data) s = .next s' → s'.memWf) ∧
    (∀ (d : Dimm), exec (.writeDrain t d) s = .next s' → s'.memWf) ∧
    (∀ addr bytes, exec (.bar2Write t addr bytes) s = .next s' → s'.memWf) ∧
    (∀ m off v, exec (.sramWindowWrite t m off v) s = .next s' → s'.memWf)

/-- R60, R66, R102: in HELD, `IMG_WRITE` changes flash only in its chunk and in the selector's sector, and no other memory; a write through the window
changes only its word of the staging buffer. -/
def Obligations.StagingAndFlashWrites : Prop :=
  (∀ t m off v s s', Awake t s → off % 4 = 0 → 0x300000 ≤ off → off < 0x310000 → usesBuffer s = true → m ≠ .proxy →
    exec (.sramWindowWrite t m off v) s = .next s' →
    Memory.readN 0 s'.stage (off - 0x300000) 4 = wordBytes v ∧ s'.mem = s.mem ∧ s'.flash = s.flash ∧
      ∀ a, a < off - 0x300000 ∨ off - 0x300000 + 4 ≤ a → Memory.read 0 s'.stage a = Memory.read 0 s.stage a) ∧
  (∀ t c s s', Taken { op := 0x0201, argw := 7, states := [.ready, .fault], held := true } t c s → imgWriteFail c (atTime t s) = none → s.dev = .held →
    armedFor 45 11 s = false → armedFor 46 11 s = false → exec (.imgWrite t c) s = .next s' →
    s'.mem = s.mem ∧ s'.stage = s.stage ∧
      ∀ a, (a < slotBase (cmdNat c 1) (cmdNat c 2) + cmdNat c 3 ∨ slotBase (cmdNat c 1) (cmdNat c 2) + cmdNat c 3 + cmdNat c 6 ≤ a) →
        (a < 0x280000 ∨ 0x282000 ≤ a) → Memory.read 0xFF s'.flash a = Memory.read 0xFF s.flash a)
end

