-- ==== Sys2Proof/Laws/Maps.lean ====
section
/-!
SUPPORT. Sparse maps and byte memories: a read after a write, and the canonical form that every memory operation keeps.
-/
namespace Sys2Proof.Machine

section Maps
variable {α β : Type} [DecidableEq α] [DecidableEq β]

omit [DecidableEq β] in
theorem mapGet_filter_same (d : β) (m : List (α × β)) (k : α) :
    mapGet d (m.filter fun e => decide (e.1 ≠ k)) k = d := by
  induction m with
  | nil => rfl
  | cons e m ih =>
    rw [List.filter_cons]
    by_cases h : e.1 = k
    · rw [if_neg (by simp [h])]; exact ih
    · rw [if_pos (by simp [h])]; simpa only [mapGet, if_neg h] using ih

omit [DecidableEq β] in
theorem mapGet_filter_ne (d : β) (m : List (α × β)) {k k' : α} (hk : k ≠ k') :
    mapGet d (m.filter fun e => decide (e.1 ≠ k)) k' = mapGet d m k' := by
  induction m with
  | nil => rfl
  | cons e m ih =>
    rw [List.filter_cons]
    by_cases h : e.1 = k
    · rw [if_neg (by simp [h]), ih]; simp [mapGet, h, hk]
    · rw [if_pos (by simp [h])]; simp only [mapGet, ih]

omit [DecidableEq β] in
theorem mapGet_insert_same (lt : α → α → Bool) (d : β) (k : α) (v : β) (m : List (α × β)) (hm : ∀ e ∈ m, e.1 ≠ k) :
    mapGet d (mapInsert lt k v m) k = v := by
  induction m with
  | nil => simp [mapInsert, mapGet]
  | cons e m ih =>
    have h1 : e.1 ≠ k := hm e (by simp)
    have ih := ih fun x hx => hm x (by simp [hx])
    by_cases h : lt k e.1 <;> simp [mapInsert, h, mapGet, h1, ih]

omit [DecidableEq β] in
theorem mapGet_insert_ne (lt : α → α → Bool) (d : β) {k k' : α} (v : β) (m : List (α × β)) (hk : k ≠ k') :
    mapGet d (mapInsert lt k v m) k' = mapGet d m k' := by
  induction m with
  | nil => simp [mapInsert, mapGet, hk]
  | cons e m ih =>
    by_cases h : lt k e.1 <;> simp [mapInsert, h, mapGet, hk, ih]

/-- A read of the key that was written. -/
@[simp] theorem mapGet_mapSet_same (lt : α → α → Bool) (d : β) (m : List (α × β)) (k : α) (v : β) :
    mapGet d (mapSet lt d m k v) k = v := by
  unfold mapSet
  split
  · next h => rw [mapGet_filter_same, h]
  · refine mapGet_insert_same lt d k v _ ?_
    intro e he
    simpa using (List.mem_filter.mp he).2

/-- A read of another key. -/
theorem mapGet_mapSet_ne (lt : α → α → Bool) (d : β) (m : List (α × β)) {k k' : α} (v : β) (hk : k ≠ k') :
    mapGet d (mapSet lt d m k v) k' = mapGet d m k' := by
  unfold mapSet
  split
  · exact mapGet_filter_ne d m hk
  · rw [mapGet_insert_ne lt d v _ hk, mapGet_filter_ne d m hk]

end Maps

/-! Byte memories. -/

@[simp] theorem read_write_same (d : Byte) (m : List Host.Cell) (a : Nat) (b : Byte) :
    Memory.read d (Memory.write d m a b) a = b := mapGet_mapSet_same natLt d m a b

theorem read_write_ne (d : Byte) (m : List Host.Cell) {a a' : Nat} (b : Byte) (h : a ≠ a') :
    Memory.read d (Memory.write d m a b) a' = Memory.read d m a' := mapGet_mapSet_ne natLt d m b h

/-- Bytes outside those written read as before. -/
theorem read_writeN_outside (d : Byte) (bs : List Byte) : ∀ (m : List Host.Cell) (a x : Nat), (x < a ∨ a + bs.length ≤ x) →
    Memory.read d (Memory.writeN d m a bs) x = Memory.read d m x := by
  induction bs with
  | nil => intro m a x _; rfl
  | cons b bs ih =>
    intro m a x hx
    simp only [List.length_cons] at hx
    rw [Memory.writeN, ih _ _ _ (by omega), read_write_ne d m b (by omega)]

/-- A byte inside those written reads as it was given. -/
theorem read_writeN_inside (d : Byte) (bs : List Byte) : ∀ (m : List Host.Cell) (a i : Nat) (h : i < bs.length),
    Memory.read d (Memory.writeN d m a bs) (a + i) = bs[i] := by
  induction bs with
  | nil => intro m a i h; simp at h
  | cons b bs ih =>
    intro m a i h
    cases i with
    | zero => rw [Memory.writeN, read_writeN_outside d bs _ _ _ (by omega)]; simp
    | succ i =>
      simp only [List.length_cons] at h
      have := ih (Memory.write d m a b) (a + 1) i (by omega)
      rw [Memory.writeN, show a + (i + 1) = a + 1 + i by omega, this]
      simp

theorem mem_insert_keys (k : Nat) (v : Byte) (m : List Host.Cell) (e : Host.Cell) (he : e ∈ mapInsert natLt k v m) :
    e = (k, v) ∨ e ∈ m := by
  induction m with
  | nil => simpa [mapInsert] using he
  | cons x m ih =>
    by_cases h : natLt k x.1
    · simp [mapInsert, h] at he; simpa using he
    · simp [mapInsert, h] at he
      rcases he with he | he
      · exact .inr (by simp [he])
      · rcases ih he with h' | h'
        · exact .inl h'
        · exact .inr (by simp [h'])

/-- A write keeps the canonical form. -/
theorem write_wf (d : Byte) (m : List Host.Cell) (a : Nat) (b : Byte) (h : Memory.wf d m) : Memory.wf d (Memory.write d m a b) := by
  have hf : Memory.wf d (m.filter fun e => decide (e.1 ≠ a)) :=
    ⟨h.1.sublist List.filter_sublist, fun c hc => h.2 c (List.mem_filter.mp hc).1⟩
  have hne : ∀ e ∈ m.filter (fun e => decide (e.1 ≠ a)), e.1 ≠ a := fun e he => by simpa using (List.mem_filter.mp he).2
  unfold Memory.write mapSet
  split
  · exact hf
  · next hb =>
    generalize m.filter (fun e => decide (e.1 ≠ a)) = l at hf hne
    clear h m
    refine ⟨?_, fun c hc => ?_⟩
    · induction l with
      | nil => simp [mapInsert]
      | cons x l ih =>
        have hl : Memory.wf d l := ⟨(List.pairwise_cons.mp hf.1).2, fun c hc => hf.2 c (by simp [hc])⟩
        by_cases hlt : natLt a x.1
        · simp only [mapInsert, hlt, if_true]
          refine List.pairwise_cons.mpr ⟨fun e he => ?_, hf.1⟩
          have hax : a < x.1 := by simpa [natLt] using hlt
          rcases List.mem_cons.mp he with he | he
          · subst he; exact hax
          · exact Nat.lt_trans hax ((List.pairwise_cons.mp hf.1).1 e he)
        · have hxa : x.1 < a := by
            have := hne x (by simp)
            simp [natLt] at hlt; omega
          simp only [mapInsert, hlt]
          refine List.pairwise_cons.mpr ⟨fun e he => ?_, ih hl (fun e he => hne e (by simp [he]))⟩
          rcases mem_insert_keys a b l e he with h' | h'
          · rw [h']; exact hxa
          · exact (List.pairwise_cons.mp hf.1).1 e h'
    · rcases mem_insert_keys a b l c hc with h' | h'
      · rw [h']; exact hb
      · exact hf.2 c h'

/-- Writes of several bytes keep the canonical form. -/
theorem writeN_wf (d : Byte) (bs : List Byte) : ∀ (m : List Host.Cell) (a : Nat), Memory.wf d m → Memory.wf d (Memory.writeN d m a bs) := by
  induction bs with
  | nil => intro m a h; exact h
  | cons b bs ih => intro m a h; exact ih _ _ (write_wf d m a b h)

/-- The memories of the reset state are in canonical form. -/
theorem reset_memories_wf : Memory.wf 0 State.reset.mem ∧ Memory.wf 0 State.reset.chk ∧ Memory.wf 0xFF State.reset.flash
    ∧ Memory.wf 0 State.reset.stage := by decide

end Sys2Proof.Machine
end

