-- ==== Sys2Proof/Laws/State.lean ====
section
/-!
SUPPORT. One lemma for each field under each update of the state: the field the update names takes the value, every other stays.
No proof need unfold a record update.
-/
namespace Sys2Proof.Machine

variable (s : State)

/-! setReg -/

@[simp] theorem setReg_pending (r : RegId) (v : Word) : (s.setReg r v).pending = s.pending := rfl
@[simp] theorem setReg_now (r : RegId) (v : Word) : (s.setReg r v).now = s.now := rfl
@[simp] theorem setReg_chain (r : RegId) (v : Word) : (s.setReg r v).chain = s.chain := rfl
@[simp] theorem setReg_out (r : RegId) (v : Word) : (s.setReg r v).out = s.out := rfl
@[simp] theorem setReg_freeCount (r : RegId) (v : Word) : (s.setReg r v).freeCount = s.freeCount := rfl
@[simp] theorem setReg_dev (r : RegId) (v : Word) : (s.setReg r v).dev = s.dev := rfl
@[simp] theorem setReg_job (r : RegId) (v : Word) : (s.setReg r v).job = s.job := rfl
@[simp] theorem setReg_fw (r : RegId) (v : Word) : (s.setReg r v).fw = s.fw := rfl
@[simp] theorem setReg_boot (r : RegId) (v : Word) : (s.setReg r v).boot = s.boot := rfl
@[simp] theorem setReg_otp (r : RegId) (v : Word) : (s.setReg r v).otp = s.otp := rfl
@[simp] theorem setReg_straps (r : RegId) (v : Word) : (s.setReg r v).straps = s.straps := rfl
@[simp] theorem setReg_programs (r : RegId) (v : Word) : (s.setReg r v).programs = s.programs := rfl
@[simp] theorem setReg_mfpIn (r : RegId) (v : Word) : (s.setReg r v).mfpIn = s.mfpIn := rfl
@[simp] theorem setReg_tracerUntil (r : RegId) (v : Word) : (s.setReg r v).tracerUntil = s.tracerUntil := rfl
@[simp] theorem setReg_estopUntil (r : RegId) (v : Word) : (s.setReg r v).estopUntil = s.estopUntil := rfl
@[simp] theorem setReg_msixOn (r : RegId) (v : Word) : (s.setReg r v).msixOn = s.msixOn := rfl
@[simp] theorem setReg_ended (r : RegId) (v : Word) : (s.setReg r v).ended = s.ended := rfl
@[simp] theorem setReg_pcie (r : RegId) (v : Word) : (s.setReg r v).pcie = s.pcie := rfl
@[simp] theorem setReg_mem (r : RegId) (v : Word) : (s.setReg r v).mem = s.mem := rfl
@[simp] theorem setReg_chk (r : RegId) (v : Word) : (s.setReg r v).chk = s.chk := rfl
@[simp] theorem setReg_flash (r : RegId) (v : Word) : (s.setReg r v).flash = s.flash := rfl
@[simp] theorem setReg_stage (r : RegId) (v : Word) : (s.setReg r v).stage = s.stage := rfl
@[simp] theorem setReg_hostMem (r : RegId) (v : Word) : (s.setReg r v).hostMem = s.hostMem := rfl
@[simp] theorem setReg_capacity (r : RegId) (v : Word) : (s.setReg r v).capacity = s.capacity := rfl
@[simp] theorem setReg_lanePll (r : RegId) (v : Word) : (s.setReg r v).lanePll = s.lanePll := rfl
@[simp] theorem setReg_tx (r : RegId) (v : Word) : (s.setReg r v).tx = s.tx := rfl
@[simp] theorem setReg_laneEq (r : RegId) (v : Word) : (s.setReg r v).laneEq = s.laneEq := rfl
@[simp] theorem setReg_laneChk (r : RegId) (v : Word) : (s.setReg r v).laneChk = s.laneChk := rfl
@[simp] theorem setReg_cad (r : RegId) (v : Word) : (s.setReg r v).cad = s.cad := rfl
@[simp] theorem setReg_ports (r : RegId) (v : Word) : (s.setReg r v).ports = s.ports := rfl
@[simp] theorem setReg_ledger (r : RegId) (v : Word) : (s.setReg r v).ledger = s.ledger := rfl
@[simp] theorem setReg_chans (r : RegId) (v : Word) : (s.setReg r v).chans = s.chans := rfl
@[simp] theorem setReg_segs (r : RegId) (v : Word) : (s.setReg r v).segs = s.segs := rfl
@[simp] theorem setReg_stagger (r : RegId) (v : Word) : (s.setReg r v).stagger = s.stagger := rfl
@[simp] theorem setReg_faults (r : RegId) (v : Word) : (s.setReg r v).faults = s.faults := rfl
@[simp] theorem setReg_redec (r : RegId) (v : Word) : (s.setReg r v).redec = s.redec := rfl
@[simp] theorem setReg_scans (r : RegId) (v : Word) : (s.setReg r v).scans = s.scans := rfl
@[simp] theorem setReg_raws (r : RegId) (v : Word) : (s.setReg r v).raws = s.raws := rfl
@[simp] theorem setReg_lib (r : RegId) (v : Word) : (s.setReg r v).lib = s.lib := rfl
@[simp] theorem setReg_kept (r : RegId) (v : Word) : (s.setReg r v).kept = s.kept := rfl
@[simp] theorem setReg_dram (r : RegId) (v : Word) : (s.setReg r v).dram = s.dram := rfl
@[simp] theorem setReg_dma (r : RegId) (v : Word) : (s.setReg r v).dma = s.dma := rfl
@[simp] theorem setReg_crcPoly (r : RegId) (v : Word) : (s.setReg r v).crcPoly = s.crcPoly := rfl
@[simp] theorem setReg_rdg (r : RegId) (v : Word) : (s.setReg r v).rdg = s.rdg := rfl
@[simp] theorem setReg_axes (r : RegId) (v : Word) : (s.setReg r v).axes = s.axes := rfl
@[simp] theorem setReg_conv (r : RegId) (v : Word) : (s.setReg r v).conv = s.conv := rfl
@[simp] theorem setReg_refConv (r : RegId) (v : Word) : (s.setReg r v).refConv = s.refConv := rfl
@[simp] theorem setReg_convSlot (r : RegId) (v : Word) : (s.setReg r v).convSlot = s.convSlot := rfl
@[simp] theorem setReg_dlyMeas (r : RegId) (v : Word) : (s.setReg r v).dlyMeas = s.dlyMeas := rfl
@[simp] theorem setReg_snsFlags (r : RegId) (v : Word) : (s.setReg r v).snsFlags = s.snsFlags := rfl
@[simp] theorem setReg_snsCfg (r : RegId) (v : Word) : (s.setReg r v).snsCfg = s.snsCfg := rfl
@[simp] theorem setReg_sensePend (r : RegId) (v : Word) : (s.setReg r v).sensePend = s.sensePend := rfl
@[simp] theorem setReg_commitAt (r : RegId) (v : Word) : (s.setReg r v).commitAt = s.commitAt := rfl
@[simp] theorem setReg_slices (r : RegId) (v : Word) : (s.setReg r v).slices = s.slices := rfl
@[simp] theorem setReg_spareUsed (r : RegId) (v : Word) : (s.setReg r v).spareUsed = s.spareUsed := rfl
@[simp] theorem setReg_bistPlan (r : RegId) (v : Word) : (s.setReg r v).bistPlan = s.bistPlan := rfl
@[simp] theorem setReg_bistResult (r : RegId) (v : Word) : (s.setReg r v).bistResult = s.bistResult := rfl
@[simp] theorem setReg_bistDone (r : RegId) (v : Word) : (s.setReg r v).bistDone = s.bistDone := rfl
@[simp] theorem setReg_bistAt (r : RegId) (v : Word) : (s.setReg r v).bistAt = s.bistAt := rfl
@[simp] theorem setReg_ctxRec (r : RegId) (v : Word) : (s.setReg r v).ctxRec = s.ctxRec := rfl
@[simp] theorem setReg_errEvent (r : RegId) (v : Word) : (s.setReg r v).errEvent = s.errEvent := rfl
@[simp] theorem setReg_inject (r : RegId) (v : Word) : (s.setReg r v).inject = s.inject := rfl
@[simp] theorem setReg_counters (r : RegId) (v : Word) : (s.setReg r v).counters = s.counters := rfl
@[simp] theorem setReg_pmcCaps (r : RegId) (v : Word) : (s.setReg r v).pmcCaps = s.pmcCaps := rfl
@[simp] theorem setReg_lfsr (r : RegId) (v : Word) : (s.setReg r v).lfsr = s.lfsr := rfl
@[simp] theorem setReg_traceK (r : RegId) (v : Word) : (s.setReg r v).traceK = s.traceK := rfl
@[simp] theorem setReg_traces (r : RegId) (v : Word) : (s.setReg r v).traces = s.traces := rfl
@[simp] theorem setReg_winsel (r : RegId) (v : Word) : (s.setReg r v).winsel = s.winsel := rfl
@[simp] theorem setReg_fab (r : RegId) (v : Word) : (s.setReg r v).fab = s.fab := rfl

/-! put -/

@[simp] theorem put_pending (f : Fld) (v i j : Nat) : (s.put f v i j).pending = s.pending := rfl
@[simp] theorem put_now (f : Fld) (v i j : Nat) : (s.put f v i j).now = s.now := rfl
@[simp] theorem put_chain (f : Fld) (v i j : Nat) : (s.put f v i j).chain = s.chain := rfl
@[simp] theorem put_out (f : Fld) (v i j : Nat) : (s.put f v i j).out = s.out := rfl
@[simp] theorem put_freeCount (f : Fld) (v i j : Nat) : (s.put f v i j).freeCount = s.freeCount := rfl
@[simp] theorem put_dev (f : Fld) (v i j : Nat) : (s.put f v i j).dev = s.dev := rfl
@[simp] theorem put_job (f : Fld) (v i j : Nat) : (s.put f v i j).job = s.job := rfl
@[simp] theorem put_fw (f : Fld) (v i j : Nat) : (s.put f v i j).fw = s.fw := rfl
@[simp] theorem put_boot (f : Fld) (v i j : Nat) : (s.put f v i j).boot = s.boot := rfl
@[simp] theorem put_otp (f : Fld) (v i j : Nat) : (s.put f v i j).otp = s.otp := rfl
@[simp] theorem put_straps (f : Fld) (v i j : Nat) : (s.put f v i j).straps = s.straps := rfl
@[simp] theorem put_programs (f : Fld) (v i j : Nat) : (s.put f v i j).programs = s.programs := rfl
@[simp] theorem put_mfpIn (f : Fld) (v i j : Nat) : (s.put f v i j).mfpIn = s.mfpIn := rfl
@[simp] theorem put_tracerUntil (f : Fld) (v i j : Nat) : (s.put f v i j).tracerUntil = s.tracerUntil := rfl
@[simp] theorem put_estopUntil (f : Fld) (v i j : Nat) : (s.put f v i j).estopUntil = s.estopUntil := rfl
@[simp] theorem put_msixOn (f : Fld) (v i j : Nat) : (s.put f v i j).msixOn = s.msixOn := rfl
@[simp] theorem put_ended (f : Fld) (v i j : Nat) : (s.put f v i j).ended = s.ended := rfl
@[simp] theorem put_pcie (f : Fld) (v i j : Nat) : (s.put f v i j).pcie = s.pcie := rfl
@[simp] theorem put_mem (f : Fld) (v i j : Nat) : (s.put f v i j).mem = s.mem := rfl
@[simp] theorem put_chk (f : Fld) (v i j : Nat) : (s.put f v i j).chk = s.chk := rfl
@[simp] theorem put_flash (f : Fld) (v i j : Nat) : (s.put f v i j).flash = s.flash := rfl
@[simp] theorem put_stage (f : Fld) (v i j : Nat) : (s.put f v i j).stage = s.stage := rfl
@[simp] theorem put_hostMem (f : Fld) (v i j : Nat) : (s.put f v i j).hostMem = s.hostMem := rfl
@[simp] theorem put_capacity (f : Fld) (v i j : Nat) : (s.put f v i j).capacity = s.capacity := rfl
@[simp] theorem put_lanePll (f : Fld) (v i j : Nat) : (s.put f v i j).lanePll = s.lanePll := rfl
@[simp] theorem put_tx (f : Fld) (v i j : Nat) : (s.put f v i j).tx = s.tx := rfl
@[simp] theorem put_laneEq (f : Fld) (v i j : Nat) : (s.put f v i j).laneEq = s.laneEq := rfl
@[simp] theorem put_laneChk (f : Fld) (v i j : Nat) : (s.put f v i j).laneChk = s.laneChk := rfl
@[simp] theorem put_cad (f : Fld) (v i j : Nat) : (s.put f v i j).cad = s.cad := rfl
@[simp] theorem put_ports (f : Fld) (v i j : Nat) : (s.put f v i j).ports = s.ports := rfl
@[simp] theorem put_ledger (f : Fld) (v i j : Nat) : (s.put f v i j).ledger = s.ledger := rfl
@[simp] theorem put_chans (f : Fld) (v i j : Nat) : (s.put f v i j).chans = s.chans := rfl
@[simp] theorem put_segs (f : Fld) (v i j : Nat) : (s.put f v i j).segs = s.segs := rfl
@[simp] theorem put_stagger (f : Fld) (v i j : Nat) : (s.put f v i j).stagger = s.stagger := rfl
@[simp] theorem put_faults (f : Fld) (v i j : Nat) : (s.put f v i j).faults = s.faults := rfl
@[simp] theorem put_redec (f : Fld) (v i j : Nat) : (s.put f v i j).redec = s.redec := rfl
@[simp] theorem put_scans (f : Fld) (v i j : Nat) : (s.put f v i j).scans = s.scans := rfl
@[simp] theorem put_raws (f : Fld) (v i j : Nat) : (s.put f v i j).raws = s.raws := rfl
@[simp] theorem put_lib (f : Fld) (v i j : Nat) : (s.put f v i j).lib = s.lib := rfl
@[simp] theorem put_kept (f : Fld) (v i j : Nat) : (s.put f v i j).kept = s.kept := rfl
@[simp] theorem put_dram (f : Fld) (v i j : Nat) : (s.put f v i j).dram = s.dram := rfl
@[simp] theorem put_dma (f : Fld) (v i j : Nat) : (s.put f v i j).dma = s.dma := rfl
@[simp] theorem put_crcPoly (f : Fld) (v i j : Nat) : (s.put f v i j).crcPoly = s.crcPoly := rfl
@[simp] theorem put_rdg (f : Fld) (v i j : Nat) : (s.put f v i j).rdg = s.rdg := rfl
@[simp] theorem put_axes (f : Fld) (v i j : Nat) : (s.put f v i j).axes = s.axes := rfl
@[simp] theorem put_conv (f : Fld) (v i j : Nat) : (s.put f v i j).conv = s.conv := rfl
@[simp] theorem put_refConv (f : Fld) (v i j : Nat) : (s.put f v i j).refConv = s.refConv := rfl
@[simp] theorem put_convSlot (f : Fld) (v i j : Nat) : (s.put f v i j).convSlot = s.convSlot := rfl
@[simp] theorem put_dlyMeas (f : Fld) (v i j : Nat) : (s.put f v i j).dlyMeas = s.dlyMeas := rfl
@[simp] theorem put_snsFlags (f : Fld) (v i j : Nat) : (s.put f v i j).snsFlags = s.snsFlags := rfl
@[simp] theorem put_snsCfg (f : Fld) (v i j : Nat) : (s.put f v i j).snsCfg = s.snsCfg := rfl
@[simp] theorem put_sensePend (f : Fld) (v i j : Nat) : (s.put f v i j).sensePend = s.sensePend := rfl
@[simp] theorem put_commitAt (f : Fld) (v i j : Nat) : (s.put f v i j).commitAt = s.commitAt := rfl
@[simp] theorem put_slices (f : Fld) (v i j : Nat) : (s.put f v i j).slices = s.slices := rfl
@[simp] theorem put_spareUsed (f : Fld) (v i j : Nat) : (s.put f v i j).spareUsed = s.spareUsed := rfl
@[simp] theorem put_bistPlan (f : Fld) (v i j : Nat) : (s.put f v i j).bistPlan = s.bistPlan := rfl
@[simp] theorem put_bistResult (f : Fld) (v i j : Nat) : (s.put f v i j).bistResult = s.bistResult := rfl
@[simp] theorem put_bistDone (f : Fld) (v i j : Nat) : (s.put f v i j).bistDone = s.bistDone := rfl
@[simp] theorem put_bistAt (f : Fld) (v i j : Nat) : (s.put f v i j).bistAt = s.bistAt := rfl
@[simp] theorem put_ctxRec (f : Fld) (v i j : Nat) : (s.put f v i j).ctxRec = s.ctxRec := rfl
@[simp] theorem put_errEvent (f : Fld) (v i j : Nat) : (s.put f v i j).errEvent = s.errEvent := rfl
@[simp] theorem put_inject (f : Fld) (v i j : Nat) : (s.put f v i j).inject = s.inject := rfl
@[simp] theorem put_counters (f : Fld) (v i j : Nat) : (s.put f v i j).counters = s.counters := rfl
@[simp] theorem put_pmcCaps (f : Fld) (v i j : Nat) : (s.put f v i j).pmcCaps = s.pmcCaps := rfl
@[simp] theorem put_lfsr (f : Fld) (v i j : Nat) : (s.put f v i j).lfsr = s.lfsr := rfl
@[simp] theorem put_traceK (f : Fld) (v i j : Nat) : (s.put f v i j).traceK = s.traceK := rfl
@[simp] theorem put_traces (f : Fld) (v i j : Nat) : (s.put f v i j).traces = s.traces := rfl
@[simp] theorem put_winsel (f : Fld) (v i j : Nat) : (s.put f v i j).winsel = s.winsel := rfl
@[simp] theorem put_fab (f : Fld) (v i j : Nat) : (s.put f v i j).fab = s.fab := rfl

/-! bump -/

@[simp] theorem bump_pending (f : Fld) (i j n : Nat) : (s.bump f i j n).pending = s.pending := rfl
@[simp] theorem bump_now (f : Fld) (i j n : Nat) : (s.bump f i j n).now = s.now := rfl
@[simp] theorem bump_chain (f : Fld) (i j n : Nat) : (s.bump f i j n).chain = s.chain := rfl
@[simp] theorem bump_out (f : Fld) (i j n : Nat) : (s.bump f i j n).out = s.out := rfl
@[simp] theorem bump_freeCount (f : Fld) (i j n : Nat) : (s.bump f i j n).freeCount = s.freeCount := rfl
@[simp] theorem bump_dev (f : Fld) (i j n : Nat) : (s.bump f i j n).dev = s.dev := rfl
@[simp] theorem bump_job (f : Fld) (i j n : Nat) : (s.bump f i j n).job = s.job := rfl
@[simp] theorem bump_fw (f : Fld) (i j n : Nat) : (s.bump f i j n).fw = s.fw := rfl
@[simp] theorem bump_boot (f : Fld) (i j n : Nat) : (s.bump f i j n).boot = s.boot := rfl
@[simp] theorem bump_otp (f : Fld) (i j n : Nat) : (s.bump f i j n).otp = s.otp := rfl
@[simp] theorem bump_straps (f : Fld) (i j n : Nat) : (s.bump f i j n).straps = s.straps := rfl
@[simp] theorem bump_programs (f : Fld) (i j n : Nat) : (s.bump f i j n).programs = s.programs := rfl
@[simp] theorem bump_mfpIn (f : Fld) (i j n : Nat) : (s.bump f i j n).mfpIn = s.mfpIn := rfl
@[simp] theorem bump_tracerUntil (f : Fld) (i j n : Nat) : (s.bump f i j n).tracerUntil = s.tracerUntil := rfl
@[simp] theorem bump_estopUntil (f : Fld) (i j n : Nat) : (s.bump f i j n).estopUntil = s.estopUntil := rfl
@[simp] theorem bump_msixOn (f : Fld) (i j n : Nat) : (s.bump f i j n).msixOn = s.msixOn := rfl
@[simp] theorem bump_ended (f : Fld) (i j n : Nat) : (s.bump f i j n).ended = s.ended := rfl
@[simp] theorem bump_pcie (f : Fld) (i j n : Nat) : (s.bump f i j n).pcie = s.pcie := rfl
@[simp] theorem bump_mem (f : Fld) (i j n : Nat) : (s.bump f i j n).mem = s.mem := rfl
@[simp] theorem bump_chk (f : Fld) (i j n : Nat) : (s.bump f i j n).chk = s.chk := rfl
@[simp] theorem bump_flash (f : Fld) (i j n : Nat) : (s.bump f i j n).flash = s.flash := rfl
@[simp] theorem bump_stage (f : Fld) (i j n : Nat) : (s.bump f i j n).stage = s.stage := rfl
@[simp] theorem bump_hostMem (f : Fld) (i j n : Nat) : (s.bump f i j n).hostMem = s.hostMem := rfl
@[simp] theorem bump_capacity (f : Fld) (i j n : Nat) : (s.bump f i j n).capacity = s.capacity := rfl
@[simp] theorem bump_lanePll (f : Fld) (i j n : Nat) : (s.bump f i j n).lanePll = s.lanePll := rfl
@[simp] theorem bump_tx (f : Fld) (i j n : Nat) : (s.bump f i j n).tx = s.tx := rfl
@[simp] theorem bump_laneEq (f : Fld) (i j n : Nat) : (s.bump f i j n).laneEq = s.laneEq := rfl
@[simp] theorem bump_laneChk (f : Fld) (i j n : Nat) : (s.bump f i j n).laneChk = s.laneChk := rfl
@[simp] theorem bump_cad (f : Fld) (i j n : Nat) : (s.bump f i j n).cad = s.cad := rfl
@[simp] theorem bump_ports (f : Fld) (i j n : Nat) : (s.bump f i j n).ports = s.ports := rfl
@[simp] theorem bump_ledger (f : Fld) (i j n : Nat) : (s.bump f i j n).ledger = s.ledger := rfl
@[simp] theorem bump_chans (f : Fld) (i j n : Nat) : (s.bump f i j n).chans = s.chans := rfl
@[simp] theorem bump_segs (f : Fld) (i j n : Nat) : (s.bump f i j n).segs = s.segs := rfl
@[simp] theorem bump_stagger (f : Fld) (i j n : Nat) : (s.bump f i j n).stagger = s.stagger := rfl
@[simp] theorem bump_faults (f : Fld) (i j n : Nat) : (s.bump f i j n).faults = s.faults := rfl
@[simp] theorem bump_redec (f : Fld) (i j n : Nat) : (s.bump f i j n).redec = s.redec := rfl
@[simp] theorem bump_scans (f : Fld) (i j n : Nat) : (s.bump f i j n).scans = s.scans := rfl
@[simp] theorem bump_raws (f : Fld) (i j n : Nat) : (s.bump f i j n).raws = s.raws := rfl
@[simp] theorem bump_lib (f : Fld) (i j n : Nat) : (s.bump f i j n).lib = s.lib := rfl
@[simp] theorem bump_kept (f : Fld) (i j n : Nat) : (s.bump f i j n).kept = s.kept := rfl
@[simp] theorem bump_dram (f : Fld) (i j n : Nat) : (s.bump f i j n).dram = s.dram := rfl
@[simp] theorem bump_dma (f : Fld) (i j n : Nat) : (s.bump f i j n).dma = s.dma := rfl
@[simp] theorem bump_crcPoly (f : Fld) (i j n : Nat) : (s.bump f i j n).crcPoly = s.crcPoly := rfl
@[simp] theorem bump_rdg (f : Fld) (i j n : Nat) : (s.bump f i j n).rdg = s.rdg := rfl
@[simp] theorem bump_axes (f : Fld) (i j n : Nat) : (s.bump f i j n).axes = s.axes := rfl
@[simp] theorem bump_conv (f : Fld) (i j n : Nat) : (s.bump f i j n).conv = s.conv := rfl
@[simp] theorem bump_refConv (f : Fld) (i j n : Nat) : (s.bump f i j n).refConv = s.refConv := rfl
@[simp] theorem bump_convSlot (f : Fld) (i j n : Nat) : (s.bump f i j n).convSlot = s.convSlot := rfl
@[simp] theorem bump_dlyMeas (f : Fld) (i j n : Nat) : (s.bump f i j n).dlyMeas = s.dlyMeas := rfl
@[simp] theorem bump_snsFlags (f : Fld) (i j n : Nat) : (s.bump f i j n).snsFlags = s.snsFlags := rfl
@[simp] theorem bump_snsCfg (f : Fld) (i j n : Nat) : (s.bump f i j n).snsCfg = s.snsCfg := rfl
@[simp] theorem bump_sensePend (f : Fld) (i j n : Nat) : (s.bump f i j n).sensePend = s.sensePend := rfl
@[simp] theorem bump_commitAt (f : Fld) (i j n : Nat) : (s.bump f i j n).commitAt = s.commitAt := rfl
@[simp] theorem bump_slices (f : Fld) (i j n : Nat) : (s.bump f i j n).slices = s.slices := rfl
@[simp] theorem bump_spareUsed (f : Fld) (i j n : Nat) : (s.bump f i j n).spareUsed = s.spareUsed := rfl
@[simp] theorem bump_bistPlan (f : Fld) (i j n : Nat) : (s.bump f i j n).bistPlan = s.bistPlan := rfl
@[simp] theorem bump_bistResult (f : Fld) (i j n : Nat) : (s.bump f i j n).bistResult = s.bistResult := rfl
@[simp] theorem bump_bistDone (f : Fld) (i j n : Nat) : (s.bump f i j n).bistDone = s.bistDone := rfl
@[simp] theorem bump_bistAt (f : Fld) (i j n : Nat) : (s.bump f i j n).bistAt = s.bistAt := rfl
@[simp] theorem bump_ctxRec (f : Fld) (i j n : Nat) : (s.bump f i j n).ctxRec = s.ctxRec := rfl
@[simp] theorem bump_errEvent (f : Fld) (i j n : Nat) : (s.bump f i j n).errEvent = s.errEvent := rfl
@[simp] theorem bump_inject (f : Fld) (i j n : Nat) : (s.bump f i j n).inject = s.inject := rfl
@[simp] theorem bump_counters (f : Fld) (i j n : Nat) : (s.bump f i j n).counters = s.counters := rfl
@[simp] theorem bump_pmcCaps (f : Fld) (i j n : Nat) : (s.bump f i j n).pmcCaps = s.pmcCaps := rfl
@[simp] theorem bump_lfsr (f : Fld) (i j n : Nat) : (s.bump f i j n).lfsr = s.lfsr := rfl
@[simp] theorem bump_traceK (f : Fld) (i j n : Nat) : (s.bump f i j n).traceK = s.traceK := rfl
@[simp] theorem bump_traces (f : Fld) (i j n : Nat) : (s.bump f i j n).traces = s.traces := rfl
@[simp] theorem bump_winsel (f : Fld) (i j n : Nat) : (s.bump f i j n).winsel = s.winsel := rfl
@[simp] theorem bump_fab (f : Fld) (i j n : Nat) : (s.bump f i j n).fab = s.fab := rfl

/-! bumpWrap -/

@[simp] theorem bumpWrap_pending (f : Fld) (i j n : Nat) : (s.bumpWrap f i j n).pending = s.pending := rfl
@[simp] theorem bumpWrap_now (f : Fld) (i j n : Nat) : (s.bumpWrap f i j n).now = s.now := rfl
@[simp] theorem bumpWrap_chain (f : Fld) (i j n : Nat) : (s.bumpWrap f i j n).chain = s.chain := rfl
@[simp] theorem bumpWrap_out (f : Fld) (i j n : Nat) : (s.bumpWrap f i j n).out = s.out := rfl
@[simp] theorem bumpWrap_freeCount (f : Fld) (i j n : Nat) : (s.bumpWrap f i j n).freeCount = s.freeCount := rfl
@[simp] theorem bumpWrap_dev (f : Fld) (i j n : Nat) : (s.bumpWrap f i j n).dev = s.dev := rfl
@[simp] theorem bumpWrap_job (f : Fld) (i j n : Nat) : (s.bumpWrap f i j n).job = s.job := rfl
@[simp] theorem bumpWrap_fw (f : Fld) (i j n : Nat) : (s.bumpWrap f i j n).fw = s.fw := rfl
@[simp] theorem bumpWrap_boot (f : Fld) (i j n : Nat) : (s.bumpWrap f i j n).boot = s.boot := rfl
@[simp] theorem bumpWrap_otp (f : Fld) (i j n : Nat) : (s.bumpWrap f i j n).otp = s.otp := rfl
@[simp] theorem bumpWrap_straps (f : Fld) (i j n : Nat) : (s.bumpWrap f i j n).straps = s.straps := rfl
@[simp] theorem bumpWrap_programs (f : Fld) (i j n : Nat) : (s.bumpWrap f i j n).programs = s.programs := rfl
@[simp] theorem bumpWrap_mfpIn (f : Fld) (i j n : Nat) : (s.bumpWrap f i j n).mfpIn = s.mfpIn := rfl
@[simp] theorem bumpWrap_tracerUntil (f : Fld) (i j n : Nat) : (s.bumpWrap f i j n).tracerUntil = s.tracerUntil := rfl
@[simp] theorem bumpWrap_estopUntil (f : Fld) (i j n : Nat) : (s.bumpWrap f i j n).estopUntil = s.estopUntil := rfl
@[simp] theorem bumpWrap_msixOn (f : Fld) (i j n : Nat) : (s.bumpWrap f i j n).msixOn = s.msixOn := rfl
@[simp] theorem bumpWrap_ended (f : Fld) (i j n : Nat) : (s.bumpWrap f i j n).ended = s.ended := rfl
@[simp] theorem bumpWrap_pcie (f : Fld) (i j n : Nat) : (s.bumpWrap f i j n).pcie = s.pcie := rfl
@[simp] theorem bumpWrap_mem (f : Fld) (i j n : Nat) : (s.bumpWrap f i j n).mem = s.mem := rfl
@[simp] theorem bumpWrap_chk (f : Fld) (i j n : Nat) : (s.bumpWrap f i j n).chk = s.chk := rfl
@[simp] theorem bumpWrap_flash (f : Fld) (i j n : Nat) : (s.bumpWrap f i j n).flash = s.flash := rfl
@[simp] theorem bumpWrap_stage (f : Fld) (i j n : Nat) : (s.bumpWrap f i j n).stage = s.stage := rfl
@[simp] theorem bumpWrap_hostMem (f : Fld) (i j n : Nat) : (s.bumpWrap f i j n).hostMem = s.hostMem := rfl
@[simp] theorem bumpWrap_capacity (f : Fld) (i j n : Nat) : (s.bumpWrap f i j n).capacity = s.capacity := rfl
@[simp] theorem bumpWrap_lanePll (f : Fld) (i j n : Nat) : (s.bumpWrap f i j n).lanePll = s.lanePll := rfl
@[simp] theorem bumpWrap_tx (f : Fld) (i j n : Nat) : (s.bumpWrap f i j n).tx = s.tx := rfl
@[simp] theorem bumpWrap_laneEq (f : Fld) (i j n : Nat) : (s.bumpWrap f i j n).laneEq = s.laneEq := rfl
@[simp] theorem bumpWrap_laneChk (f : Fld) (i j n : Nat) : (s.bumpWrap f i j n).laneChk = s.laneChk := rfl
@[simp] theorem bumpWrap_cad (f : Fld) (i j n : Nat) : (s.bumpWrap f i j n).cad = s.cad := rfl
@[simp] theorem bumpWrap_ports (f : Fld) (i j n : Nat) : (s.bumpWrap f i j n).ports = s.ports := rfl
@[simp] theorem bumpWrap_ledger (f : Fld) (i j n : Nat) : (s.bumpWrap f i j n).ledger = s.ledger := rfl
@[simp] theorem bumpWrap_chans (f : Fld) (i j n : Nat) : (s.bumpWrap f i j n).chans = s.chans := rfl
@[simp] theorem bumpWrap_segs (f : Fld) (i j n : Nat) : (s.bumpWrap f i j n).segs = s.segs := rfl
@[simp] theorem bumpWrap_stagger (f : Fld) (i j n : Nat) : (s.bumpWrap f i j n).stagger = s.stagger := rfl
@[simp] theorem bumpWrap_faults (f : Fld) (i j n : Nat) : (s.bumpWrap f i j n).faults = s.faults := rfl
@[simp] theorem bumpWrap_redec (f : Fld) (i j n : Nat) : (s.bumpWrap f i j n).redec = s.redec := rfl
@[simp] theorem bumpWrap_scans (f : Fld) (i j n : Nat) : (s.bumpWrap f i j n).scans = s.scans := rfl
@[simp] theorem bumpWrap_raws (f : Fld) (i j n : Nat) : (s.bumpWrap f i j n).raws = s.raws := rfl
@[simp] theorem bumpWrap_lib (f : Fld) (i j n : Nat) : (s.bumpWrap f i j n).lib = s.lib := rfl
@[simp] theorem bumpWrap_kept (f : Fld) (i j n : Nat) : (s.bumpWrap f i j n).kept = s.kept := rfl
@[simp] theorem bumpWrap_dram (f : Fld) (i j n : Nat) : (s.bumpWrap f i j n).dram = s.dram := rfl
@[simp] theorem bumpWrap_dma (f : Fld) (i j n : Nat) : (s.bumpWrap f i j n).dma = s.dma := rfl
@[simp] theorem bumpWrap_crcPoly (f : Fld) (i j n : Nat) : (s.bumpWrap f i j n).crcPoly = s.crcPoly := rfl
@[simp] theorem bumpWrap_rdg (f : Fld) (i j n : Nat) : (s.bumpWrap f i j n).rdg = s.rdg := rfl
@[simp] theorem bumpWrap_axes (f : Fld) (i j n : Nat) : (s.bumpWrap f i j n).axes = s.axes := rfl
@[simp] theorem bumpWrap_conv (f : Fld) (i j n : Nat) : (s.bumpWrap f i j n).conv = s.conv := rfl
@[simp] theorem bumpWrap_refConv (f : Fld) (i j n : Nat) : (s.bumpWrap f i j n).refConv = s.refConv := rfl
@[simp] theorem bumpWrap_convSlot (f : Fld) (i j n : Nat) : (s.bumpWrap f i j n).convSlot = s.convSlot := rfl
@[simp] theorem bumpWrap_dlyMeas (f : Fld) (i j n : Nat) : (s.bumpWrap f i j n).dlyMeas = s.dlyMeas := rfl
@[simp] theorem bumpWrap_snsFlags (f : Fld) (i j n : Nat) : (s.bumpWrap f i j n).snsFlags = s.snsFlags := rfl
@[simp] theorem bumpWrap_snsCfg (f : Fld) (i j n : Nat) : (s.bumpWrap f i j n).snsCfg = s.snsCfg := rfl
@[simp] theorem bumpWrap_sensePend (f : Fld) (i j n : Nat) : (s.bumpWrap f i j n).sensePend = s.sensePend := rfl
@[simp] theorem bumpWrap_commitAt (f : Fld) (i j n : Nat) : (s.bumpWrap f i j n).commitAt = s.commitAt := rfl
@[simp] theorem bumpWrap_slices (f : Fld) (i j n : Nat) : (s.bumpWrap f i j n).slices = s.slices := rfl
@[simp] theorem bumpWrap_spareUsed (f : Fld) (i j n : Nat) : (s.bumpWrap f i j n).spareUsed = s.spareUsed := rfl
@[simp] theorem bumpWrap_bistPlan (f : Fld) (i j n : Nat) : (s.bumpWrap f i j n).bistPlan = s.bistPlan := rfl
@[simp] theorem bumpWrap_bistResult (f : Fld) (i j n : Nat) : (s.bumpWrap f i j n).bistResult = s.bistResult := rfl
@[simp] theorem bumpWrap_bistDone (f : Fld) (i j n : Nat) : (s.bumpWrap f i j n).bistDone = s.bistDone := rfl
@[simp] theorem bumpWrap_bistAt (f : Fld) (i j n : Nat) : (s.bumpWrap f i j n).bistAt = s.bistAt := rfl
@[simp] theorem bumpWrap_ctxRec (f : Fld) (i j n : Nat) : (s.bumpWrap f i j n).ctxRec = s.ctxRec := rfl
@[simp] theorem bumpWrap_errEvent (f : Fld) (i j n : Nat) : (s.bumpWrap f i j n).errEvent = s.errEvent := rfl
@[simp] theorem bumpWrap_inject (f : Fld) (i j n : Nat) : (s.bumpWrap f i j n).inject = s.inject := rfl
@[simp] theorem bumpWrap_counters (f : Fld) (i j n : Nat) : (s.bumpWrap f i j n).counters = s.counters := rfl
@[simp] theorem bumpWrap_pmcCaps (f : Fld) (i j n : Nat) : (s.bumpWrap f i j n).pmcCaps = s.pmcCaps := rfl
@[simp] theorem bumpWrap_lfsr (f : Fld) (i j n : Nat) : (s.bumpWrap f i j n).lfsr = s.lfsr := rfl
@[simp] theorem bumpWrap_traceK (f : Fld) (i j n : Nat) : (s.bumpWrap f i j n).traceK = s.traceK := rfl
@[simp] theorem bumpWrap_traces (f : Fld) (i j n : Nat) : (s.bumpWrap f i j n).traces = s.traces := rfl
@[simp] theorem bumpWrap_winsel (f : Fld) (i j n : Nat) : (s.bumpWrap f i j n).winsel = s.winsel := rfl
@[simp] theorem bumpWrap_fab (f : Fld) (i j n : Nat) : (s.bumpWrap f i j n).fab = s.fab := rfl

/-! tally -/

@[simp] theorem tally_pending (e i n : Nat) : (s.tally e i n).pending = s.pending := rfl
@[simp] theorem tally_now (e i n : Nat) : (s.tally e i n).now = s.now := rfl
@[simp] theorem tally_chain (e i n : Nat) : (s.tally e i n).chain = s.chain := rfl
@[simp] theorem tally_out (e i n : Nat) : (s.tally e i n).out = s.out := rfl
@[simp] theorem tally_freeCount (e i n : Nat) : (s.tally e i n).freeCount = s.freeCount := rfl
@[simp] theorem tally_regs (e i n : Nat) : (s.tally e i n).regs = s.regs := rfl
@[simp] theorem tally_dev (e i n : Nat) : (s.tally e i n).dev = s.dev := rfl
@[simp] theorem tally_job (e i n : Nat) : (s.tally e i n).job = s.job := rfl
@[simp] theorem tally_fw (e i n : Nat) : (s.tally e i n).fw = s.fw := rfl
@[simp] theorem tally_boot (e i n : Nat) : (s.tally e i n).boot = s.boot := rfl
@[simp] theorem tally_otp (e i n : Nat) : (s.tally e i n).otp = s.otp := rfl
@[simp] theorem tally_straps (e i n : Nat) : (s.tally e i n).straps = s.straps := rfl
@[simp] theorem tally_programs (e i n : Nat) : (s.tally e i n).programs = s.programs := rfl
@[simp] theorem tally_mfpIn (e i n : Nat) : (s.tally e i n).mfpIn = s.mfpIn := rfl
@[simp] theorem tally_tracerUntil (e i n : Nat) : (s.tally e i n).tracerUntil = s.tracerUntil := rfl
@[simp] theorem tally_estopUntil (e i n : Nat) : (s.tally e i n).estopUntil = s.estopUntil := rfl
@[simp] theorem tally_msixOn (e i n : Nat) : (s.tally e i n).msixOn = s.msixOn := rfl
@[simp] theorem tally_ended (e i n : Nat) : (s.tally e i n).ended = s.ended := rfl
@[simp] theorem tally_pcie (e i n : Nat) : (s.tally e i n).pcie = s.pcie := rfl
@[simp] theorem tally_mem (e i n : Nat) : (s.tally e i n).mem = s.mem := rfl
@[simp] theorem tally_chk (e i n : Nat) : (s.tally e i n).chk = s.chk := rfl
@[simp] theorem tally_flash (e i n : Nat) : (s.tally e i n).flash = s.flash := rfl
@[simp] theorem tally_stage (e i n : Nat) : (s.tally e i n).stage = s.stage := rfl
@[simp] theorem tally_hostMem (e i n : Nat) : (s.tally e i n).hostMem = s.hostMem := rfl
@[simp] theorem tally_capacity (e i n : Nat) : (s.tally e i n).capacity = s.capacity := rfl
@[simp] theorem tally_lanePll (e i n : Nat) : (s.tally e i n).lanePll = s.lanePll := rfl
@[simp] theorem tally_tx (e i n : Nat) : (s.tally e i n).tx = s.tx := rfl
@[simp] theorem tally_laneEq (e i n : Nat) : (s.tally e i n).laneEq = s.laneEq := rfl
@[simp] theorem tally_laneChk (e i n : Nat) : (s.tally e i n).laneChk = s.laneChk := rfl
@[simp] theorem tally_cad (e i n : Nat) : (s.tally e i n).cad = s.cad := rfl
@[simp] theorem tally_ports (e i n : Nat) : (s.tally e i n).ports = s.ports := rfl
@[simp] theorem tally_ledger (e i n : Nat) : (s.tally e i n).ledger = s.ledger := rfl
@[simp] theorem tally_chans (e i n : Nat) : (s.tally e i n).chans = s.chans := rfl
@[simp] theorem tally_segs (e i n : Nat) : (s.tally e i n).segs = s.segs := rfl
@[simp] theorem tally_stagger (e i n : Nat) : (s.tally e i n).stagger = s.stagger := rfl
@[simp] theorem tally_faults (e i n : Nat) : (s.tally e i n).faults = s.faults := rfl
@[simp] theorem tally_redec (e i n : Nat) : (s.tally e i n).redec = s.redec := rfl
@[simp] theorem tally_scans (e i n : Nat) : (s.tally e i n).scans = s.scans := rfl
@[simp] theorem tally_raws (e i n : Nat) : (s.tally e i n).raws = s.raws := rfl
@[simp] theorem tally_lib (e i n : Nat) : (s.tally e i n).lib = s.lib := rfl
@[simp] theorem tally_kept (e i n : Nat) : (s.tally e i n).kept = s.kept := rfl
@[simp] theorem tally_dram (e i n : Nat) : (s.tally e i n).dram = s.dram := rfl
@[simp] theorem tally_dma (e i n : Nat) : (s.tally e i n).dma = s.dma := rfl
@[simp] theorem tally_crcPoly (e i n : Nat) : (s.tally e i n).crcPoly = s.crcPoly := rfl
@[simp] theorem tally_rdg (e i n : Nat) : (s.tally e i n).rdg = s.rdg := rfl
@[simp] theorem tally_axes (e i n : Nat) : (s.tally e i n).axes = s.axes := rfl
@[simp] theorem tally_conv (e i n : Nat) : (s.tally e i n).conv = s.conv := rfl
@[simp] theorem tally_refConv (e i n : Nat) : (s.tally e i n).refConv = s.refConv := rfl
@[simp] theorem tally_convSlot (e i n : Nat) : (s.tally e i n).convSlot = s.convSlot := rfl
@[simp] theorem tally_dlyMeas (e i n : Nat) : (s.tally e i n).dlyMeas = s.dlyMeas := rfl
@[simp] theorem tally_snsFlags (e i n : Nat) : (s.tally e i n).snsFlags = s.snsFlags := rfl
@[simp] theorem tally_snsCfg (e i n : Nat) : (s.tally e i n).snsCfg = s.snsCfg := rfl
@[simp] theorem tally_sensePend (e i n : Nat) : (s.tally e i n).sensePend = s.sensePend := rfl
@[simp] theorem tally_commitAt (e i n : Nat) : (s.tally e i n).commitAt = s.commitAt := rfl
@[simp] theorem tally_slices (e i n : Nat) : (s.tally e i n).slices = s.slices := rfl
@[simp] theorem tally_spareUsed (e i n : Nat) : (s.tally e i n).spareUsed = s.spareUsed := rfl
@[simp] theorem tally_bistPlan (e i n : Nat) : (s.tally e i n).bistPlan = s.bistPlan := rfl
@[simp] theorem tally_bistResult (e i n : Nat) : (s.tally e i n).bistResult = s.bistResult := rfl
@[simp] theorem tally_bistDone (e i n : Nat) : (s.tally e i n).bistDone = s.bistDone := rfl
@[simp] theorem tally_bistAt (e i n : Nat) : (s.tally e i n).bistAt = s.bistAt := rfl
@[simp] theorem tally_ctxRec (e i n : Nat) : (s.tally e i n).ctxRec = s.ctxRec := rfl
@[simp] theorem tally_errEvent (e i n : Nat) : (s.tally e i n).errEvent = s.errEvent := rfl
@[simp] theorem tally_inject (e i n : Nat) : (s.tally e i n).inject = s.inject := rfl
@[simp] theorem tally_pmcCaps (e i n : Nat) : (s.tally e i n).pmcCaps = s.pmcCaps := rfl
@[simp] theorem tally_lfsr (e i n : Nat) : (s.tally e i n).lfsr = s.lfsr := rfl
@[simp] theorem tally_traceK (e i n : Nat) : (s.tally e i n).traceK = s.traceK := rfl
@[simp] theorem tally_traces (e i n : Nat) : (s.tally e i n).traces = s.traces := rfl
@[simp] theorem tally_winsel (e i n : Nat) : (s.tally e i n).winsel = s.winsel := rfl
@[simp] theorem tally_fab (e i n : Nat) : (s.tally e i n).fab = s.fab := rfl

/-! emit -/

@[simp] theorem emit_pending (o : Output) : (s.emit o).pending = s.pending := rfl
@[simp] theorem emit_now (o : Output) : (s.emit o).now = s.now := rfl
@[simp] theorem emit_chain (o : Output) : (s.emit o).chain = s.chain := rfl
@[simp] theorem emit_freeCount (o : Output) : (s.emit o).freeCount = s.freeCount := rfl
@[simp] theorem emit_regs (o : Output) : (s.emit o).regs = s.regs := rfl
@[simp] theorem emit_dev (o : Output) : (s.emit o).dev = s.dev := rfl
@[simp] theorem emit_job (o : Output) : (s.emit o).job = s.job := rfl
@[simp] theorem emit_fw (o : Output) : (s.emit o).fw = s.fw := rfl
@[simp] theorem emit_boot (o : Output) : (s.emit o).boot = s.boot := rfl
@[simp] theorem emit_otp (o : Output) : (s.emit o).otp = s.otp := rfl
@[simp] theorem emit_straps (o : Output) : (s.emit o).straps = s.straps := rfl
@[simp] theorem emit_programs (o : Output) : (s.emit o).programs = s.programs := rfl
@[simp] theorem emit_mfpIn (o : Output) : (s.emit o).mfpIn = s.mfpIn := rfl
@[simp] theorem emit_tracerUntil (o : Output) : (s.emit o).tracerUntil = s.tracerUntil := rfl
@[simp] theorem emit_estopUntil (o : Output) : (s.emit o).estopUntil = s.estopUntil := rfl
@[simp] theorem emit_msixOn (o : Output) : (s.emit o).msixOn = s.msixOn := rfl
@[simp] theorem emit_ended (o : Output) : (s.emit o).ended = s.ended := rfl
@[simp] theorem emit_pcie (o : Output) : (s.emit o).pcie = s.pcie := rfl
@[simp] theorem emit_mem (o : Output) : (s.emit o).mem = s.mem := rfl
@[simp] theorem emit_chk (o : Output) : (s.emit o).chk = s.chk := rfl
@[simp] theorem emit_flash (o : Output) : (s.emit o).flash = s.flash := rfl
@[simp] theorem emit_stage (o : Output) : (s.emit o).stage = s.stage := rfl
@[simp] theorem emit_hostMem (o : Output) : (s.emit o).hostMem = s.hostMem := rfl
@[simp] theorem emit_capacity (o : Output) : (s.emit o).capacity = s.capacity := rfl
@[simp] theorem emit_lanePll (o : Output) : (s.emit o).lanePll = s.lanePll := rfl
@[simp] theorem emit_tx (o : Output) : (s.emit o).tx = s.tx := rfl
@[simp] theorem emit_laneEq (o : Output) : (s.emit o).laneEq = s.laneEq := rfl
@[simp] theorem emit_laneChk (o : Output) : (s.emit o).laneChk = s.laneChk := rfl
@[simp] theorem emit_cad (o : Output) : (s.emit o).cad = s.cad := rfl
@[simp] theorem emit_ports (o : Output) : (s.emit o).ports = s.ports := rfl
@[simp] theorem emit_ledger (o : Output) : (s.emit o).ledger = s.ledger := rfl
@[simp] theorem emit_chans (o : Output) : (s.emit o).chans = s.chans := rfl
@[simp] theorem emit_segs (o : Output) : (s.emit o).segs = s.segs := rfl
@[simp] theorem emit_stagger (o : Output) : (s.emit o).stagger = s.stagger := rfl
@[simp] theorem emit_faults (o : Output) : (s.emit o).faults = s.faults := rfl
@[simp] theorem emit_redec (o : Output) : (s.emit o).redec = s.redec := rfl
@[simp] theorem emit_scans (o : Output) : (s.emit o).scans = s.scans := rfl
@[simp] theorem emit_raws (o : Output) : (s.emit o).raws = s.raws := rfl
@[simp] theorem emit_lib (o : Output) : (s.emit o).lib = s.lib := rfl
@[simp] theorem emit_kept (o : Output) : (s.emit o).kept = s.kept := rfl
@[simp] theorem emit_dram (o : Output) : (s.emit o).dram = s.dram := rfl
@[simp] theorem emit_dma (o : Output) : (s.emit o).dma = s.dma := rfl
@[simp] theorem emit_crcPoly (o : Output) : (s.emit o).crcPoly = s.crcPoly := rfl
@[simp] theorem emit_rdg (o : Output) : (s.emit o).rdg = s.rdg := rfl
@[simp] theorem emit_axes (o : Output) : (s.emit o).axes = s.axes := rfl
@[simp] theorem emit_conv (o : Output) : (s.emit o).conv = s.conv := rfl
@[simp] theorem emit_refConv (o : Output) : (s.emit o).refConv = s.refConv := rfl
@[simp] theorem emit_convSlot (o : Output) : (s.emit o).convSlot = s.convSlot := rfl
@[simp] theorem emit_dlyMeas (o : Output) : (s.emit o).dlyMeas = s.dlyMeas := rfl
@[simp] theorem emit_snsFlags (o : Output) : (s.emit o).snsFlags = s.snsFlags := rfl
@[simp] theorem emit_snsCfg (o : Output) : (s.emit o).snsCfg = s.snsCfg := rfl
@[simp] theorem emit_sensePend (o : Output) : (s.emit o).sensePend = s.sensePend := rfl
@[simp] theorem emit_commitAt (o : Output) : (s.emit o).commitAt = s.commitAt := rfl
@[simp] theorem emit_slices (o : Output) : (s.emit o).slices = s.slices := rfl
@[simp] theorem emit_spareUsed (o : Output) : (s.emit o).spareUsed = s.spareUsed := rfl
@[simp] theorem emit_bistPlan (o : Output) : (s.emit o).bistPlan = s.bistPlan := rfl
@[simp] theorem emit_bistResult (o : Output) : (s.emit o).bistResult = s.bistResult := rfl
@[simp] theorem emit_bistDone (o : Output) : (s.emit o).bistDone = s.bistDone := rfl
@[simp] theorem emit_bistAt (o : Output) : (s.emit o).bistAt = s.bistAt := rfl
@[simp] theorem emit_ctxRec (o : Output) : (s.emit o).ctxRec = s.ctxRec := rfl
@[simp] theorem emit_errEvent (o : Output) : (s.emit o).errEvent = s.errEvent := rfl
@[simp] theorem emit_inject (o : Output) : (s.emit o).inject = s.inject := rfl
@[simp] theorem emit_counters (o : Output) : (s.emit o).counters = s.counters := rfl
@[simp] theorem emit_pmcCaps (o : Output) : (s.emit o).pmcCaps = s.pmcCaps := rfl
@[simp] theorem emit_lfsr (o : Output) : (s.emit o).lfsr = s.lfsr := rfl
@[simp] theorem emit_traceK (o : Output) : (s.emit o).traceK = s.traceK := rfl
@[simp] theorem emit_traces (o : Output) : (s.emit o).traces = s.traces := rfl
@[simp] theorem emit_winsel (o : Output) : (s.emit o).winsel = s.winsel := rfl
@[simp] theorem emit_fab (o : Output) : (s.emit o).fab = s.fab := rfl
@[simp] theorem emit_out (o : Output) : (s.emit o).out = s.out ++ [o] := rfl

/-! drawn -/

@[simp] theorem drawn_pending  : (s.drawn).pending = s.pending := rfl
@[simp] theorem drawn_now  : (s.drawn).now = s.now := rfl
@[simp] theorem drawn_chain  : (s.drawn).chain = s.chain := rfl
@[simp] theorem drawn_out  : (s.drawn).out = s.out := rfl
@[simp] theorem drawn_regs  : (s.drawn).regs = s.regs := rfl
@[simp] theorem drawn_dev  : (s.drawn).dev = s.dev := rfl
@[simp] theorem drawn_job  : (s.drawn).job = s.job := rfl
@[simp] theorem drawn_fw  : (s.drawn).fw = s.fw := rfl
@[simp] theorem drawn_boot  : (s.drawn).boot = s.boot := rfl
@[simp] theorem drawn_otp  : (s.drawn).otp = s.otp := rfl
@[simp] theorem drawn_straps  : (s.drawn).straps = s.straps := rfl
@[simp] theorem drawn_programs  : (s.drawn).programs = s.programs := rfl
@[simp] theorem drawn_mfpIn  : (s.drawn).mfpIn = s.mfpIn := rfl
@[simp] theorem drawn_tracerUntil  : (s.drawn).tracerUntil = s.tracerUntil := rfl
@[simp] theorem drawn_estopUntil  : (s.drawn).estopUntil = s.estopUntil := rfl
@[simp] theorem drawn_msixOn  : (s.drawn).msixOn = s.msixOn := rfl
@[simp] theorem drawn_ended  : (s.drawn).ended = s.ended := rfl
@[simp] theorem drawn_pcie  : (s.drawn).pcie = s.pcie := rfl
@[simp] theorem drawn_mem  : (s.drawn).mem = s.mem := rfl
@[simp] theorem drawn_chk  : (s.drawn).chk = s.chk := rfl
@[simp] theorem drawn_flash  : (s.drawn).flash = s.flash := rfl
@[simp] theorem drawn_stage  : (s.drawn).stage = s.stage := rfl
@[simp] theorem drawn_hostMem  : (s.drawn).hostMem = s.hostMem := rfl
@[simp] theorem drawn_capacity  : (s.drawn).capacity = s.capacity := rfl
@[simp] theorem drawn_lanePll  : (s.drawn).lanePll = s.lanePll := rfl
@[simp] theorem drawn_tx  : (s.drawn).tx = s.tx := rfl
@[simp] theorem drawn_laneEq  : (s.drawn).laneEq = s.laneEq := rfl
@[simp] theorem drawn_laneChk  : (s.drawn).laneChk = s.laneChk := rfl
@[simp] theorem drawn_cad  : (s.drawn).cad = s.cad := rfl
@[simp] theorem drawn_ports  : (s.drawn).ports = s.ports := rfl
@[simp] theorem drawn_ledger  : (s.drawn).ledger = s.ledger := rfl
@[simp] theorem drawn_chans  : (s.drawn).chans = s.chans := rfl
@[simp] theorem drawn_segs  : (s.drawn).segs = s.segs := rfl
@[simp] theorem drawn_stagger  : (s.drawn).stagger = s.stagger := rfl
@[simp] theorem drawn_faults  : (s.drawn).faults = s.faults := rfl
@[simp] theorem drawn_redec  : (s.drawn).redec = s.redec := rfl
@[simp] theorem drawn_scans  : (s.drawn).scans = s.scans := rfl
@[simp] theorem drawn_raws  : (s.drawn).raws = s.raws := rfl
@[simp] theorem drawn_lib  : (s.drawn).lib = s.lib := rfl
@[simp] theorem drawn_kept  : (s.drawn).kept = s.kept := rfl
@[simp] theorem drawn_dram  : (s.drawn).dram = s.dram := rfl
@[simp] theorem drawn_dma  : (s.drawn).dma = s.dma := rfl
@[simp] theorem drawn_crcPoly  : (s.drawn).crcPoly = s.crcPoly := rfl
@[simp] theorem drawn_rdg  : (s.drawn).rdg = s.rdg := rfl
@[simp] theorem drawn_axes  : (s.drawn).axes = s.axes := rfl
@[simp] theorem drawn_conv  : (s.drawn).conv = s.conv := rfl
@[simp] theorem drawn_refConv  : (s.drawn).refConv = s.refConv := rfl
@[simp] theorem drawn_convSlot  : (s.drawn).convSlot = s.convSlot := rfl
@[simp] theorem drawn_dlyMeas  : (s.drawn).dlyMeas = s.dlyMeas := rfl
@[simp] theorem drawn_snsFlags  : (s.drawn).snsFlags = s.snsFlags := rfl
@[simp] theorem drawn_snsCfg  : (s.drawn).snsCfg = s.snsCfg := rfl
@[simp] theorem drawn_sensePend  : (s.drawn).sensePend = s.sensePend := rfl
@[simp] theorem drawn_commitAt  : (s.drawn).commitAt = s.commitAt := rfl
@[simp] theorem drawn_slices  : (s.drawn).slices = s.slices := rfl
@[simp] theorem drawn_spareUsed  : (s.drawn).spareUsed = s.spareUsed := rfl
@[simp] theorem drawn_bistPlan  : (s.drawn).bistPlan = s.bistPlan := rfl
@[simp] theorem drawn_bistResult  : (s.drawn).bistResult = s.bistResult := rfl
@[simp] theorem drawn_bistDone  : (s.drawn).bistDone = s.bistDone := rfl
@[simp] theorem drawn_bistAt  : (s.drawn).bistAt = s.bistAt := rfl
@[simp] theorem drawn_ctxRec  : (s.drawn).ctxRec = s.ctxRec := rfl
@[simp] theorem drawn_errEvent  : (s.drawn).errEvent = s.errEvent := rfl
@[simp] theorem drawn_inject  : (s.drawn).inject = s.inject := rfl
@[simp] theorem drawn_counters  : (s.drawn).counters = s.counters := rfl
@[simp] theorem drawn_pmcCaps  : (s.drawn).pmcCaps = s.pmcCaps := rfl
@[simp] theorem drawn_lfsr  : (s.drawn).lfsr = s.lfsr := rfl
@[simp] theorem drawn_traceK  : (s.drawn).traceK = s.traceK := rfl
@[simp] theorem drawn_traces  : (s.drawn).traces = s.traces := rfl
@[simp] theorem drawn_winsel  : (s.drawn).winsel = s.winsel := rfl
@[simp] theorem drawn_fab  : (s.drawn).fab = s.fab := rfl
@[simp] theorem drawn_freeCount  : (s.drawn).freeCount = s.freeCount + 1 := rfl

/-! setPort -/

@[simp] theorem setPort_pending (p : Nat) (h : HeadPort) : (s.setPort p h).pending = s.pending := rfl
@[simp] theorem setPort_now (p : Nat) (h : HeadPort) : (s.setPort p h).now = s.now := rfl
@[simp] theorem setPort_chain (p : Nat) (h : HeadPort) : (s.setPort p h).chain = s.chain := rfl
@[simp] theorem setPort_out (p : Nat) (h : HeadPort) : (s.setPort p h).out = s.out := rfl
@[simp] theorem setPort_freeCount (p : Nat) (h : HeadPort) : (s.setPort p h).freeCount = s.freeCount := rfl
@[simp] theorem setPort_regs (p : Nat) (h : HeadPort) : (s.setPort p h).regs = s.regs := rfl
@[simp] theorem setPort_dev (p : Nat) (h : HeadPort) : (s.setPort p h).dev = s.dev := rfl
@[simp] theorem setPort_job (p : Nat) (h : HeadPort) : (s.setPort p h).job = s.job := rfl
@[simp] theorem setPort_fw (p : Nat) (h : HeadPort) : (s.setPort p h).fw = s.fw := rfl
@[simp] theorem setPort_boot (p : Nat) (h : HeadPort) : (s.setPort p h).boot = s.boot := rfl
@[simp] theorem setPort_otp (p : Nat) (h : HeadPort) : (s.setPort p h).otp = s.otp := rfl
@[simp] theorem setPort_straps (p : Nat) (h : HeadPort) : (s.setPort p h).straps = s.straps := rfl
@[simp] theorem setPort_programs (p : Nat) (h : HeadPort) : (s.setPort p h).programs = s.programs := rfl
@[simp] theorem setPort_mfpIn (p : Nat) (h : HeadPort) : (s.setPort p h).mfpIn = s.mfpIn := rfl
@[simp] theorem setPort_tracerUntil (p : Nat) (h : HeadPort) : (s.setPort p h).tracerUntil = s.tracerUntil := rfl
@[simp] theorem setPort_estopUntil (p : Nat) (h : HeadPort) : (s.setPort p h).estopUntil = s.estopUntil := rfl
@[simp] theorem setPort_msixOn (p : Nat) (h : HeadPort) : (s.setPort p h).msixOn = s.msixOn := rfl
@[simp] theorem setPort_ended (p : Nat) (h : HeadPort) : (s.setPort p h).ended = s.ended := rfl
@[simp] theorem setPort_pcie (p : Nat) (h : HeadPort) : (s.setPort p h).pcie = s.pcie := rfl
@[simp] theorem setPort_mem (p : Nat) (h : HeadPort) : (s.setPort p h).mem = s.mem := rfl
@[simp] theorem setPort_chk (p : Nat) (h : HeadPort) : (s.setPort p h).chk = s.chk := rfl
@[simp] theorem setPort_flash (p : Nat) (h : HeadPort) : (s.setPort p h).flash = s.flash := rfl
@[simp] theorem setPort_stage (p : Nat) (h : HeadPort) : (s.setPort p h).stage = s.stage := rfl
@[simp] theorem setPort_hostMem (p : Nat) (h : HeadPort) : (s.setPort p h).hostMem = s.hostMem := rfl
@[simp] theorem setPort_capacity (p : Nat) (h : HeadPort) : (s.setPort p h).capacity = s.capacity := rfl
@[simp] theorem setPort_lanePll (p : Nat) (h : HeadPort) : (s.setPort p h).lanePll = s.lanePll := rfl
@[simp] theorem setPort_tx (p : Nat) (h : HeadPort) : (s.setPort p h).tx = s.tx := rfl
@[simp] theorem setPort_laneEq (p : Nat) (h : HeadPort) : (s.setPort p h).laneEq = s.laneEq := rfl
@[simp] theorem setPort_laneChk (p : Nat) (h : HeadPort) : (s.setPort p h).laneChk = s.laneChk := rfl
@[simp] theorem setPort_cad (p : Nat) (h : HeadPort) : (s.setPort p h).cad = s.cad := rfl
@[simp] theorem setPort_ledger (p : Nat) (h : HeadPort) : (s.setPort p h).ledger = s.ledger := rfl
@[simp] theorem setPort_chans (p : Nat) (h : HeadPort) : (s.setPort p h).chans = s.chans := rfl
@[simp] theorem setPort_segs (p : Nat) (h : HeadPort) : (s.setPort p h).segs = s.segs := rfl
@[simp] theorem setPort_stagger (p : Nat) (h : HeadPort) : (s.setPort p h).stagger = s.stagger := rfl
@[simp] theorem setPort_faults (p : Nat) (h : HeadPort) : (s.setPort p h).faults = s.faults := rfl
@[simp] theorem setPort_redec (p : Nat) (h : HeadPort) : (s.setPort p h).redec = s.redec := rfl
@[simp] theorem setPort_scans (p : Nat) (h : HeadPort) : (s.setPort p h).scans = s.scans := rfl
@[simp] theorem setPort_raws (p : Nat) (h : HeadPort) : (s.setPort p h).raws = s.raws := rfl
@[simp] theorem setPort_lib (p : Nat) (h : HeadPort) : (s.setPort p h).lib = s.lib := rfl
@[simp] theorem setPort_kept (p : Nat) (h : HeadPort) : (s.setPort p h).kept = s.kept := rfl
@[simp] theorem setPort_dram (p : Nat) (h : HeadPort) : (s.setPort p h).dram = s.dram := rfl
@[simp] theorem setPort_dma (p : Nat) (h : HeadPort) : (s.setPort p h).dma = s.dma := rfl
@[simp] theorem setPort_crcPoly (p : Nat) (h : HeadPort) : (s.setPort p h).crcPoly = s.crcPoly := rfl
@[simp] theorem setPort_rdg (p : Nat) (h : HeadPort) : (s.setPort p h).rdg = s.rdg := rfl
@[simp] theorem setPort_axes (p : Nat) (h : HeadPort) : (s.setPort p h).axes = s.axes := rfl
@[simp] theorem setPort_conv (p : Nat) (h : HeadPort) : (s.setPort p h).conv = s.conv := rfl
@[simp] theorem setPort_refConv (p : Nat) (h : HeadPort) : (s.setPort p h).refConv = s.refConv := rfl
@[simp] theorem setPort_convSlot (p : Nat) (h : HeadPort) : (s.setPort p h).convSlot = s.convSlot := rfl
@[simp] theorem setPort_dlyMeas (p : Nat) (h : HeadPort) : (s.setPort p h).dlyMeas = s.dlyMeas := rfl
@[simp] theorem setPort_snsFlags (p : Nat) (h : HeadPort) : (s.setPort p h).snsFlags = s.snsFlags := rfl
@[simp] theorem setPort_snsCfg (p : Nat) (h : HeadPort) : (s.setPort p h).snsCfg = s.snsCfg := rfl
@[simp] theorem setPort_sensePend (p : Nat) (h : HeadPort) : (s.setPort p h).sensePend = s.sensePend := rfl
@[simp] theorem setPort_commitAt (p : Nat) (h : HeadPort) : (s.setPort p h).commitAt = s.commitAt := rfl
@[simp] theorem setPort_slices (p : Nat) (h : HeadPort) : (s.setPort p h).slices = s.slices := rfl
@[simp] theorem setPort_spareUsed (p : Nat) (h : HeadPort) : (s.setPort p h).spareUsed = s.spareUsed := rfl
@[simp] theorem setPort_bistPlan (p : Nat) (h : HeadPort) : (s.setPort p h).bistPlan = s.bistPlan := rfl
@[simp] theorem setPort_bistResult (p : Nat) (h : HeadPort) : (s.setPort p h).bistResult = s.bistResult := rfl
@[simp] theorem setPort_bistDone (p : Nat) (h : HeadPort) : (s.setPort p h).bistDone = s.bistDone := rfl
@[simp] theorem setPort_bistAt (p : Nat) (h : HeadPort) : (s.setPort p h).bistAt = s.bistAt := rfl
@[simp] theorem setPort_ctxRec (p : Nat) (h : HeadPort) : (s.setPort p h).ctxRec = s.ctxRec := rfl
@[simp] theorem setPort_errEvent (p : Nat) (h : HeadPort) : (s.setPort p h).errEvent = s.errEvent := rfl
@[simp] theorem setPort_inject (p : Nat) (h : HeadPort) : (s.setPort p h).inject = s.inject := rfl
@[simp] theorem setPort_counters (p : Nat) (h : HeadPort) : (s.setPort p h).counters = s.counters := rfl
@[simp] theorem setPort_pmcCaps (p : Nat) (h : HeadPort) : (s.setPort p h).pmcCaps = s.pmcCaps := rfl
@[simp] theorem setPort_lfsr (p : Nat) (h : HeadPort) : (s.setPort p h).lfsr = s.lfsr := rfl
@[simp] theorem setPort_traceK (p : Nat) (h : HeadPort) : (s.setPort p h).traceK = s.traceK := rfl
@[simp] theorem setPort_traces (p : Nat) (h : HeadPort) : (s.setPort p h).traces = s.traces := rfl
@[simp] theorem setPort_winsel (p : Nat) (h : HeadPort) : (s.setPort p h).winsel = s.winsel := rfl
@[simp] theorem setPort_fab (p : Nat) (h : HeadPort) : (s.setPort p h).fab = s.fab := rfl

/-! setStrobe -/

@[simp] theorem setStrobe_pending (p k : Nat) (x : Strobe) : (s.setStrobe p k x).pending = s.pending := rfl
@[simp] theorem setStrobe_now (p k : Nat) (x : Strobe) : (s.setStrobe p k x).now = s.now := rfl
@[simp] theorem setStrobe_chain (p k : Nat) (x : Strobe) : (s.setStrobe p k x).chain = s.chain := rfl
@[simp] theorem setStrobe_out (p k : Nat) (x : Strobe) : (s.setStrobe p k x).out = s.out := rfl
@[simp] theorem setStrobe_freeCount (p k : Nat) (x : Strobe) : (s.setStrobe p k x).freeCount = s.freeCount := rfl
@[simp] theorem setStrobe_regs (p k : Nat) (x : Strobe) : (s.setStrobe p k x).regs = s.regs := rfl
@[simp] theorem setStrobe_dev (p k : Nat) (x : Strobe) : (s.setStrobe p k x).dev = s.dev := rfl
@[simp] theorem setStrobe_job (p k : Nat) (x : Strobe) : (s.setStrobe p k x).job = s.job := rfl
@[simp] theorem setStrobe_fw (p k : Nat) (x : Strobe) : (s.setStrobe p k x).fw = s.fw := rfl
@[simp] theorem setStrobe_boot (p k : Nat) (x : Strobe) : (s.setStrobe p k x).boot = s.boot := rfl
@[simp] theorem setStrobe_otp (p k : Nat) (x : Strobe) : (s.setStrobe p k x).otp = s.otp := rfl
@[simp] theorem setStrobe_straps (p k : Nat) (x : Strobe) : (s.setStrobe p k x).straps = s.straps := rfl
@[simp] theorem setStrobe_programs (p k : Nat) (x : Strobe) : (s.setStrobe p k x).programs = s.programs := rfl
@[simp] theorem setStrobe_mfpIn (p k : Nat) (x : Strobe) : (s.setStrobe p k x).mfpIn = s.mfpIn := rfl
@[simp] theorem setStrobe_tracerUntil (p k : Nat) (x : Strobe) : (s.setStrobe p k x).tracerUntil = s.tracerUntil := rfl
@[simp] theorem setStrobe_estopUntil (p k : Nat) (x : Strobe) : (s.setStrobe p k x).estopUntil = s.estopUntil := rfl
@[simp] theorem setStrobe_msixOn (p k : Nat) (x : Strobe) : (s.setStrobe p k x).msixOn = s.msixOn := rfl
@[simp] theorem setStrobe_ended (p k : Nat) (x : Strobe) : (s.setStrobe p k x).ended = s.ended := rfl
@[simp] theorem setStrobe_pcie (p k : Nat) (x : Strobe) : (s.setStrobe p k x).pcie = s.pcie := rfl
@[simp] theorem setStrobe_mem (p k : Nat) (x : Strobe) : (s.setStrobe p k x).mem = s.mem := rfl
@[simp] theorem setStrobe_chk (p k : Nat) (x : Strobe) : (s.setStrobe p k x).chk = s.chk := rfl
@[simp] theorem setStrobe_flash (p k : Nat) (x : Strobe) : (s.setStrobe p k x).flash = s.flash := rfl
@[simp] theorem setStrobe_stage (p k : Nat) (x : Strobe) : (s.setStrobe p k x).stage = s.stage := rfl
@[simp] theorem setStrobe_hostMem (p k : Nat) (x : Strobe) : (s.setStrobe p k x).hostMem = s.hostMem := rfl
@[simp] theorem setStrobe_capacity (p k : Nat) (x : Strobe) : (s.setStrobe p k x).capacity = s.capacity := rfl
@[simp] theorem setStrobe_lanePll (p k : Nat) (x : Strobe) : (s.setStrobe p k x).lanePll = s.lanePll := rfl
@[simp] theorem setStrobe_tx (p k : Nat) (x : Strobe) : (s.setStrobe p k x).tx = s.tx := rfl
@[simp] theorem setStrobe_laneEq (p k : Nat) (x : Strobe) : (s.setStrobe p k x).laneEq = s.laneEq := rfl
@[simp] theorem setStrobe_laneChk (p k : Nat) (x : Strobe) : (s.setStrobe p k x).laneChk = s.laneChk := rfl
@[simp] theorem setStrobe_cad (p k : Nat) (x : Strobe) : (s.setStrobe p k x).cad = s.cad := rfl
@[simp] theorem setStrobe_ledger (p k : Nat) (x : Strobe) : (s.setStrobe p k x).ledger = s.ledger := rfl
@[simp] theorem setStrobe_chans (p k : Nat) (x : Strobe) : (s.setStrobe p k x).chans = s.chans := rfl
@[simp] theorem setStrobe_segs (p k : Nat) (x : Strobe) : (s.setStrobe p k x).segs = s.segs := rfl
@[simp] theorem setStrobe_stagger (p k : Nat) (x : Strobe) : (s.setStrobe p k x).stagger = s.stagger := rfl
@[simp] theorem setStrobe_faults (p k : Nat) (x : Strobe) : (s.setStrobe p k x).faults = s.faults := rfl
@[simp] theorem setStrobe_redec (p k : Nat) (x : Strobe) : (s.setStrobe p k x).redec = s.redec := rfl
@[simp] theorem setStrobe_scans (p k : Nat) (x : Strobe) : (s.setStrobe p k x).scans = s.scans := rfl
@[simp] theorem setStrobe_raws (p k : Nat) (x : Strobe) : (s.setStrobe p k x).raws = s.raws := rfl
@[simp] theorem setStrobe_lib (p k : Nat) (x : Strobe) : (s.setStrobe p k x).lib = s.lib := rfl
@[simp] theorem setStrobe_kept (p k : Nat) (x : Strobe) : (s.setStrobe p k x).kept = s.kept := rfl
@[simp] theorem setStrobe_dram (p k : Nat) (x : Strobe) : (s.setStrobe p k x).dram = s.dram := rfl
@[simp] theorem setStrobe_dma (p k : Nat) (x : Strobe) : (s.setStrobe p k x).dma = s.dma := rfl
@[simp] theorem setStrobe_crcPoly (p k : Nat) (x : Strobe) : (s.setStrobe p k x).crcPoly = s.crcPoly := rfl
@[simp] theorem setStrobe_rdg (p k : Nat) (x : Strobe) : (s.setStrobe p k x).rdg = s.rdg := rfl
@[simp] theorem setStrobe_axes (p k : Nat) (x : Strobe) : (s.setStrobe p k x).axes = s.axes := rfl
@[simp] theorem setStrobe_conv (p k : Nat) (x : Strobe) : (s.setStrobe p k x).conv = s.conv := rfl
@[simp] theorem setStrobe_refConv (p k : Nat) (x : Strobe) : (s.setStrobe p k x).refConv = s.refConv := rfl
@[simp] theorem setStrobe_convSlot (p k : Nat) (x : Strobe) : (s.setStrobe p k x).convSlot = s.convSlot := rfl
@[simp] theorem setStrobe_dlyMeas (p k : Nat) (x : Strobe) : (s.setStrobe p k x).dlyMeas = s.dlyMeas := rfl
@[simp] theorem setStrobe_snsFlags (p k : Nat) (x : Strobe) : (s.setStrobe p k x).snsFlags = s.snsFlags := rfl
@[simp] theorem setStrobe_snsCfg (p k : Nat) (x : Strobe) : (s.setStrobe p k x).snsCfg = s.snsCfg := rfl
@[simp] theorem setStrobe_sensePend (p k : Nat) (x : Strobe) : (s.setStrobe p k x).sensePend = s.sensePend := rfl
@[simp] theorem setStrobe_commitAt (p k : Nat) (x : Strobe) : (s.setStrobe p k x).commitAt = s.commitAt := rfl
@[simp] theorem setStrobe_slices (p k : Nat) (x : Strobe) : (s.setStrobe p k x).slices = s.slices := rfl
@[simp] theorem setStrobe_spareUsed (p k : Nat) (x : Strobe) : (s.setStrobe p k x).spareUsed = s.spareUsed := rfl
@[simp] theorem setStrobe_bistPlan (p k : Nat) (x : Strobe) : (s.setStrobe p k x).bistPlan = s.bistPlan := rfl
@[simp] theorem setStrobe_bistResult (p k : Nat) (x : Strobe) : (s.setStrobe p k x).bistResult = s.bistResult := rfl
@[simp] theorem setStrobe_bistDone (p k : Nat) (x : Strobe) : (s.setStrobe p k x).bistDone = s.bistDone := rfl
@[simp] theorem setStrobe_bistAt (p k : Nat) (x : Strobe) : (s.setStrobe p k x).bistAt = s.bistAt := rfl
@[simp] theorem setStrobe_ctxRec (p k : Nat) (x : Strobe) : (s.setStrobe p k x).ctxRec = s.ctxRec := rfl
@[simp] theorem setStrobe_errEvent (p k : Nat) (x : Strobe) : (s.setStrobe p k x).errEvent = s.errEvent := rfl
@[simp] theorem setStrobe_inject (p k : Nat) (x : Strobe) : (s.setStrobe p k x).inject = s.inject := rfl
@[simp] theorem setStrobe_counters (p k : Nat) (x : Strobe) : (s.setStrobe p k x).counters = s.counters := rfl
@[simp] theorem setStrobe_pmcCaps (p k : Nat) (x : Strobe) : (s.setStrobe p k x).pmcCaps = s.pmcCaps := rfl
@[simp] theorem setStrobe_lfsr (p k : Nat) (x : Strobe) : (s.setStrobe p k x).lfsr = s.lfsr := rfl
@[simp] theorem setStrobe_traceK (p k : Nat) (x : Strobe) : (s.setStrobe p k x).traceK = s.traceK := rfl
@[simp] theorem setStrobe_traces (p k : Nat) (x : Strobe) : (s.setStrobe p k x).traces = s.traces := rfl
@[simp] theorem setStrobe_winsel (p k : Nat) (x : Strobe) : (s.setStrobe p k x).winsel = s.winsel := rfl
@[simp] theorem setStrobe_fab (p k : Nat) (x : Strobe) : (s.setStrobe p k x).fab = s.fab := rfl

/-! setChan -/

@[simp] theorem setChan_pending (c : Nat) (h : ChanSt) : (s.setChan c h).pending = s.pending := rfl
@[simp] theorem setChan_now (c : Nat) (h : ChanSt) : (s.setChan c h).now = s.now := rfl
@[simp] theorem setChan_chain (c : Nat) (h : ChanSt) : (s.setChan c h).chain = s.chain := rfl
@[simp] theorem setChan_out (c : Nat) (h : ChanSt) : (s.setChan c h).out = s.out := rfl
@[simp] theorem setChan_freeCount (c : Nat) (h : ChanSt) : (s.setChan c h).freeCount = s.freeCount := rfl
@[simp] theorem setChan_regs (c : Nat) (h : ChanSt) : (s.setChan c h).regs = s.regs := rfl
@[simp] theorem setChan_dev (c : Nat) (h : ChanSt) : (s.setChan c h).dev = s.dev := rfl
@[simp] theorem setChan_job (c : Nat) (h : ChanSt) : (s.setChan c h).job = s.job := rfl
@[simp] theorem setChan_fw (c : Nat) (h : ChanSt) : (s.setChan c h).fw = s.fw := rfl
@[simp] theorem setChan_boot (c : Nat) (h : ChanSt) : (s.setChan c h).boot = s.boot := rfl
@[simp] theorem setChan_otp (c : Nat) (h : ChanSt) : (s.setChan c h).otp = s.otp := rfl
@[simp] theorem setChan_straps (c : Nat) (h : ChanSt) : (s.setChan c h).straps = s.straps := rfl
@[simp] theorem setChan_programs (c : Nat) (h : ChanSt) : (s.setChan c h).programs = s.programs := rfl
@[simp] theorem setChan_mfpIn (c : Nat) (h : ChanSt) : (s.setChan c h).mfpIn = s.mfpIn := rfl
@[simp] theorem setChan_tracerUntil (c : Nat) (h : ChanSt) : (s.setChan c h).tracerUntil = s.tracerUntil := rfl
@[simp] theorem setChan_estopUntil (c : Nat) (h : ChanSt) : (s.setChan c h).estopUntil = s.estopUntil := rfl
@[simp] theorem setChan_msixOn (c : Nat) (h : ChanSt) : (s.setChan c h).msixOn = s.msixOn := rfl
@[simp] theorem setChan_ended (c : Nat) (h : ChanSt) : (s.setChan c h).ended = s.ended := rfl
@[simp] theorem setChan_pcie (c : Nat) (h : ChanSt) : (s.setChan c h).pcie = s.pcie := rfl
@[simp] theorem setChan_mem (c : Nat) (h : ChanSt) : (s.setChan c h).mem = s.mem := rfl
@[simp] theorem setChan_chk (c : Nat) (h : ChanSt) : (s.setChan c h).chk = s.chk := rfl
@[simp] theorem setChan_flash (c : Nat) (h : ChanSt) : (s.setChan c h).flash = s.flash := rfl
@[simp] theorem setChan_stage (c : Nat) (h : ChanSt) : (s.setChan c h).stage = s.stage := rfl
@[simp] theorem setChan_hostMem (c : Nat) (h : ChanSt) : (s.setChan c h).hostMem = s.hostMem := rfl
@[simp] theorem setChan_capacity (c : Nat) (h : ChanSt) : (s.setChan c h).capacity = s.capacity := rfl
@[simp] theorem setChan_lanePll (c : Nat) (h : ChanSt) : (s.setChan c h).lanePll = s.lanePll := rfl
@[simp] theorem setChan_tx (c : Nat) (h : ChanSt) : (s.setChan c h).tx = s.tx := rfl
@[simp] theorem setChan_laneEq (c : Nat) (h : ChanSt) : (s.setChan c h).laneEq = s.laneEq := rfl
@[simp] theorem setChan_laneChk (c : Nat) (h : ChanSt) : (s.setChan c h).laneChk = s.laneChk := rfl
@[simp] theorem setChan_cad (c : Nat) (h : ChanSt) : (s.setChan c h).cad = s.cad := rfl
@[simp] theorem setChan_ports (c : Nat) (h : ChanSt) : (s.setChan c h).ports = s.ports := rfl
@[simp] theorem setChan_ledger (c : Nat) (h : ChanSt) : (s.setChan c h).ledger = s.ledger := rfl
@[simp] theorem setChan_segs (c : Nat) (h : ChanSt) : (s.setChan c h).segs = s.segs := rfl
@[simp] theorem setChan_stagger (c : Nat) (h : ChanSt) : (s.setChan c h).stagger = s.stagger := rfl
@[simp] theorem setChan_faults (c : Nat) (h : ChanSt) : (s.setChan c h).faults = s.faults := rfl
@[simp] theorem setChan_redec (c : Nat) (h : ChanSt) : (s.setChan c h).redec = s.redec := rfl
@[simp] theorem setChan_scans (c : Nat) (h : ChanSt) : (s.setChan c h).scans = s.scans := rfl
@[simp] theorem setChan_raws (c : Nat) (h : ChanSt) : (s.setChan c h).raws = s.raws := rfl
@[simp] theorem setChan_lib (c : Nat) (h : ChanSt) : (s.setChan c h).lib = s.lib := rfl
@[simp] theorem setChan_kept (c : Nat) (h : ChanSt) : (s.setChan c h).kept = s.kept := rfl
@[simp] theorem setChan_dram (c : Nat) (h : ChanSt) : (s.setChan c h).dram = s.dram := rfl
@[simp] theorem setChan_dma (c : Nat) (h : ChanSt) : (s.setChan c h).dma = s.dma := rfl
@[simp] theorem setChan_crcPoly (c : Nat) (h : ChanSt) : (s.setChan c h).crcPoly = s.crcPoly := rfl
@[simp] theorem setChan_rdg (c : Nat) (h : ChanSt) : (s.setChan c h).rdg = s.rdg := rfl
@[simp] theorem setChan_axes (c : Nat) (h : ChanSt) : (s.setChan c h).axes = s.axes := rfl
@[simp] theorem setChan_conv (c : Nat) (h : ChanSt) : (s.setChan c h).conv = s.conv := rfl
@[simp] theorem setChan_refConv (c : Nat) (h : ChanSt) : (s.setChan c h).refConv = s.refConv := rfl
@[simp] theorem setChan_convSlot (c : Nat) (h : ChanSt) : (s.setChan c h).convSlot = s.convSlot := rfl
@[simp] theorem setChan_dlyMeas (c : Nat) (h : ChanSt) : (s.setChan c h).dlyMeas = s.dlyMeas := rfl
@[simp] theorem setChan_snsFlags (c : Nat) (h : ChanSt) : (s.setChan c h).snsFlags = s.snsFlags := rfl
@[simp] theorem setChan_snsCfg (c : Nat) (h : ChanSt) : (s.setChan c h).snsCfg = s.snsCfg := rfl
@[simp] theorem setChan_sensePend (c : Nat) (h : ChanSt) : (s.setChan c h).sensePend = s.sensePend := rfl
@[simp] theorem setChan_commitAt (c : Nat) (h : ChanSt) : (s.setChan c h).commitAt = s.commitAt := rfl
@[simp] theorem setChan_slices (c : Nat) (h : ChanSt) : (s.setChan c h).slices = s.slices := rfl
@[simp] theorem setChan_spareUsed (c : Nat) (h : ChanSt) : (s.setChan c h).spareUsed = s.spareUsed := rfl
@[simp] theorem setChan_bistPlan (c : Nat) (h : ChanSt) : (s.setChan c h).bistPlan = s.bistPlan := rfl
@[simp] theorem setChan_bistResult (c : Nat) (h : ChanSt) : (s.setChan c h).bistResult = s.bistResult := rfl
@[simp] theorem setChan_bistDone (c : Nat) (h : ChanSt) : (s.setChan c h).bistDone = s.bistDone := rfl
@[simp] theorem setChan_bistAt (c : Nat) (h : ChanSt) : (s.setChan c h).bistAt = s.bistAt := rfl
@[simp] theorem setChan_ctxRec (c : Nat) (h : ChanSt) : (s.setChan c h).ctxRec = s.ctxRec := rfl
@[simp] theorem setChan_errEvent (c : Nat) (h : ChanSt) : (s.setChan c h).errEvent = s.errEvent := rfl
@[simp] theorem setChan_inject (c : Nat) (h : ChanSt) : (s.setChan c h).inject = s.inject := rfl
@[simp] theorem setChan_counters (c : Nat) (h : ChanSt) : (s.setChan c h).counters = s.counters := rfl
@[simp] theorem setChan_pmcCaps (c : Nat) (h : ChanSt) : (s.setChan c h).pmcCaps = s.pmcCaps := rfl
@[simp] theorem setChan_lfsr (c : Nat) (h : ChanSt) : (s.setChan c h).lfsr = s.lfsr := rfl
@[simp] theorem setChan_traceK (c : Nat) (h : ChanSt) : (s.setChan c h).traceK = s.traceK := rfl
@[simp] theorem setChan_traces (c : Nat) (h : ChanSt) : (s.setChan c h).traces = s.traces := rfl
@[simp] theorem setChan_winsel (c : Nat) (h : ChanSt) : (s.setChan c h).winsel = s.winsel := rfl
@[simp] theorem setChan_fab (c : Nat) (h : ChanSt) : (s.setChan c h).fab = s.fab := rfl

/-! setSeg -/

@[simp] theorem setSeg_pending (c g : Nat) (h : SegSt) : (s.setSeg c g h).pending = s.pending := rfl
@[simp] theorem setSeg_now (c g : Nat) (h : SegSt) : (s.setSeg c g h).now = s.now := rfl
@[simp] theorem setSeg_chain (c g : Nat) (h : SegSt) : (s.setSeg c g h).chain = s.chain := rfl
@[simp] theorem setSeg_out (c g : Nat) (h : SegSt) : (s.setSeg c g h).out = s.out := rfl
@[simp] theorem setSeg_freeCount (c g : Nat) (h : SegSt) : (s.setSeg c g h).freeCount = s.freeCount := rfl
@[simp] theorem setSeg_regs (c g : Nat) (h : SegSt) : (s.setSeg c g h).regs = s.regs := rfl
@[simp] theorem setSeg_dev (c g : Nat) (h : SegSt) : (s.setSeg c g h).dev = s.dev := rfl
@[simp] theorem setSeg_job (c g : Nat) (h : SegSt) : (s.setSeg c g h).job = s.job := rfl
@[simp] theorem setSeg_fw (c g : Nat) (h : SegSt) : (s.setSeg c g h).fw = s.fw := rfl
@[simp] theorem setSeg_boot (c g : Nat) (h : SegSt) : (s.setSeg c g h).boot = s.boot := rfl
@[simp] theorem setSeg_otp (c g : Nat) (h : SegSt) : (s.setSeg c g h).otp = s.otp := rfl
@[simp] theorem setSeg_straps (c g : Nat) (h : SegSt) : (s.setSeg c g h).straps = s.straps := rfl
@[simp] theorem setSeg_programs (c g : Nat) (h : SegSt) : (s.setSeg c g h).programs = s.programs := rfl
@[simp] theorem setSeg_mfpIn (c g : Nat) (h : SegSt) : (s.setSeg c g h).mfpIn = s.mfpIn := rfl
@[simp] theorem setSeg_tracerUntil (c g : Nat) (h : SegSt) : (s.setSeg c g h).tracerUntil = s.tracerUntil := rfl
@[simp] theorem setSeg_estopUntil (c g : Nat) (h : SegSt) : (s.setSeg c g h).estopUntil = s.estopUntil := rfl
@[simp] theorem setSeg_msixOn (c g : Nat) (h : SegSt) : (s.setSeg c g h).msixOn = s.msixOn := rfl
@[simp] theorem setSeg_ended (c g : Nat) (h : SegSt) : (s.setSeg c g h).ended = s.ended := rfl
@[simp] theorem setSeg_pcie (c g : Nat) (h : SegSt) : (s.setSeg c g h).pcie = s.pcie := rfl
@[simp] theorem setSeg_mem (c g : Nat) (h : SegSt) : (s.setSeg c g h).mem = s.mem := rfl
@[simp] theorem setSeg_chk (c g : Nat) (h : SegSt) : (s.setSeg c g h).chk = s.chk := rfl
@[simp] theorem setSeg_flash (c g : Nat) (h : SegSt) : (s.setSeg c g h).flash = s.flash := rfl
@[simp] theorem setSeg_stage (c g : Nat) (h : SegSt) : (s.setSeg c g h).stage = s.stage := rfl
@[simp] theorem setSeg_hostMem (c g : Nat) (h : SegSt) : (s.setSeg c g h).hostMem = s.hostMem := rfl
@[simp] theorem setSeg_capacity (c g : Nat) (h : SegSt) : (s.setSeg c g h).capacity = s.capacity := rfl
@[simp] theorem setSeg_lanePll (c g : Nat) (h : SegSt) : (s.setSeg c g h).lanePll = s.lanePll := rfl
@[simp] theorem setSeg_tx (c g : Nat) (h : SegSt) : (s.setSeg c g h).tx = s.tx := rfl
@[simp] theorem setSeg_laneEq (c g : Nat) (h : SegSt) : (s.setSeg c g h).laneEq = s.laneEq := rfl
@[simp] theorem setSeg_laneChk (c g : Nat) (h : SegSt) : (s.setSeg c g h).laneChk = s.laneChk := rfl
@[simp] theorem setSeg_cad (c g : Nat) (h : SegSt) : (s.setSeg c g h).cad = s.cad := rfl
@[simp] theorem setSeg_ports (c g : Nat) (h : SegSt) : (s.setSeg c g h).ports = s.ports := rfl
@[simp] theorem setSeg_ledger (c g : Nat) (h : SegSt) : (s.setSeg c g h).ledger = s.ledger := rfl
@[simp] theorem setSeg_chans (c g : Nat) (h : SegSt) : (s.setSeg c g h).chans = s.chans := rfl
@[simp] theorem setSeg_stagger (c g : Nat) (h : SegSt) : (s.setSeg c g h).stagger = s.stagger := rfl
@[simp] theorem setSeg_faults (c g : Nat) (h : SegSt) : (s.setSeg c g h).faults = s.faults := rfl
@[simp] theorem setSeg_redec (c g : Nat) (h : SegSt) : (s.setSeg c g h).redec = s.redec := rfl
@[simp] theorem setSeg_scans (c g : Nat) (h : SegSt) : (s.setSeg c g h).scans = s.scans := rfl
@[simp] theorem setSeg_raws (c g : Nat) (h : SegSt) : (s.setSeg c g h).raws = s.raws := rfl
@[simp] theorem setSeg_lib (c g : Nat) (h : SegSt) : (s.setSeg c g h).lib = s.lib := rfl
@[simp] theorem setSeg_kept (c g : Nat) (h : SegSt) : (s.setSeg c g h).kept = s.kept := rfl
@[simp] theorem setSeg_dram (c g : Nat) (h : SegSt) : (s.setSeg c g h).dram = s.dram := rfl
@[simp] theorem setSeg_dma (c g : Nat) (h : SegSt) : (s.setSeg c g h).dma = s.dma := rfl
@[simp] theorem setSeg_crcPoly (c g : Nat) (h : SegSt) : (s.setSeg c g h).crcPoly = s.crcPoly := rfl
@[simp] theorem setSeg_rdg (c g : Nat) (h : SegSt) : (s.setSeg c g h).rdg = s.rdg := rfl
@[simp] theorem setSeg_axes (c g : Nat) (h : SegSt) : (s.setSeg c g h).axes = s.axes := rfl
@[simp] theorem setSeg_conv (c g : Nat) (h : SegSt) : (s.setSeg c g h).conv = s.conv := rfl
@[simp] theorem setSeg_refConv (c g : Nat) (h : SegSt) : (s.setSeg c g h).refConv = s.refConv := rfl
@[simp] theorem setSeg_convSlot (c g : Nat) (h : SegSt) : (s.setSeg c g h).convSlot = s.convSlot := rfl
@[simp] theorem setSeg_dlyMeas (c g : Nat) (h : SegSt) : (s.setSeg c g h).dlyMeas = s.dlyMeas := rfl
@[simp] theorem setSeg_snsFlags (c g : Nat) (h : SegSt) : (s.setSeg c g h).snsFlags = s.snsFlags := rfl
@[simp] theorem setSeg_snsCfg (c g : Nat) (h : SegSt) : (s.setSeg c g h).snsCfg = s.snsCfg := rfl
@[simp] theorem setSeg_sensePend (c g : Nat) (h : SegSt) : (s.setSeg c g h).sensePend = s.sensePend := rfl
@[simp] theorem setSeg_commitAt (c g : Nat) (h : SegSt) : (s.setSeg c g h).commitAt = s.commitAt := rfl
@[simp] theorem setSeg_slices (c g : Nat) (h : SegSt) : (s.setSeg c g h).slices = s.slices := rfl
@[simp] theorem setSeg_spareUsed (c g : Nat) (h : SegSt) : (s.setSeg c g h).spareUsed = s.spareUsed := rfl
@[simp] theorem setSeg_bistPlan (c g : Nat) (h : SegSt) : (s.setSeg c g h).bistPlan = s.bistPlan := rfl
@[simp] theorem setSeg_bistResult (c g : Nat) (h : SegSt) : (s.setSeg c g h).bistResult = s.bistResult := rfl
@[simp] theorem setSeg_bistDone (c g : Nat) (h : SegSt) : (s.setSeg c g h).bistDone = s.bistDone := rfl
@[simp] theorem setSeg_bistAt (c g : Nat) (h : SegSt) : (s.setSeg c g h).bistAt = s.bistAt := rfl
@[simp] theorem setSeg_ctxRec (c g : Nat) (h : SegSt) : (s.setSeg c g h).ctxRec = s.ctxRec := rfl
@[simp] theorem setSeg_errEvent (c g : Nat) (h : SegSt) : (s.setSeg c g h).errEvent = s.errEvent := rfl
@[simp] theorem setSeg_inject (c g : Nat) (h : SegSt) : (s.setSeg c g h).inject = s.inject := rfl
@[simp] theorem setSeg_counters (c g : Nat) (h : SegSt) : (s.setSeg c g h).counters = s.counters := rfl
@[simp] theorem setSeg_pmcCaps (c g : Nat) (h : SegSt) : (s.setSeg c g h).pmcCaps = s.pmcCaps := rfl
@[simp] theorem setSeg_lfsr (c g : Nat) (h : SegSt) : (s.setSeg c g h).lfsr = s.lfsr := rfl
@[simp] theorem setSeg_traceK (c g : Nat) (h : SegSt) : (s.setSeg c g h).traceK = s.traceK := rfl
@[simp] theorem setSeg_traces (c g : Nat) (h : SegSt) : (s.setSeg c g h).traces = s.traces := rfl
@[simp] theorem setSeg_winsel (c g : Nat) (h : SegSt) : (s.setSeg c g h).winsel = s.winsel := rfl
@[simp] theorem setSeg_fab (c g : Nat) (h : SegSt) : (s.setSeg c g h).fab = s.fab := rfl

/-! setDma -/

@[simp] theorem setDma_pending (n : Nat) (h : DmaSt) : (s.setDma n h).pending = s.pending := rfl
@[simp] theorem setDma_now (n : Nat) (h : DmaSt) : (s.setDma n h).now = s.now := rfl
@[simp] theorem setDma_chain (n : Nat) (h : DmaSt) : (s.setDma n h).chain = s.chain := rfl
@[simp] theorem setDma_out (n : Nat) (h : DmaSt) : (s.setDma n h).out = s.out := rfl
@[simp] theorem setDma_freeCount (n : Nat) (h : DmaSt) : (s.setDma n h).freeCount = s.freeCount := rfl
@[simp] theorem setDma_regs (n : Nat) (h : DmaSt) : (s.setDma n h).regs = s.regs := rfl
@[simp] theorem setDma_dev (n : Nat) (h : DmaSt) : (s.setDma n h).dev = s.dev := rfl
@[simp] theorem setDma_job (n : Nat) (h : DmaSt) : (s.setDma n h).job = s.job := rfl
@[simp] theorem setDma_fw (n : Nat) (h : DmaSt) : (s.setDma n h).fw = s.fw := rfl
@[simp] theorem setDma_boot (n : Nat) (h : DmaSt) : (s.setDma n h).boot = s.boot := rfl
@[simp] theorem setDma_otp (n : Nat) (h : DmaSt) : (s.setDma n h).otp = s.otp := rfl
@[simp] theorem setDma_straps (n : Nat) (h : DmaSt) : (s.setDma n h).straps = s.straps := rfl
@[simp] theorem setDma_programs (n : Nat) (h : DmaSt) : (s.setDma n h).programs = s.programs := rfl
@[simp] theorem setDma_mfpIn (n : Nat) (h : DmaSt) : (s.setDma n h).mfpIn = s.mfpIn := rfl
@[simp] theorem setDma_tracerUntil (n : Nat) (h : DmaSt) : (s.setDma n h).tracerUntil = s.tracerUntil := rfl
@[simp] theorem setDma_estopUntil (n : Nat) (h : DmaSt) : (s.setDma n h).estopUntil = s.estopUntil := rfl
@[simp] theorem setDma_msixOn (n : Nat) (h : DmaSt) : (s.setDma n h).msixOn = s.msixOn := rfl
@[simp] theorem setDma_ended (n : Nat) (h : DmaSt) : (s.setDma n h).ended = s.ended := rfl
@[simp] theorem setDma_pcie (n : Nat) (h : DmaSt) : (s.setDma n h).pcie = s.pcie := rfl
@[simp] theorem setDma_mem (n : Nat) (h : DmaSt) : (s.setDma n h).mem = s.mem := rfl
@[simp] theorem setDma_chk (n : Nat) (h : DmaSt) : (s.setDma n h).chk = s.chk := rfl
@[simp] theorem setDma_flash (n : Nat) (h : DmaSt) : (s.setDma n h).flash = s.flash := rfl
@[simp] theorem setDma_stage (n : Nat) (h : DmaSt) : (s.setDma n h).stage = s.stage := rfl
@[simp] theorem setDma_hostMem (n : Nat) (h : DmaSt) : (s.setDma n h).hostMem = s.hostMem := rfl
@[simp] theorem setDma_capacity (n : Nat) (h : DmaSt) : (s.setDma n h).capacity = s.capacity := rfl
@[simp] theorem setDma_lanePll (n : Nat) (h : DmaSt) : (s.setDma n h).lanePll = s.lanePll := rfl
@[simp] theorem setDma_tx (n : Nat) (h : DmaSt) : (s.setDma n h).tx = s.tx := rfl
@[simp] theorem setDma_laneEq (n : Nat) (h : DmaSt) : (s.setDma n h).laneEq = s.laneEq := rfl
@[simp] theorem setDma_laneChk (n : Nat) (h : DmaSt) : (s.setDma n h).laneChk = s.laneChk := rfl
@[simp] theorem setDma_cad (n : Nat) (h : DmaSt) : (s.setDma n h).cad = s.cad := rfl
@[simp] theorem setDma_ports (n : Nat) (h : DmaSt) : (s.setDma n h).ports = s.ports := rfl
@[simp] theorem setDma_ledger (n : Nat) (h : DmaSt) : (s.setDma n h).ledger = s.ledger := rfl
@[simp] theorem setDma_chans (n : Nat) (h : DmaSt) : (s.setDma n h).chans = s.chans := rfl
@[simp] theorem setDma_segs (n : Nat) (h : DmaSt) : (s.setDma n h).segs = s.segs := rfl
@[simp] theorem setDma_stagger (n : Nat) (h : DmaSt) : (s.setDma n h).stagger = s.stagger := rfl
@[simp] theorem setDma_faults (n : Nat) (h : DmaSt) : (s.setDma n h).faults = s.faults := rfl
@[simp] theorem setDma_redec (n : Nat) (h : DmaSt) : (s.setDma n h).redec = s.redec := rfl
@[simp] theorem setDma_scans (n : Nat) (h : DmaSt) : (s.setDma n h).scans = s.scans := rfl
@[simp] theorem setDma_raws (n : Nat) (h : DmaSt) : (s.setDma n h).raws = s.raws := rfl
@[simp] theorem setDma_lib (n : Nat) (h : DmaSt) : (s.setDma n h).lib = s.lib := rfl
@[simp] theorem setDma_kept (n : Nat) (h : DmaSt) : (s.setDma n h).kept = s.kept := rfl
@[simp] theorem setDma_dram (n : Nat) (h : DmaSt) : (s.setDma n h).dram = s.dram := rfl
@[simp] theorem setDma_crcPoly (n : Nat) (h : DmaSt) : (s.setDma n h).crcPoly = s.crcPoly := rfl
@[simp] theorem setDma_rdg (n : Nat) (h : DmaSt) : (s.setDma n h).rdg = s.rdg := rfl
@[simp] theorem setDma_axes (n : Nat) (h : DmaSt) : (s.setDma n h).axes = s.axes := rfl
@[simp] theorem setDma_conv (n : Nat) (h : DmaSt) : (s.setDma n h).conv = s.conv := rfl
@[simp] theorem setDma_refConv (n : Nat) (h : DmaSt) : (s.setDma n h).refConv = s.refConv := rfl
@[simp] theorem setDma_convSlot (n : Nat) (h : DmaSt) : (s.setDma n h).convSlot = s.convSlot := rfl
@[simp] theorem setDma_dlyMeas (n : Nat) (h : DmaSt) : (s.setDma n h).dlyMeas = s.dlyMeas := rfl
@[simp] theorem setDma_snsFlags (n : Nat) (h : DmaSt) : (s.setDma n h).snsFlags = s.snsFlags := rfl
@[simp] theorem setDma_snsCfg (n : Nat) (h : DmaSt) : (s.setDma n h).snsCfg = s.snsCfg := rfl
@[simp] theorem setDma_sensePend (n : Nat) (h : DmaSt) : (s.setDma n h).sensePend = s.sensePend := rfl
@[simp] theorem setDma_commitAt (n : Nat) (h : DmaSt) : (s.setDma n h).commitAt = s.commitAt := rfl
@[simp] theorem setDma_slices (n : Nat) (h : DmaSt) : (s.setDma n h).slices = s.slices := rfl
@[simp] theorem setDma_spareUsed (n : Nat) (h : DmaSt) : (s.setDma n h).spareUsed = s.spareUsed := rfl
@[simp] theorem setDma_bistPlan (n : Nat) (h : DmaSt) : (s.setDma n h).bistPlan = s.bistPlan := rfl
@[simp] theorem setDma_bistResult (n : Nat) (h : DmaSt) : (s.setDma n h).bistResult = s.bistResult := rfl
@[simp] theorem setDma_bistDone (n : Nat) (h : DmaSt) : (s.setDma n h).bistDone = s.bistDone := rfl
@[simp] theorem setDma_bistAt (n : Nat) (h : DmaSt) : (s.setDma n h).bistAt = s.bistAt := rfl
@[simp] theorem setDma_ctxRec (n : Nat) (h : DmaSt) : (s.setDma n h).ctxRec = s.ctxRec := rfl
@[simp] theorem setDma_errEvent (n : Nat) (h : DmaSt) : (s.setDma n h).errEvent = s.errEvent := rfl
@[simp] theorem setDma_inject (n : Nat) (h : DmaSt) : (s.setDma n h).inject = s.inject := rfl
@[simp] theorem setDma_counters (n : Nat) (h : DmaSt) : (s.setDma n h).counters = s.counters := rfl
@[simp] theorem setDma_pmcCaps (n : Nat) (h : DmaSt) : (s.setDma n h).pmcCaps = s.pmcCaps := rfl
@[simp] theorem setDma_lfsr (n : Nat) (h : DmaSt) : (s.setDma n h).lfsr = s.lfsr := rfl
@[simp] theorem setDma_traceK (n : Nat) (h : DmaSt) : (s.setDma n h).traceK = s.traceK := rfl
@[simp] theorem setDma_traces (n : Nat) (h : DmaSt) : (s.setDma n h).traces = s.traces := rfl
@[simp] theorem setDma_winsel (n : Nat) (h : DmaSt) : (s.setDma n h).winsel = s.winsel := rfl
@[simp] theorem setDma_fab (n : Nat) (h : DmaSt) : (s.setDma n h).fab = s.fab := rfl

/-! setAxis -/

@[simp] theorem setAxis_pending (a : Nat) (h : AxisSt) : (s.setAxis a h).pending = s.pending := rfl
@[simp] theorem setAxis_now (a : Nat) (h : AxisSt) : (s.setAxis a h).now = s.now := rfl
@[simp] theorem setAxis_chain (a : Nat) (h : AxisSt) : (s.setAxis a h).chain = s.chain := rfl
@[simp] theorem setAxis_out (a : Nat) (h : AxisSt) : (s.setAxis a h).out = s.out := rfl
@[simp] theorem setAxis_freeCount (a : Nat) (h : AxisSt) : (s.setAxis a h).freeCount = s.freeCount := rfl
@[simp] theorem setAxis_regs (a : Nat) (h : AxisSt) : (s.setAxis a h).regs = s.regs := rfl
@[simp] theorem setAxis_dev (a : Nat) (h : AxisSt) : (s.setAxis a h).dev = s.dev := rfl
@[simp] theorem setAxis_job (a : Nat) (h : AxisSt) : (s.setAxis a h).job = s.job := rfl
@[simp] theorem setAxis_fw (a : Nat) (h : AxisSt) : (s.setAxis a h).fw = s.fw := rfl
@[simp] theorem setAxis_boot (a : Nat) (h : AxisSt) : (s.setAxis a h).boot = s.boot := rfl
@[simp] theorem setAxis_otp (a : Nat) (h : AxisSt) : (s.setAxis a h).otp = s.otp := rfl
@[simp] theorem setAxis_straps (a : Nat) (h : AxisSt) : (s.setAxis a h).straps = s.straps := rfl
@[simp] theorem setAxis_programs (a : Nat) (h : AxisSt) : (s.setAxis a h).programs = s.programs := rfl
@[simp] theorem setAxis_mfpIn (a : Nat) (h : AxisSt) : (s.setAxis a h).mfpIn = s.mfpIn := rfl
@[simp] theorem setAxis_tracerUntil (a : Nat) (h : AxisSt) : (s.setAxis a h).tracerUntil = s.tracerUntil := rfl
@[simp] theorem setAxis_estopUntil (a : Nat) (h : AxisSt) : (s.setAxis a h).estopUntil = s.estopUntil := rfl
@[simp] theorem setAxis_msixOn (a : Nat) (h : AxisSt) : (s.setAxis a h).msixOn = s.msixOn := rfl
@[simp] theorem setAxis_ended (a : Nat) (h : AxisSt) : (s.setAxis a h).ended = s.ended := rfl
@[simp] theorem setAxis_pcie (a : Nat) (h : AxisSt) : (s.setAxis a h).pcie = s.pcie := rfl
@[simp] theorem setAxis_mem (a : Nat) (h : AxisSt) : (s.setAxis a h).mem = s.mem := rfl
@[simp] theorem setAxis_chk (a : Nat) (h : AxisSt) : (s.setAxis a h).chk = s.chk := rfl
@[simp] theorem setAxis_flash (a : Nat) (h : AxisSt) : (s.setAxis a h).flash = s.flash := rfl
@[simp] theorem setAxis_stage (a : Nat) (h : AxisSt) : (s.setAxis a h).stage = s.stage := rfl
@[simp] theorem setAxis_hostMem (a : Nat) (h : AxisSt) : (s.setAxis a h).hostMem = s.hostMem := rfl
@[simp] theorem setAxis_capacity (a : Nat) (h : AxisSt) : (s.setAxis a h).capacity = s.capacity := rfl
@[simp] theorem setAxis_lanePll (a : Nat) (h : AxisSt) : (s.setAxis a h).lanePll = s.lanePll := rfl
@[simp] theorem setAxis_tx (a : Nat) (h : AxisSt) : (s.setAxis a h).tx = s.tx := rfl
@[simp] theorem setAxis_laneEq (a : Nat) (h : AxisSt) : (s.setAxis a h).laneEq = s.laneEq := rfl
@[simp] theorem setAxis_laneChk (a : Nat) (h : AxisSt) : (s.setAxis a h).laneChk = s.laneChk := rfl
@[simp] theorem setAxis_cad (a : Nat) (h : AxisSt) : (s.setAxis a h).cad = s.cad := rfl
@[simp] theorem setAxis_ports (a : Nat) (h : AxisSt) : (s.setAxis a h).ports = s.ports := rfl
@[simp] theorem setAxis_ledger (a : Nat) (h : AxisSt) : (s.setAxis a h).ledger = s.ledger := rfl
@[simp] theorem setAxis_chans (a : Nat) (h : AxisSt) : (s.setAxis a h).chans = s.chans := rfl
@[simp] theorem setAxis_segs (a : Nat) (h : AxisSt) : (s.setAxis a h).segs = s.segs := rfl
@[simp] theorem setAxis_stagger (a : Nat) (h : AxisSt) : (s.setAxis a h).stagger = s.stagger := rfl
@[simp] theorem setAxis_faults (a : Nat) (h : AxisSt) : (s.setAxis a h).faults = s.faults := rfl
@[simp] theorem setAxis_redec (a : Nat) (h : AxisSt) : (s.setAxis a h).redec = s.redec := rfl
@[simp] theorem setAxis_scans (a : Nat) (h : AxisSt) : (s.setAxis a h).scans = s.scans := rfl
@[simp] theorem setAxis_raws (a : Nat) (h : AxisSt) : (s.setAxis a h).raws = s.raws := rfl
@[simp] theorem setAxis_lib (a : Nat) (h : AxisSt) : (s.setAxis a h).lib = s.lib := rfl
@[simp] theorem setAxis_kept (a : Nat) (h : AxisSt) : (s.setAxis a h).kept = s.kept := rfl
@[simp] theorem setAxis_dram (a : Nat) (h : AxisSt) : (s.setAxis a h).dram = s.dram := rfl
@[simp] theorem setAxis_dma (a : Nat) (h : AxisSt) : (s.setAxis a h).dma = s.dma := rfl
@[simp] theorem setAxis_crcPoly (a : Nat) (h : AxisSt) : (s.setAxis a h).crcPoly = s.crcPoly := rfl
@[simp] theorem setAxis_rdg (a : Nat) (h : AxisSt) : (s.setAxis a h).rdg = s.rdg := rfl
@[simp] theorem setAxis_conv (a : Nat) (h : AxisSt) : (s.setAxis a h).conv = s.conv := rfl
@[simp] theorem setAxis_refConv (a : Nat) (h : AxisSt) : (s.setAxis a h).refConv = s.refConv := rfl
@[simp] theorem setAxis_convSlot (a : Nat) (h : AxisSt) : (s.setAxis a h).convSlot = s.convSlot := rfl
@[simp] theorem setAxis_dlyMeas (a : Nat) (h : AxisSt) : (s.setAxis a h).dlyMeas = s.dlyMeas := rfl
@[simp] theorem setAxis_snsFlags (a : Nat) (h : AxisSt) : (s.setAxis a h).snsFlags = s.snsFlags := rfl
@[simp] theorem setAxis_snsCfg (a : Nat) (h : AxisSt) : (s.setAxis a h).snsCfg = s.snsCfg := rfl
@[simp] theorem setAxis_sensePend (a : Nat) (h : AxisSt) : (s.setAxis a h).sensePend = s.sensePend := rfl
@[simp] theorem setAxis_commitAt (a : Nat) (h : AxisSt) : (s.setAxis a h).commitAt = s.commitAt := rfl
@[simp] theorem setAxis_slices (a : Nat) (h : AxisSt) : (s.setAxis a h).slices = s.slices := rfl
@[simp] theorem setAxis_spareUsed (a : Nat) (h : AxisSt) : (s.setAxis a h).spareUsed = s.spareUsed := rfl
@[simp] theorem setAxis_bistPlan (a : Nat) (h : AxisSt) : (s.setAxis a h).bistPlan = s.bistPlan := rfl
@[simp] theorem setAxis_bistResult (a : Nat) (h : AxisSt) : (s.setAxis a h).bistResult = s.bistResult := rfl
@[simp] theorem setAxis_bistDone (a : Nat) (h : AxisSt) : (s.setAxis a h).bistDone = s.bistDone := rfl
@[simp] theorem setAxis_bistAt (a : Nat) (h : AxisSt) : (s.setAxis a h).bistAt = s.bistAt := rfl
@[simp] theorem setAxis_ctxRec (a : Nat) (h : AxisSt) : (s.setAxis a h).ctxRec = s.ctxRec := rfl
@[simp] theorem setAxis_errEvent (a : Nat) (h : AxisSt) : (s.setAxis a h).errEvent = s.errEvent := rfl
@[simp] theorem setAxis_inject (a : Nat) (h : AxisSt) : (s.setAxis a h).inject = s.inject := rfl
@[simp] theorem setAxis_counters (a : Nat) (h : AxisSt) : (s.setAxis a h).counters = s.counters := rfl
@[simp] theorem setAxis_pmcCaps (a : Nat) (h : AxisSt) : (s.setAxis a h).pmcCaps = s.pmcCaps := rfl
@[simp] theorem setAxis_lfsr (a : Nat) (h : AxisSt) : (s.setAxis a h).lfsr = s.lfsr := rfl
@[simp] theorem setAxis_traceK (a : Nat) (h : AxisSt) : (s.setAxis a h).traceK = s.traceK := rfl
@[simp] theorem setAxis_traces (a : Nat) (h : AxisSt) : (s.setAxis a h).traces = s.traces := rfl
@[simp] theorem setAxis_winsel (a : Nat) (h : AxisSt) : (s.setAxis a h).winsel = s.winsel := rfl
@[simp] theorem setAxis_fab (a : Nat) (h : AxisSt) : (s.setAxis a h).fab = s.fab := rfl

/-! setCad -/

@[simp] theorem setCad_pending (c : Cad) : (s.setCad c).pending = s.pending := rfl
@[simp] theorem setCad_now (c : Cad) : (s.setCad c).now = s.now := rfl
@[simp] theorem setCad_chain (c : Cad) : (s.setCad c).chain = s.chain := rfl
@[simp] theorem setCad_out (c : Cad) : (s.setCad c).out = s.out := rfl
@[simp] theorem setCad_freeCount (c : Cad) : (s.setCad c).freeCount = s.freeCount := rfl
@[simp] theorem setCad_regs (c : Cad) : (s.setCad c).regs = s.regs := rfl
@[simp] theorem setCad_dev (c : Cad) : (s.setCad c).dev = s.dev := rfl
@[simp] theorem setCad_job (c : Cad) : (s.setCad c).job = s.job := rfl
@[simp] theorem setCad_fw (c : Cad) : (s.setCad c).fw = s.fw := rfl
@[simp] theorem setCad_boot (c : Cad) : (s.setCad c).boot = s.boot := rfl
@[simp] theorem setCad_otp (c : Cad) : (s.setCad c).otp = s.otp := rfl
@[simp] theorem setCad_straps (c : Cad) : (s.setCad c).straps = s.straps := rfl
@[simp] theorem setCad_programs (c : Cad) : (s.setCad c).programs = s.programs := rfl
@[simp] theorem setCad_mfpIn (c : Cad) : (s.setCad c).mfpIn = s.mfpIn := rfl
@[simp] theorem setCad_tracerUntil (c : Cad) : (s.setCad c).tracerUntil = s.tracerUntil := rfl
@[simp] theorem setCad_estopUntil (c : Cad) : (s.setCad c).estopUntil = s.estopUntil := rfl
@[simp] theorem setCad_msixOn (c : Cad) : (s.setCad c).msixOn = s.msixOn := rfl
@[simp] theorem setCad_ended (c : Cad) : (s.setCad c).ended = s.ended := rfl
@[simp] theorem setCad_pcie (c : Cad) : (s.setCad c).pcie = s.pcie := rfl
@[simp] theorem setCad_mem (c : Cad) : (s.setCad c).mem = s.mem := rfl
@[simp] theorem setCad_chk (c : Cad) : (s.setCad c).chk = s.chk := rfl
@[simp] theorem setCad_flash (c : Cad) : (s.setCad c).flash = s.flash := rfl
@[simp] theorem setCad_stage (c : Cad) : (s.setCad c).stage = s.stage := rfl
@[simp] theorem setCad_hostMem (c : Cad) : (s.setCad c).hostMem = s.hostMem := rfl
@[simp] theorem setCad_capacity (c : Cad) : (s.setCad c).capacity = s.capacity := rfl
@[simp] theorem setCad_lanePll (c : Cad) : (s.setCad c).lanePll = s.lanePll := rfl
@[simp] theorem setCad_tx (c : Cad) : (s.setCad c).tx = s.tx := rfl
@[simp] theorem setCad_laneEq (c : Cad) : (s.setCad c).laneEq = s.laneEq := rfl
@[simp] theorem setCad_laneChk (c : Cad) : (s.setCad c).laneChk = s.laneChk := rfl
@[simp] theorem setCad_ports (c : Cad) : (s.setCad c).ports = s.ports := rfl
@[simp] theorem setCad_ledger (c : Cad) : (s.setCad c).ledger = s.ledger := rfl
@[simp] theorem setCad_chans (c : Cad) : (s.setCad c).chans = s.chans := rfl
@[simp] theorem setCad_segs (c : Cad) : (s.setCad c).segs = s.segs := rfl
@[simp] theorem setCad_stagger (c : Cad) : (s.setCad c).stagger = s.stagger := rfl
@[simp] theorem setCad_faults (c : Cad) : (s.setCad c).faults = s.faults := rfl
@[simp] theorem setCad_redec (c : Cad) : (s.setCad c).redec = s.redec := rfl
@[simp] theorem setCad_scans (c : Cad) : (s.setCad c).scans = s.scans := rfl
@[simp] theorem setCad_raws (c : Cad) : (s.setCad c).raws = s.raws := rfl
@[simp] theorem setCad_lib (c : Cad) : (s.setCad c).lib = s.lib := rfl
@[simp] theorem setCad_kept (c : Cad) : (s.setCad c).kept = s.kept := rfl
@[simp] theorem setCad_dram (c : Cad) : (s.setCad c).dram = s.dram := rfl
@[simp] theorem setCad_dma (c : Cad) : (s.setCad c).dma = s.dma := rfl
@[simp] theorem setCad_crcPoly (c : Cad) : (s.setCad c).crcPoly = s.crcPoly := rfl
@[simp] theorem setCad_rdg (c : Cad) : (s.setCad c).rdg = s.rdg := rfl
@[simp] theorem setCad_axes (c : Cad) : (s.setCad c).axes = s.axes := rfl
@[simp] theorem setCad_conv (c : Cad) : (s.setCad c).conv = s.conv := rfl
@[simp] theorem setCad_refConv (c : Cad) : (s.setCad c).refConv = s.refConv := rfl
@[simp] theorem setCad_convSlot (c : Cad) : (s.setCad c).convSlot = s.convSlot := rfl
@[simp] theorem setCad_dlyMeas (c : Cad) : (s.setCad c).dlyMeas = s.dlyMeas := rfl
@[simp] theorem setCad_snsFlags (c : Cad) : (s.setCad c).snsFlags = s.snsFlags := rfl
@[simp] theorem setCad_snsCfg (c : Cad) : (s.setCad c).snsCfg = s.snsCfg := rfl
@[simp] theorem setCad_sensePend (c : Cad) : (s.setCad c).sensePend = s.sensePend := rfl
@[simp] theorem setCad_commitAt (c : Cad) : (s.setCad c).commitAt = s.commitAt := rfl
@[simp] theorem setCad_slices (c : Cad) : (s.setCad c).slices = s.slices := rfl
@[simp] theorem setCad_spareUsed (c : Cad) : (s.setCad c).spareUsed = s.spareUsed := rfl
@[simp] theorem setCad_bistPlan (c : Cad) : (s.setCad c).bistPlan = s.bistPlan := rfl
@[simp] theorem setCad_bistResult (c : Cad) : (s.setCad c).bistResult = s.bistResult := rfl
@[simp] theorem setCad_bistDone (c : Cad) : (s.setCad c).bistDone = s.bistDone := rfl
@[simp] theorem setCad_bistAt (c : Cad) : (s.setCad c).bistAt = s.bistAt := rfl
@[simp] theorem setCad_ctxRec (c : Cad) : (s.setCad c).ctxRec = s.ctxRec := rfl
@[simp] theorem setCad_errEvent (c : Cad) : (s.setCad c).errEvent = s.errEvent := rfl
@[simp] theorem setCad_inject (c : Cad) : (s.setCad c).inject = s.inject := rfl
@[simp] theorem setCad_counters (c : Cad) : (s.setCad c).counters = s.counters := rfl
@[simp] theorem setCad_pmcCaps (c : Cad) : (s.setCad c).pmcCaps = s.pmcCaps := rfl
@[simp] theorem setCad_lfsr (c : Cad) : (s.setCad c).lfsr = s.lfsr := rfl
@[simp] theorem setCad_traceK (c : Cad) : (s.setCad c).traceK = s.traceK := rfl
@[simp] theorem setCad_traces (c : Cad) : (s.setCad c).traces = s.traces := rfl
@[simp] theorem setCad_winsel (c : Cad) : (s.setCad c).winsel = s.winsel := rfl
@[simp] theorem setCad_fab (c : Cad) : (s.setCad c).fab = s.fab := rfl
@[simp] theorem setCad_cad (c : Cad) : (s.setCad c).cad = c := rfl

/-! setFw -/

@[simp] theorem setFw_pending (f : Fw) : (s.setFw f).pending = s.pending := rfl
@[simp] theorem setFw_now (f : Fw) : (s.setFw f).now = s.now := rfl
@[simp] theorem setFw_chain (f : Fw) : (s.setFw f).chain = s.chain := rfl
@[simp] theorem setFw_out (f : Fw) : (s.setFw f).out = s.out := rfl
@[simp] theorem setFw_freeCount (f : Fw) : (s.setFw f).freeCount = s.freeCount := rfl
@[simp] theorem setFw_regs (f : Fw) : (s.setFw f).regs = s.regs := rfl
@[simp] theorem setFw_dev (f : Fw) : (s.setFw f).dev = s.dev := rfl
@[simp] theorem setFw_job (f : Fw) : (s.setFw f).job = s.job := rfl
@[simp] theorem setFw_boot (f : Fw) : (s.setFw f).boot = s.boot := rfl
@[simp] theorem setFw_otp (f : Fw) : (s.setFw f).otp = s.otp := rfl
@[simp] theorem setFw_straps (f : Fw) : (s.setFw f).straps = s.straps := rfl
@[simp] theorem setFw_programs (f : Fw) : (s.setFw f).programs = s.programs := rfl
@[simp] theorem setFw_mfpIn (f : Fw) : (s.setFw f).mfpIn = s.mfpIn := rfl
@[simp] theorem setFw_tracerUntil (f : Fw) : (s.setFw f).tracerUntil = s.tracerUntil := rfl
@[simp] theorem setFw_estopUntil (f : Fw) : (s.setFw f).estopUntil = s.estopUntil := rfl
@[simp] theorem setFw_msixOn (f : Fw) : (s.setFw f).msixOn = s.msixOn := rfl
@[simp] theorem setFw_ended (f : Fw) : (s.setFw f).ended = s.ended := rfl
@[simp] theorem setFw_pcie (f : Fw) : (s.setFw f).pcie = s.pcie := rfl
@[simp] theorem setFw_mem (f : Fw) : (s.setFw f).mem = s.mem := rfl
@[simp] theorem setFw_chk (f : Fw) : (s.setFw f).chk = s.chk := rfl
@[simp] theorem setFw_flash (f : Fw) : (s.setFw f).flash = s.flash := rfl
@[simp] theorem setFw_stage (f : Fw) : (s.setFw f).stage = s.stage := rfl
@[simp] theorem setFw_hostMem (f : Fw) : (s.setFw f).hostMem = s.hostMem := rfl
@[simp] theorem setFw_capacity (f : Fw) : (s.setFw f).capacity = s.capacity := rfl
@[simp] theorem setFw_lanePll (f : Fw) : (s.setFw f).lanePll = s.lanePll := rfl
@[simp] theorem setFw_tx (f : Fw) : (s.setFw f).tx = s.tx := rfl
@[simp] theorem setFw_laneEq (f : Fw) : (s.setFw f).laneEq = s.laneEq := rfl
@[simp] theorem setFw_laneChk (f : Fw) : (s.setFw f).laneChk = s.laneChk := rfl
@[simp] theorem setFw_cad (f : Fw) : (s.setFw f).cad = s.cad := rfl
@[simp] theorem setFw_ports (f : Fw) : (s.setFw f).ports = s.ports := rfl
@[simp] theorem setFw_ledger (f : Fw) : (s.setFw f).ledger = s.ledger := rfl
@[simp] theorem setFw_chans (f : Fw) : (s.setFw f).chans = s.chans := rfl
@[simp] theorem setFw_segs (f : Fw) : (s.setFw f).segs = s.segs := rfl
@[simp] theorem setFw_stagger (f : Fw) : (s.setFw f).stagger = s.stagger := rfl
@[simp] theorem setFw_faults (f : Fw) : (s.setFw f).faults = s.faults := rfl
@[simp] theorem setFw_redec (f : Fw) : (s.setFw f).redec = s.redec := rfl
@[simp] theorem setFw_scans (f : Fw) : (s.setFw f).scans = s.scans := rfl
@[simp] theorem setFw_raws (f : Fw) : (s.setFw f).raws = s.raws := rfl
@[simp] theorem setFw_lib (f : Fw) : (s.setFw f).lib = s.lib := rfl
@[simp] theorem setFw_kept (f : Fw) : (s.setFw f).kept = s.kept := rfl
@[simp] theorem setFw_dram (f : Fw) : (s.setFw f).dram = s.dram := rfl
@[simp] theorem setFw_dma (f : Fw) : (s.setFw f).dma = s.dma := rfl
@[simp] theorem setFw_crcPoly (f : Fw) : (s.setFw f).crcPoly = s.crcPoly := rfl
@[simp] theorem setFw_rdg (f : Fw) : (s.setFw f).rdg = s.rdg := rfl
@[simp] theorem setFw_axes (f : Fw) : (s.setFw f).axes = s.axes := rfl
@[simp] theorem setFw_conv (f : Fw) : (s.setFw f).conv = s.conv := rfl
@[simp] theorem setFw_refConv (f : Fw) : (s.setFw f).refConv = s.refConv := rfl
@[simp] theorem setFw_convSlot (f : Fw) : (s.setFw f).convSlot = s.convSlot := rfl
@[simp] theorem setFw_dlyMeas (f : Fw) : (s.setFw f).dlyMeas = s.dlyMeas := rfl
@[simp] theorem setFw_snsFlags (f : Fw) : (s.setFw f).snsFlags = s.snsFlags := rfl
@[simp] theorem setFw_snsCfg (f : Fw) : (s.setFw f).snsCfg = s.snsCfg := rfl
@[simp] theorem setFw_sensePend (f : Fw) : (s.setFw f).sensePend = s.sensePend := rfl
@[simp] theorem setFw_commitAt (f : Fw) : (s.setFw f).commitAt = s.commitAt := rfl
@[simp] theorem setFw_slices (f : Fw) : (s.setFw f).slices = s.slices := rfl
@[simp] theorem setFw_spareUsed (f : Fw) : (s.setFw f).spareUsed = s.spareUsed := rfl
@[simp] theorem setFw_bistPlan (f : Fw) : (s.setFw f).bistPlan = s.bistPlan := rfl
@[simp] theorem setFw_bistResult (f : Fw) : (s.setFw f).bistResult = s.bistResult := rfl
@[simp] theorem setFw_bistDone (f : Fw) : (s.setFw f).bistDone = s.bistDone := rfl
@[simp] theorem setFw_bistAt (f : Fw) : (s.setFw f).bistAt = s.bistAt := rfl
@[simp] theorem setFw_ctxRec (f : Fw) : (s.setFw f).ctxRec = s.ctxRec := rfl
@[simp] theorem setFw_errEvent (f : Fw) : (s.setFw f).errEvent = s.errEvent := rfl
@[simp] theorem setFw_inject (f : Fw) : (s.setFw f).inject = s.inject := rfl
@[simp] theorem setFw_counters (f : Fw) : (s.setFw f).counters = s.counters := rfl
@[simp] theorem setFw_pmcCaps (f : Fw) : (s.setFw f).pmcCaps = s.pmcCaps := rfl
@[simp] theorem setFw_lfsr (f : Fw) : (s.setFw f).lfsr = s.lfsr := rfl
@[simp] theorem setFw_traceK (f : Fw) : (s.setFw f).traceK = s.traceK := rfl
@[simp] theorem setFw_traces (f : Fw) : (s.setFw f).traces = s.traces := rfl
@[simp] theorem setFw_winsel (f : Fw) : (s.setFw f).winsel = s.winsel := rfl
@[simp] theorem setFw_fab (f : Fw) : (s.setFw f).fab = s.fab := rfl
@[simp] theorem setFw_fw (f : Fw) : (s.setFw f).fw = f := rfl

/-! setJob -/

@[simp] theorem setJob_pending (j : Option Job) : (s.setJob j).pending = s.pending := rfl
@[simp] theorem setJob_now (j : Option Job) : (s.setJob j).now = s.now := rfl
@[simp] theorem setJob_chain (j : Option Job) : (s.setJob j).chain = s.chain := rfl
@[simp] theorem setJob_out (j : Option Job) : (s.setJob j).out = s.out := rfl
@[simp] theorem setJob_freeCount (j : Option Job) : (s.setJob j).freeCount = s.freeCount := rfl
@[simp] theorem setJob_regs (j : Option Job) : (s.setJob j).regs = s.regs := rfl
@[simp] theorem setJob_dev (j : Option Job) : (s.setJob j).dev = s.dev := rfl
@[simp] theorem setJob_fw (j : Option Job) : (s.setJob j).fw = s.fw := rfl
@[simp] theorem setJob_boot (j : Option Job) : (s.setJob j).boot = s.boot := rfl
@[simp] theorem setJob_otp (j : Option Job) : (s.setJob j).otp = s.otp := rfl
@[simp] theorem setJob_straps (j : Option Job) : (s.setJob j).straps = s.straps := rfl
@[simp] theorem setJob_programs (j : Option Job) : (s.setJob j).programs = s.programs := rfl
@[simp] theorem setJob_mfpIn (j : Option Job) : (s.setJob j).mfpIn = s.mfpIn := rfl
@[simp] theorem setJob_tracerUntil (j : Option Job) : (s.setJob j).tracerUntil = s.tracerUntil := rfl
@[simp] theorem setJob_estopUntil (j : Option Job) : (s.setJob j).estopUntil = s.estopUntil := rfl
@[simp] theorem setJob_msixOn (j : Option Job) : (s.setJob j).msixOn = s.msixOn := rfl
@[simp] theorem setJob_ended (j : Option Job) : (s.setJob j).ended = s.ended := rfl
@[simp] theorem setJob_pcie (j : Option Job) : (s.setJob j).pcie = s.pcie := rfl
@[simp] theorem setJob_mem (j : Option Job) : (s.setJob j).mem = s.mem := rfl
@[simp] theorem setJob_chk (j : Option Job) : (s.setJob j).chk = s.chk := rfl
@[simp] theorem setJob_flash (j : Option Job) : (s.setJob j).flash = s.flash := rfl
@[simp] theorem setJob_stage (j : Option Job) : (s.setJob j).stage = s.stage := rfl
@[simp] theorem setJob_hostMem (j : Option Job) : (s.setJob j).hostMem = s.hostMem := rfl
@[simp] theorem setJob_capacity (j : Option Job) : (s.setJob j).capacity = s.capacity := rfl
@[simp] theorem setJob_lanePll (j : Option Job) : (s.setJob j).lanePll = s.lanePll := rfl
@[simp] theorem setJob_tx (j : Option Job) : (s.setJob j).tx = s.tx := rfl
@[simp] theorem setJob_laneEq (j : Option Job) : (s.setJob j).laneEq = s.laneEq := rfl
@[simp] theorem setJob_laneChk (j : Option Job) : (s.setJob j).laneChk = s.laneChk := rfl
@[simp] theorem setJob_cad (j : Option Job) : (s.setJob j).cad = s.cad := rfl
@[simp] theorem setJob_ports (j : Option Job) : (s.setJob j).ports = s.ports := rfl
@[simp] theorem setJob_ledger (j : Option Job) : (s.setJob j).ledger = s.ledger := rfl
@[simp] theorem setJob_chans (j : Option Job) : (s.setJob j).chans = s.chans := rfl
@[simp] theorem setJob_segs (j : Option Job) : (s.setJob j).segs = s.segs := rfl
@[simp] theorem setJob_stagger (j : Option Job) : (s.setJob j).stagger = s.stagger := rfl
@[simp] theorem setJob_faults (j : Option Job) : (s.setJob j).faults = s.faults := rfl
@[simp] theorem setJob_redec (j : Option Job) : (s.setJob j).redec = s.redec := rfl
@[simp] theorem setJob_scans (j : Option Job) : (s.setJob j).scans = s.scans := rfl
@[simp] theorem setJob_raws (j : Option Job) : (s.setJob j).raws = s.raws := rfl
@[simp] theorem setJob_lib (j : Option Job) : (s.setJob j).lib = s.lib := rfl
@[simp] theorem setJob_kept (j : Option Job) : (s.setJob j).kept = s.kept := rfl
@[simp] theorem setJob_dram (j : Option Job) : (s.setJob j).dram = s.dram := rfl
@[simp] theorem setJob_dma (j : Option Job) : (s.setJob j).dma = s.dma := rfl
@[simp] theorem setJob_crcPoly (j : Option Job) : (s.setJob j).crcPoly = s.crcPoly := rfl
@[simp] theorem setJob_rdg (j : Option Job) : (s.setJob j).rdg = s.rdg := rfl
@[simp] theorem setJob_axes (j : Option Job) : (s.setJob j).axes = s.axes := rfl
@[simp] theorem setJob_conv (j : Option Job) : (s.setJob j).conv = s.conv := rfl
@[simp] theorem setJob_refConv (j : Option Job) : (s.setJob j).refConv = s.refConv := rfl
@[simp] theorem setJob_convSlot (j : Option Job) : (s.setJob j).convSlot = s.convSlot := rfl
@[simp] theorem setJob_dlyMeas (j : Option Job) : (s.setJob j).dlyMeas = s.dlyMeas := rfl
@[simp] theorem setJob_snsFlags (j : Option Job) : (s.setJob j).snsFlags = s.snsFlags := rfl
@[simp] theorem setJob_snsCfg (j : Option Job) : (s.setJob j).snsCfg = s.snsCfg := rfl
@[simp] theorem setJob_sensePend (j : Option Job) : (s.setJob j).sensePend = s.sensePend := rfl
@[simp] theorem setJob_commitAt (j : Option Job) : (s.setJob j).commitAt = s.commitAt := rfl
@[simp] theorem setJob_slices (j : Option Job) : (s.setJob j).slices = s.slices := rfl
@[simp] theorem setJob_spareUsed (j : Option Job) : (s.setJob j).spareUsed = s.spareUsed := rfl
@[simp] theorem setJob_bistPlan (j : Option Job) : (s.setJob j).bistPlan = s.bistPlan := rfl
@[simp] theorem setJob_bistResult (j : Option Job) : (s.setJob j).bistResult = s.bistResult := rfl
@[simp] theorem setJob_bistDone (j : Option Job) : (s.setJob j).bistDone = s.bistDone := rfl
@[simp] theorem setJob_bistAt (j : Option Job) : (s.setJob j).bistAt = s.bistAt := rfl
@[simp] theorem setJob_ctxRec (j : Option Job) : (s.setJob j).ctxRec = s.ctxRec := rfl
@[simp] theorem setJob_errEvent (j : Option Job) : (s.setJob j).errEvent = s.errEvent := rfl
@[simp] theorem setJob_inject (j : Option Job) : (s.setJob j).inject = s.inject := rfl
@[simp] theorem setJob_counters (j : Option Job) : (s.setJob j).counters = s.counters := rfl
@[simp] theorem setJob_pmcCaps (j : Option Job) : (s.setJob j).pmcCaps = s.pmcCaps := rfl
@[simp] theorem setJob_lfsr (j : Option Job) : (s.setJob j).lfsr = s.lfsr := rfl
@[simp] theorem setJob_traceK (j : Option Job) : (s.setJob j).traceK = s.traceK := rfl
@[simp] theorem setJob_traces (j : Option Job) : (s.setJob j).traces = s.traces := rfl
@[simp] theorem setJob_winsel (j : Option Job) : (s.setJob j).winsel = s.winsel := rfl
@[simp] theorem setJob_fab (j : Option Job) : (s.setJob j).fab = s.fab := rfl
@[simp] theorem setJob_job (j : Option Job) : (s.setJob j).job = j := rfl

/-! setFab -/

@[simp] theorem setFab_pending (f : Fab) : (s.setFab f).pending = s.pending := rfl
@[simp] theorem setFab_now (f : Fab) : (s.setFab f).now = s.now := rfl
@[simp] theorem setFab_chain (f : Fab) : (s.setFab f).chain = s.chain := rfl
@[simp] theorem setFab_out (f : Fab) : (s.setFab f).out = s.out := rfl
@[simp] theorem setFab_freeCount (f : Fab) : (s.setFab f).freeCount = s.freeCount := rfl
@[simp] theorem setFab_regs (f : Fab) : (s.setFab f).regs = s.regs := rfl
@[simp] theorem setFab_dev (f : Fab) : (s.setFab f).dev = s.dev := rfl
@[simp] theorem setFab_job (f : Fab) : (s.setFab f).job = s.job := rfl
@[simp] theorem setFab_fw (f : Fab) : (s.setFab f).fw = s.fw := rfl
@[simp] theorem setFab_boot (f : Fab) : (s.setFab f).boot = s.boot := rfl
@[simp] theorem setFab_otp (f : Fab) : (s.setFab f).otp = s.otp := rfl
@[simp] theorem setFab_straps (f : Fab) : (s.setFab f).straps = s.straps := rfl
@[simp] theorem setFab_programs (f : Fab) : (s.setFab f).programs = s.programs := rfl
@[simp] theorem setFab_mfpIn (f : Fab) : (s.setFab f).mfpIn = s.mfpIn := rfl
@[simp] theorem setFab_tracerUntil (f : Fab) : (s.setFab f).tracerUntil = s.tracerUntil := rfl
@[simp] theorem setFab_estopUntil (f : Fab) : (s.setFab f).estopUntil = s.estopUntil := rfl
@[simp] theorem setFab_msixOn (f : Fab) : (s.setFab f).msixOn = s.msixOn := rfl
@[simp] theorem setFab_ended (f : Fab) : (s.setFab f).ended = s.ended := rfl
@[simp] theorem setFab_pcie (f : Fab) : (s.setFab f).pcie = s.pcie := rfl
@[simp] theorem setFab_mem (f : Fab) : (s.setFab f).mem = s.mem := rfl
@[simp] theorem setFab_chk (f : Fab) : (s.setFab f).chk = s.chk := rfl
@[simp] theorem setFab_flash (f : Fab) : (s.setFab f).flash = s.flash := rfl
@[simp] theorem setFab_stage (f : Fab) : (s.setFab f).stage = s.stage := rfl
@[simp] theorem setFab_hostMem (f : Fab) : (s.setFab f).hostMem = s.hostMem := rfl
@[simp] theorem setFab_capacity (f : Fab) : (s.setFab f).capacity = s.capacity := rfl
@[simp] theorem setFab_lanePll (f : Fab) : (s.setFab f).lanePll = s.lanePll := rfl
@[simp] theorem setFab_tx (f : Fab) : (s.setFab f).tx = s.tx := rfl
@[simp] theorem setFab_laneEq (f : Fab) : (s.setFab f).laneEq = s.laneEq := rfl
@[simp] theorem setFab_laneChk (f : Fab) : (s.setFab f).laneChk = s.laneChk := rfl
@[simp] theorem setFab_cad (f : Fab) : (s.setFab f).cad = s.cad := rfl
@[simp] theorem setFab_ports (f : Fab) : (s.setFab f).ports = s.ports := rfl
@[simp] theorem setFab_ledger (f : Fab) : (s.setFab f).ledger = s.ledger := rfl
@[simp] theorem setFab_chans (f : Fab) : (s.setFab f).chans = s.chans := rfl
@[simp] theorem setFab_segs (f : Fab) : (s.setFab f).segs = s.segs := rfl
@[simp] theorem setFab_stagger (f : Fab) : (s.setFab f).stagger = s.stagger := rfl
@[simp] theorem setFab_faults (f : Fab) : (s.setFab f).faults = s.faults := rfl
@[simp] theorem setFab_redec (f : Fab) : (s.setFab f).redec = s.redec := rfl
@[simp] theorem setFab_scans (f : Fab) : (s.setFab f).scans = s.scans := rfl
@[simp] theorem setFab_raws (f : Fab) : (s.setFab f).raws = s.raws := rfl
@[simp] theorem setFab_lib (f : Fab) : (s.setFab f).lib = s.lib := rfl
@[simp] theorem setFab_kept (f : Fab) : (s.setFab f).kept = s.kept := rfl
@[simp] theorem setFab_dram (f : Fab) : (s.setFab f).dram = s.dram := rfl
@[simp] theorem setFab_dma (f : Fab) : (s.setFab f).dma = s.dma := rfl
@[simp] theorem setFab_crcPoly (f : Fab) : (s.setFab f).crcPoly = s.crcPoly := rfl
@[simp] theorem setFab_rdg (f : Fab) : (s.setFab f).rdg = s.rdg := rfl
@[simp] theorem setFab_axes (f : Fab) : (s.setFab f).axes = s.axes := rfl
@[simp] theorem setFab_conv (f : Fab) : (s.setFab f).conv = s.conv := rfl
@[simp] theorem setFab_refConv (f : Fab) : (s.setFab f).refConv = s.refConv := rfl
@[simp] theorem setFab_convSlot (f : Fab) : (s.setFab f).convSlot = s.convSlot := rfl
@[simp] theorem setFab_dlyMeas (f : Fab) : (s.setFab f).dlyMeas = s.dlyMeas := rfl
@[simp] theorem setFab_snsFlags (f : Fab) : (s.setFab f).snsFlags = s.snsFlags := rfl
@[simp] theorem setFab_snsCfg (f : Fab) : (s.setFab f).snsCfg = s.snsCfg := rfl
@[simp] theorem setFab_sensePend (f : Fab) : (s.setFab f).sensePend = s.sensePend := rfl
@[simp] theorem setFab_commitAt (f : Fab) : (s.setFab f).commitAt = s.commitAt := rfl
@[simp] theorem setFab_slices (f : Fab) : (s.setFab f).slices = s.slices := rfl
@[simp] theorem setFab_spareUsed (f : Fab) : (s.setFab f).spareUsed = s.spareUsed := rfl
@[simp] theorem setFab_bistPlan (f : Fab) : (s.setFab f).bistPlan = s.bistPlan := rfl
@[simp] theorem setFab_bistResult (f : Fab) : (s.setFab f).bistResult = s.bistResult := rfl
@[simp] theorem setFab_bistDone (f : Fab) : (s.setFab f).bistDone = s.bistDone := rfl
@[simp] theorem setFab_bistAt (f : Fab) : (s.setFab f).bistAt = s.bistAt := rfl
@[simp] theorem setFab_ctxRec (f : Fab) : (s.setFab f).ctxRec = s.ctxRec := rfl
@[simp] theorem setFab_errEvent (f : Fab) : (s.setFab f).errEvent = s.errEvent := rfl
@[simp] theorem setFab_inject (f : Fab) : (s.setFab f).inject = s.inject := rfl
@[simp] theorem setFab_counters (f : Fab) : (s.setFab f).counters = s.counters := rfl
@[simp] theorem setFab_pmcCaps (f : Fab) : (s.setFab f).pmcCaps = s.pmcCaps := rfl
@[simp] theorem setFab_lfsr (f : Fab) : (s.setFab f).lfsr = s.lfsr := rfl
@[simp] theorem setFab_traceK (f : Fab) : (s.setFab f).traceK = s.traceK := rfl
@[simp] theorem setFab_traces (f : Fab) : (s.setFab f).traces = s.traces := rfl
@[simp] theorem setFab_winsel (f : Fab) : (s.setFab f).winsel = s.winsel := rfl
@[simp] theorem setFab_fab (f : Fab) : (s.setFab f).fab = f := rfl

/-! setDram -/

@[simp] theorem setDram_pending (d : Dram) : (s.setDram d).pending = s.pending := rfl
@[simp] theorem setDram_now (d : Dram) : (s.setDram d).now = s.now := rfl
@[simp] theorem setDram_chain (d : Dram) : (s.setDram d).chain = s.chain := rfl
@[simp] theorem setDram_out (d : Dram) : (s.setDram d).out = s.out := rfl
@[simp] theorem setDram_freeCount (d : Dram) : (s.setDram d).freeCount = s.freeCount := rfl
@[simp] theorem setDram_regs (d : Dram) : (s.setDram d).regs = s.regs := rfl
@[simp] theorem setDram_dev (d : Dram) : (s.setDram d).dev = s.dev := rfl
@[simp] theorem setDram_job (d : Dram) : (s.setDram d).job = s.job := rfl
@[simp] theorem setDram_fw (d : Dram) : (s.setDram d).fw = s.fw := rfl
@[simp] theorem setDram_boot (d : Dram) : (s.setDram d).boot = s.boot := rfl
@[simp] theorem setDram_otp (d : Dram) : (s.setDram d).otp = s.otp := rfl
@[simp] theorem setDram_straps (d : Dram) : (s.setDram d).straps = s.straps := rfl
@[simp] theorem setDram_programs (d : Dram) : (s.setDram d).programs = s.programs := rfl
@[simp] theorem setDram_mfpIn (d : Dram) : (s.setDram d).mfpIn = s.mfpIn := rfl
@[simp] theorem setDram_tracerUntil (d : Dram) : (s.setDram d).tracerUntil = s.tracerUntil := rfl
@[simp] theorem setDram_estopUntil (d : Dram) : (s.setDram d).estopUntil = s.estopUntil := rfl
@[simp] theorem setDram_msixOn (d : Dram) : (s.setDram d).msixOn = s.msixOn := rfl
@[simp] theorem setDram_ended (d : Dram) : (s.setDram d).ended = s.ended := rfl
@[simp] theorem setDram_pcie (d : Dram) : (s.setDram d).pcie = s.pcie := rfl
@[simp] theorem setDram_mem (d : Dram) : (s.setDram d).mem = s.mem := rfl
@[simp] theorem setDram_chk (d : Dram) : (s.setDram d).chk = s.chk := rfl
@[simp] theorem setDram_flash (d : Dram) : (s.setDram d).flash = s.flash := rfl
@[simp] theorem setDram_stage (d : Dram) : (s.setDram d).stage = s.stage := rfl
@[simp] theorem setDram_hostMem (d : Dram) : (s.setDram d).hostMem = s.hostMem := rfl
@[simp] theorem setDram_capacity (d : Dram) : (s.setDram d).capacity = s.capacity := rfl
@[simp] theorem setDram_lanePll (d : Dram) : (s.setDram d).lanePll = s.lanePll := rfl
@[simp] theorem setDram_tx (d : Dram) : (s.setDram d).tx = s.tx := rfl
@[simp] theorem setDram_laneEq (d : Dram) : (s.setDram d).laneEq = s.laneEq := rfl
@[simp] theorem setDram_laneChk (d : Dram) : (s.setDram d).laneChk = s.laneChk := rfl
@[simp] theorem setDram_cad (d : Dram) : (s.setDram d).cad = s.cad := rfl
@[simp] theorem setDram_ports (d : Dram) : (s.setDram d).ports = s.ports := rfl
@[simp] theorem setDram_ledger (d : Dram) : (s.setDram d).ledger = s.ledger := rfl
@[simp] theorem setDram_chans (d : Dram) : (s.setDram d).chans = s.chans := rfl
@[simp] theorem setDram_segs (d : Dram) : (s.setDram d).segs = s.segs := rfl
@[simp] theorem setDram_stagger (d : Dram) : (s.setDram d).stagger = s.stagger := rfl
@[simp] theorem setDram_faults (d : Dram) : (s.setDram d).faults = s.faults := rfl
@[simp] theorem setDram_redec (d : Dram) : (s.setDram d).redec = s.redec := rfl
@[simp] theorem setDram_scans (d : Dram) : (s.setDram d).scans = s.scans := rfl
@[simp] theorem setDram_raws (d : Dram) : (s.setDram d).raws = s.raws := rfl
@[simp] theorem setDram_lib (d : Dram) : (s.setDram d).lib = s.lib := rfl
@[simp] theorem setDram_kept (d : Dram) : (s.setDram d).kept = s.kept := rfl
@[simp] theorem setDram_dma (d : Dram) : (s.setDram d).dma = s.dma := rfl
@[simp] theorem setDram_crcPoly (d : Dram) : (s.setDram d).crcPoly = s.crcPoly := rfl
@[simp] theorem setDram_rdg (d : Dram) : (s.setDram d).rdg = s.rdg := rfl
@[simp] theorem setDram_axes (d : Dram) : (s.setDram d).axes = s.axes := rfl
@[simp] theorem setDram_conv (d : Dram) : (s.setDram d).conv = s.conv := rfl
@[simp] theorem setDram_refConv (d : Dram) : (s.setDram d).refConv = s.refConv := rfl
@[simp] theorem setDram_convSlot (d : Dram) : (s.setDram d).convSlot = s.convSlot := rfl
@[simp] theorem setDram_dlyMeas (d : Dram) : (s.setDram d).dlyMeas = s.dlyMeas := rfl
@[simp] theorem setDram_snsFlags (d : Dram) : (s.setDram d).snsFlags = s.snsFlags := rfl
@[simp] theorem setDram_snsCfg (d : Dram) : (s.setDram d).snsCfg = s.snsCfg := rfl
@[simp] theorem setDram_sensePend (d : Dram) : (s.setDram d).sensePend = s.sensePend := rfl
@[simp] theorem setDram_commitAt (d : Dram) : (s.setDram d).commitAt = s.commitAt := rfl
@[simp] theorem setDram_slices (d : Dram) : (s.setDram d).slices = s.slices := rfl
@[simp] theorem setDram_spareUsed (d : Dram) : (s.setDram d).spareUsed = s.spareUsed := rfl
@[simp] theorem setDram_bistPlan (d : Dram) : (s.setDram d).bistPlan = s.bistPlan := rfl
@[simp] theorem setDram_bistResult (d : Dram) : (s.setDram d).bistResult = s.bistResult := rfl
@[simp] theorem setDram_bistDone (d : Dram) : (s.setDram d).bistDone = s.bistDone := rfl
@[simp] theorem setDram_bistAt (d : Dram) : (s.setDram d).bistAt = s.bistAt := rfl
@[simp] theorem setDram_ctxRec (d : Dram) : (s.setDram d).ctxRec = s.ctxRec := rfl
@[simp] theorem setDram_errEvent (d : Dram) : (s.setDram d).errEvent = s.errEvent := rfl
@[simp] theorem setDram_inject (d : Dram) : (s.setDram d).inject = s.inject := rfl
@[simp] theorem setDram_counters (d : Dram) : (s.setDram d).counters = s.counters := rfl
@[simp] theorem setDram_pmcCaps (d : Dram) : (s.setDram d).pmcCaps = s.pmcCaps := rfl
@[simp] theorem setDram_lfsr (d : Dram) : (s.setDram d).lfsr = s.lfsr := rfl
@[simp] theorem setDram_traceK (d : Dram) : (s.setDram d).traceK = s.traceK := rfl
@[simp] theorem setDram_traces (d : Dram) : (s.setDram d).traces = s.traces := rfl
@[simp] theorem setDram_winsel (d : Dram) : (s.setDram d).winsel = s.winsel := rfl
@[simp] theorem setDram_fab (d : Dram) : (s.setDram d).fab = s.fab := rfl
@[simp] theorem setDram_dram (d : Dram) : (s.setDram d).dram = d := rfl

/-! setRdg -/

@[simp] theorem setRdg_pending (r : Rdg) : (s.setRdg r).pending = s.pending := rfl
@[simp] theorem setRdg_now (r : Rdg) : (s.setRdg r).now = s.now := rfl
@[simp] theorem setRdg_chain (r : Rdg) : (s.setRdg r).chain = s.chain := rfl
@[simp] theorem setRdg_out (r : Rdg) : (s.setRdg r).out = s.out := rfl
@[simp] theorem setRdg_freeCount (r : Rdg) : (s.setRdg r).freeCount = s.freeCount := rfl
@[simp] theorem setRdg_regs (r : Rdg) : (s.setRdg r).regs = s.regs := rfl
@[simp] theorem setRdg_dev (r : Rdg) : (s.setRdg r).dev = s.dev := rfl
@[simp] theorem setRdg_job (r : Rdg) : (s.setRdg r).job = s.job := rfl
@[simp] theorem setRdg_fw (r : Rdg) : (s.setRdg r).fw = s.fw := rfl
@[simp] theorem setRdg_boot (r : Rdg) : (s.setRdg r).boot = s.boot := rfl
@[simp] theorem setRdg_otp (r : Rdg) : (s.setRdg r).otp = s.otp := rfl
@[simp] theorem setRdg_straps (r : Rdg) : (s.setRdg r).straps = s.straps := rfl
@[simp] theorem setRdg_programs (r : Rdg) : (s.setRdg r).programs = s.programs := rfl
@[simp] theorem setRdg_mfpIn (r : Rdg) : (s.setRdg r).mfpIn = s.mfpIn := rfl
@[simp] theorem setRdg_tracerUntil (r : Rdg) : (s.setRdg r).tracerUntil = s.tracerUntil := rfl
@[simp] theorem setRdg_estopUntil (r : Rdg) : (s.setRdg r).estopUntil = s.estopUntil := rfl
@[simp] theorem setRdg_msixOn (r : Rdg) : (s.setRdg r).msixOn = s.msixOn := rfl
@[simp] theorem setRdg_ended (r : Rdg) : (s.setRdg r).ended = s.ended := rfl
@[simp] theorem setRdg_pcie (r : Rdg) : (s.setRdg r).pcie = s.pcie := rfl
@[simp] theorem setRdg_mem (r : Rdg) : (s.setRdg r).mem = s.mem := rfl
@[simp] theorem setRdg_chk (r : Rdg) : (s.setRdg r).chk = s.chk := rfl
@[simp] theorem setRdg_flash (r : Rdg) : (s.setRdg r).flash = s.flash := rfl
@[simp] theorem setRdg_stage (r : Rdg) : (s.setRdg r).stage = s.stage := rfl
@[simp] theorem setRdg_hostMem (r : Rdg) : (s.setRdg r).hostMem = s.hostMem := rfl
@[simp] theorem setRdg_capacity (r : Rdg) : (s.setRdg r).capacity = s.capacity := rfl
@[simp] theorem setRdg_lanePll (r : Rdg) : (s.setRdg r).lanePll = s.lanePll := rfl
@[simp] theorem setRdg_tx (r : Rdg) : (s.setRdg r).tx = s.tx := rfl
@[simp] theorem setRdg_laneEq (r : Rdg) : (s.setRdg r).laneEq = s.laneEq := rfl
@[simp] theorem setRdg_laneChk (r : Rdg) : (s.setRdg r).laneChk = s.laneChk := rfl
@[simp] theorem setRdg_cad (r : Rdg) : (s.setRdg r).cad = s.cad := rfl
@[simp] theorem setRdg_ports (r : Rdg) : (s.setRdg r).ports = s.ports := rfl
@[simp] theorem setRdg_ledger (r : Rdg) : (s.setRdg r).ledger = s.ledger := rfl
@[simp] theorem setRdg_chans (r : Rdg) : (s.setRdg r).chans = s.chans := rfl
@[simp] theorem setRdg_segs (r : Rdg) : (s.setRdg r).segs = s.segs := rfl
@[simp] theorem setRdg_stagger (r : Rdg) : (s.setRdg r).stagger = s.stagger := rfl
@[simp] theorem setRdg_faults (r : Rdg) : (s.setRdg r).faults = s.faults := rfl
@[simp] theorem setRdg_redec (r : Rdg) : (s.setRdg r).redec = s.redec := rfl
@[simp] theorem setRdg_scans (r : Rdg) : (s.setRdg r).scans = s.scans := rfl
@[simp] theorem setRdg_raws (r : Rdg) : (s.setRdg r).raws = s.raws := rfl
@[simp] theorem setRdg_lib (r : Rdg) : (s.setRdg r).lib = s.lib := rfl
@[simp] theorem setRdg_kept (r : Rdg) : (s.setRdg r).kept = s.kept := rfl
@[simp] theorem setRdg_dram (r : Rdg) : (s.setRdg r).dram = s.dram := rfl
@[simp] theorem setRdg_dma (r : Rdg) : (s.setRdg r).dma = s.dma := rfl
@[simp] theorem setRdg_crcPoly (r : Rdg) : (s.setRdg r).crcPoly = s.crcPoly := rfl
@[simp] theorem setRdg_axes (r : Rdg) : (s.setRdg r).axes = s.axes := rfl
@[simp] theorem setRdg_conv (r : Rdg) : (s.setRdg r).conv = s.conv := rfl
@[simp] theorem setRdg_refConv (r : Rdg) : (s.setRdg r).refConv = s.refConv := rfl
@[simp] theorem setRdg_convSlot (r : Rdg) : (s.setRdg r).convSlot = s.convSlot := rfl
@[simp] theorem setRdg_dlyMeas (r : Rdg) : (s.setRdg r).dlyMeas = s.dlyMeas := rfl
@[simp] theorem setRdg_snsFlags (r : Rdg) : (s.setRdg r).snsFlags = s.snsFlags := rfl
@[simp] theorem setRdg_snsCfg (r : Rdg) : (s.setRdg r).snsCfg = s.snsCfg := rfl
@[simp] theorem setRdg_sensePend (r : Rdg) : (s.setRdg r).sensePend = s.sensePend := rfl
@[simp] theorem setRdg_commitAt (r : Rdg) : (s.setRdg r).commitAt = s.commitAt := rfl
@[simp] theorem setRdg_slices (r : Rdg) : (s.setRdg r).slices = s.slices := rfl
@[simp] theorem setRdg_spareUsed (r : Rdg) : (s.setRdg r).spareUsed = s.spareUsed := rfl
@[simp] theorem setRdg_bistPlan (r : Rdg) : (s.setRdg r).bistPlan = s.bistPlan := rfl
@[simp] theorem setRdg_bistResult (r : Rdg) : (s.setRdg r).bistResult = s.bistResult := rfl
@[simp] theorem setRdg_bistDone (r : Rdg) : (s.setRdg r).bistDone = s.bistDone := rfl
@[simp] theorem setRdg_bistAt (r : Rdg) : (s.setRdg r).bistAt = s.bistAt := rfl
@[simp] theorem setRdg_ctxRec (r : Rdg) : (s.setRdg r).ctxRec = s.ctxRec := rfl
@[simp] theorem setRdg_errEvent (r : Rdg) : (s.setRdg r).errEvent = s.errEvent := rfl
@[simp] theorem setRdg_inject (r : Rdg) : (s.setRdg r).inject = s.inject := rfl
@[simp] theorem setRdg_counters (r : Rdg) : (s.setRdg r).counters = s.counters := rfl
@[simp] theorem setRdg_pmcCaps (r : Rdg) : (s.setRdg r).pmcCaps = s.pmcCaps := rfl
@[simp] theorem setRdg_lfsr (r : Rdg) : (s.setRdg r).lfsr = s.lfsr := rfl
@[simp] theorem setRdg_traceK (r : Rdg) : (s.setRdg r).traceK = s.traceK := rfl
@[simp] theorem setRdg_traces (r : Rdg) : (s.setRdg r).traces = s.traces := rfl
@[simp] theorem setRdg_winsel (r : Rdg) : (s.setRdg r).winsel = s.winsel := rfl
@[simp] theorem setRdg_fab (r : Rdg) : (s.setRdg r).fab = s.fab := rfl
@[simp] theorem setRdg_rdg (r : Rdg) : (s.setRdg r).rdg = r := rfl

/-! setBoot -/

@[simp] theorem setBoot_pending (b : Boot) : (s.setBoot b).pending = s.pending := rfl
@[simp] theorem setBoot_now (b : Boot) : (s.setBoot b).now = s.now := rfl
@[simp] theorem setBoot_chain (b : Boot) : (s.setBoot b).chain = s.chain := rfl
@[simp] theorem setBoot_out (b : Boot) : (s.setBoot b).out = s.out := rfl
@[simp] theorem setBoot_freeCount (b : Boot) : (s.setBoot b).freeCount = s.freeCount := rfl
@[simp] theorem setBoot_regs (b : Boot) : (s.setBoot b).regs = s.regs := rfl
@[simp] theorem setBoot_dev (b : Boot) : (s.setBoot b).dev = s.dev := rfl
@[simp] theorem setBoot_job (b : Boot) : (s.setBoot b).job = s.job := rfl
@[simp] theorem setBoot_fw (b : Boot) : (s.setBoot b).fw = s.fw := rfl
@[simp] theorem setBoot_otp (b : Boot) : (s.setBoot b).otp = s.otp := rfl
@[simp] theorem setBoot_straps (b : Boot) : (s.setBoot b).straps = s.straps := rfl
@[simp] theorem setBoot_programs (b : Boot) : (s.setBoot b).programs = s.programs := rfl
@[simp] theorem setBoot_mfpIn (b : Boot) : (s.setBoot b).mfpIn = s.mfpIn := rfl
@[simp] theorem setBoot_tracerUntil (b : Boot) : (s.setBoot b).tracerUntil = s.tracerUntil := rfl
@[simp] theorem setBoot_estopUntil (b : Boot) : (s.setBoot b).estopUntil = s.estopUntil := rfl
@[simp] theorem setBoot_msixOn (b : Boot) : (s.setBoot b).msixOn = s.msixOn := rfl
@[simp] theorem setBoot_ended (b : Boot) : (s.setBoot b).ended = s.ended := rfl
@[simp] theorem setBoot_pcie (b : Boot) : (s.setBoot b).pcie = s.pcie := rfl
@[simp] theorem setBoot_mem (b : Boot) : (s.setBoot b).mem = s.mem := rfl
@[simp] theorem setBoot_chk (b : Boot) : (s.setBoot b).chk = s.chk := rfl
@[simp] theorem setBoot_flash (b : Boot) : (s.setBoot b).flash = s.flash := rfl
@[simp] theorem setBoot_stage (b : Boot) : (s.setBoot b).stage = s.stage := rfl
@[simp] theorem setBoot_hostMem (b : Boot) : (s.setBoot b).hostMem = s.hostMem := rfl
@[simp] theorem setBoot_capacity (b : Boot) : (s.setBoot b).capacity = s.capacity := rfl
@[simp] theorem setBoot_lanePll (b : Boot) : (s.setBoot b).lanePll = s.lanePll := rfl
@[simp] theorem setBoot_tx (b : Boot) : (s.setBoot b).tx = s.tx := rfl
@[simp] theorem setBoot_laneEq (b : Boot) : (s.setBoot b).laneEq = s.laneEq := rfl
@[simp] theorem setBoot_laneChk (b : Boot) : (s.setBoot b).laneChk = s.laneChk := rfl
@[simp] theorem setBoot_cad (b : Boot) : (s.setBoot b).cad = s.cad := rfl
@[simp] theorem setBoot_ports (b : Boot) : (s.setBoot b).ports = s.ports := rfl
@[simp] theorem setBoot_ledger (b : Boot) : (s.setBoot b).ledger = s.ledger := rfl
@[simp] theorem setBoot_chans (b : Boot) : (s.setBoot b).chans = s.chans := rfl
@[simp] theorem setBoot_segs (b : Boot) : (s.setBoot b).segs = s.segs := rfl
@[simp] theorem setBoot_stagger (b : Boot) : (s.setBoot b).stagger = s.stagger := rfl
@[simp] theorem setBoot_faults (b : Boot) : (s.setBoot b).faults = s.faults := rfl
@[simp] theorem setBoot_redec (b : Boot) : (s.setBoot b).redec = s.redec := rfl
@[simp] theorem setBoot_scans (b : Boot) : (s.setBoot b).scans = s.scans := rfl
@[simp] theorem setBoot_raws (b : Boot) : (s.setBoot b).raws = s.raws := rfl
@[simp] theorem setBoot_lib (b : Boot) : (s.setBoot b).lib = s.lib := rfl
@[simp] theorem setBoot_kept (b : Boot) : (s.setBoot b).kept = s.kept := rfl
@[simp] theorem setBoot_dram (b : Boot) : (s.setBoot b).dram = s.dram := rfl
@[simp] theorem setBoot_dma (b : Boot) : (s.setBoot b).dma = s.dma := rfl
@[simp] theorem setBoot_crcPoly (b : Boot) : (s.setBoot b).crcPoly = s.crcPoly := rfl
@[simp] theorem setBoot_rdg (b : Boot) : (s.setBoot b).rdg = s.rdg := rfl
@[simp] theorem setBoot_axes (b : Boot) : (s.setBoot b).axes = s.axes := rfl
@[simp] theorem setBoot_conv (b : Boot) : (s.setBoot b).conv = s.conv := rfl
@[simp] theorem setBoot_refConv (b : Boot) : (s.setBoot b).refConv = s.refConv := rfl
@[simp] theorem setBoot_convSlot (b : Boot) : (s.setBoot b).convSlot = s.convSlot := rfl
@[simp] theorem setBoot_dlyMeas (b : Boot) : (s.setBoot b).dlyMeas = s.dlyMeas := rfl
@[simp] theorem setBoot_snsFlags (b : Boot) : (s.setBoot b).snsFlags = s.snsFlags := rfl
@[simp] theorem setBoot_snsCfg (b : Boot) : (s.setBoot b).snsCfg = s.snsCfg := rfl
@[simp] theorem setBoot_sensePend (b : Boot) : (s.setBoot b).sensePend = s.sensePend := rfl
@[simp] theorem setBoot_commitAt (b : Boot) : (s.setBoot b).commitAt = s.commitAt := rfl
@[simp] theorem setBoot_slices (b : Boot) : (s.setBoot b).slices = s.slices := rfl
@[simp] theorem setBoot_spareUsed (b : Boot) : (s.setBoot b).spareUsed = s.spareUsed := rfl
@[simp] theorem setBoot_bistPlan (b : Boot) : (s.setBoot b).bistPlan = s.bistPlan := rfl
@[simp] theorem setBoot_bistResult (b : Boot) : (s.setBoot b).bistResult = s.bistResult := rfl
@[simp] theorem setBoot_bistDone (b : Boot) : (s.setBoot b).bistDone = s.bistDone := rfl
@[simp] theorem setBoot_bistAt (b : Boot) : (s.setBoot b).bistAt = s.bistAt := rfl
@[simp] theorem setBoot_ctxRec (b : Boot) : (s.setBoot b).ctxRec = s.ctxRec := rfl
@[simp] theorem setBoot_errEvent (b : Boot) : (s.setBoot b).errEvent = s.errEvent := rfl
@[simp] theorem setBoot_inject (b : Boot) : (s.setBoot b).inject = s.inject := rfl
@[simp] theorem setBoot_counters (b : Boot) : (s.setBoot b).counters = s.counters := rfl
@[simp] theorem setBoot_pmcCaps (b : Boot) : (s.setBoot b).pmcCaps = s.pmcCaps := rfl
@[simp] theorem setBoot_lfsr (b : Boot) : (s.setBoot b).lfsr = s.lfsr := rfl
@[simp] theorem setBoot_traceK (b : Boot) : (s.setBoot b).traceK = s.traceK := rfl
@[simp] theorem setBoot_traces (b : Boot) : (s.setBoot b).traces = s.traces := rfl
@[simp] theorem setBoot_winsel (b : Boot) : (s.setBoot b).winsel = s.winsel := rfl
@[simp] theorem setBoot_fab (b : Boot) : (s.setBoot b).fab = s.fab := rfl
@[simp] theorem setBoot_boot (b : Boot) : (s.setBoot b).boot = b := rfl

/-! setLedger -/

@[simp] theorem setLedger_pending (l : Ledger) : (s.setLedger l).pending = s.pending := rfl
@[simp] theorem setLedger_now (l : Ledger) : (s.setLedger l).now = s.now := rfl
@[simp] theorem setLedger_chain (l : Ledger) : (s.setLedger l).chain = s.chain := rfl
@[simp] theorem setLedger_out (l : Ledger) : (s.setLedger l).out = s.out := rfl
@[simp] theorem setLedger_freeCount (l : Ledger) : (s.setLedger l).freeCount = s.freeCount := rfl
@[simp] theorem setLedger_regs (l : Ledger) : (s.setLedger l).regs = s.regs := rfl
@[simp] theorem setLedger_dev (l : Ledger) : (s.setLedger l).dev = s.dev := rfl
@[simp] theorem setLedger_job (l : Ledger) : (s.setLedger l).job = s.job := rfl
@[simp] theorem setLedger_fw (l : Ledger) : (s.setLedger l).fw = s.fw := rfl
@[simp] theorem setLedger_boot (l : Ledger) : (s.setLedger l).boot = s.boot := rfl
@[simp] theorem setLedger_otp (l : Ledger) : (s.setLedger l).otp = s.otp := rfl
@[simp] theorem setLedger_straps (l : Ledger) : (s.setLedger l).straps = s.straps := rfl
@[simp] theorem setLedger_programs (l : Ledger) : (s.setLedger l).programs = s.programs := rfl
@[simp] theorem setLedger_mfpIn (l : Ledger) : (s.setLedger l).mfpIn = s.mfpIn := rfl
@[simp] theorem setLedger_tracerUntil (l : Ledger) : (s.setLedger l).tracerUntil = s.tracerUntil := rfl
@[simp] theorem setLedger_estopUntil (l : Ledger) : (s.setLedger l).estopUntil = s.estopUntil := rfl
@[simp] theorem setLedger_msixOn (l : Ledger) : (s.setLedger l).msixOn = s.msixOn := rfl
@[simp] theorem setLedger_ended (l : Ledger) : (s.setLedger l).ended = s.ended := rfl
@[simp] theorem setLedger_pcie (l : Ledger) : (s.setLedger l).pcie = s.pcie := rfl
@[simp] theorem setLedger_mem (l : Ledger) : (s.setLedger l).mem = s.mem := rfl
@[simp] theorem setLedger_chk (l : Ledger) : (s.setLedger l).chk = s.chk := rfl
@[simp] theorem setLedger_flash (l : Ledger) : (s.setLedger l).flash = s.flash := rfl
@[simp] theorem setLedger_stage (l : Ledger) : (s.setLedger l).stage = s.stage := rfl
@[simp] theorem setLedger_hostMem (l : Ledger) : (s.setLedger l).hostMem = s.hostMem := rfl
@[simp] theorem setLedger_capacity (l : Ledger) : (s.setLedger l).capacity = s.capacity := rfl
@[simp] theorem setLedger_lanePll (l : Ledger) : (s.setLedger l).lanePll = s.lanePll := rfl
@[simp] theorem setLedger_tx (l : Ledger) : (s.setLedger l).tx = s.tx := rfl
@[simp] theorem setLedger_laneEq (l : Ledger) : (s.setLedger l).laneEq = s.laneEq := rfl
@[simp] theorem setLedger_laneChk (l : Ledger) : (s.setLedger l).laneChk = s.laneChk := rfl
@[simp] theorem setLedger_cad (l : Ledger) : (s.setLedger l).cad = s.cad := rfl
@[simp] theorem setLedger_ports (l : Ledger) : (s.setLedger l).ports = s.ports := rfl
@[simp] theorem setLedger_chans (l : Ledger) : (s.setLedger l).chans = s.chans := rfl
@[simp] theorem setLedger_segs (l : Ledger) : (s.setLedger l).segs = s.segs := rfl
@[simp] theorem setLedger_stagger (l : Ledger) : (s.setLedger l).stagger = s.stagger := rfl
@[simp] theorem setLedger_faults (l : Ledger) : (s.setLedger l).faults = s.faults := rfl
@[simp] theorem setLedger_redec (l : Ledger) : (s.setLedger l).redec = s.redec := rfl
@[simp] theorem setLedger_scans (l : Ledger) : (s.setLedger l).scans = s.scans := rfl
@[simp] theorem setLedger_raws (l : Ledger) : (s.setLedger l).raws = s.raws := rfl
@[simp] theorem setLedger_lib (l : Ledger) : (s.setLedger l).lib = s.lib := rfl
@[simp] theorem setLedger_kept (l : Ledger) : (s.setLedger l).kept = s.kept := rfl
@[simp] theorem setLedger_dram (l : Ledger) : (s.setLedger l).dram = s.dram := rfl
@[simp] theorem setLedger_dma (l : Ledger) : (s.setLedger l).dma = s.dma := rfl
@[simp] theorem setLedger_crcPoly (l : Ledger) : (s.setLedger l).crcPoly = s.crcPoly := rfl
@[simp] theorem setLedger_rdg (l : Ledger) : (s.setLedger l).rdg = s.rdg := rfl
@[simp] theorem setLedger_axes (l : Ledger) : (s.setLedger l).axes = s.axes := rfl
@[simp] theorem setLedger_conv (l : Ledger) : (s.setLedger l).conv = s.conv := rfl
@[simp] theorem setLedger_refConv (l : Ledger) : (s.setLedger l).refConv = s.refConv := rfl
@[simp] theorem setLedger_convSlot (l : Ledger) : (s.setLedger l).convSlot = s.convSlot := rfl
@[simp] theorem setLedger_dlyMeas (l : Ledger) : (s.setLedger l).dlyMeas = s.dlyMeas := rfl
@[simp] theorem setLedger_snsFlags (l : Ledger) : (s.setLedger l).snsFlags = s.snsFlags := rfl
@[simp] theorem setLedger_snsCfg (l : Ledger) : (s.setLedger l).snsCfg = s.snsCfg := rfl
@[simp] theorem setLedger_sensePend (l : Ledger) : (s.setLedger l).sensePend = s.sensePend := rfl
@[simp] theorem setLedger_commitAt (l : Ledger) : (s.setLedger l).commitAt = s.commitAt := rfl
@[simp] theorem setLedger_slices (l : Ledger) : (s.setLedger l).slices = s.slices := rfl
@[simp] theorem setLedger_spareUsed (l : Ledger) : (s.setLedger l).spareUsed = s.spareUsed := rfl
@[simp] theorem setLedger_bistPlan (l : Ledger) : (s.setLedger l).bistPlan = s.bistPlan := rfl
@[simp] theorem setLedger_bistResult (l : Ledger) : (s.setLedger l).bistResult = s.bistResult := rfl
@[simp] theorem setLedger_bistDone (l : Ledger) : (s.setLedger l).bistDone = s.bistDone := rfl
@[simp] theorem setLedger_bistAt (l : Ledger) : (s.setLedger l).bistAt = s.bistAt := rfl
@[simp] theorem setLedger_ctxRec (l : Ledger) : (s.setLedger l).ctxRec = s.ctxRec := rfl
@[simp] theorem setLedger_errEvent (l : Ledger) : (s.setLedger l).errEvent = s.errEvent := rfl
@[simp] theorem setLedger_inject (l : Ledger) : (s.setLedger l).inject = s.inject := rfl
@[simp] theorem setLedger_counters (l : Ledger) : (s.setLedger l).counters = s.counters := rfl
@[simp] theorem setLedger_pmcCaps (l : Ledger) : (s.setLedger l).pmcCaps = s.pmcCaps := rfl
@[simp] theorem setLedger_lfsr (l : Ledger) : (s.setLedger l).lfsr = s.lfsr := rfl
@[simp] theorem setLedger_traceK (l : Ledger) : (s.setLedger l).traceK = s.traceK := rfl
@[simp] theorem setLedger_traces (l : Ledger) : (s.setLedger l).traces = s.traces := rfl
@[simp] theorem setLedger_winsel (l : Ledger) : (s.setLedger l).winsel = s.winsel := rfl
@[simp] theorem setLedger_fab (l : Ledger) : (s.setLedger l).fab = s.fab := rfl
@[simp] theorem setLedger_ledger (l : Ledger) : (s.setLedger l).ledger = l := rfl

end Sys2Proof.Machine
end

