-- ==== Sys2Proof/Laws/Store.lean ====
section
/-!
SUPPORT. The register store: registers and fields read after a write; what the end of a command leaves and shows.
-/
namespace Sys2Proof.Machine

@[simp] theorem reg_setReg_same (s : State) (r : RegId) (v : Word) : (s.setReg r v).reg r = v := by
  simp [State.reg, State.setReg]

theorem reg_setReg_ne (s : State) {r r' : RegId} (v : Word) (h : r ≠ r') : (s.setReg r v).reg r' = s.reg r' := by
  have hreset : mapGet (regReset r') (mapSet RegId.lt (regReset r) s.regs r v) r' = mapGet (regReset r') s.regs r' := by
    unfold mapSet
    split
    · exact mapGet_filter_ne _ _ h
    · rw [mapGet_insert_ne _ _ _ _ h, mapGet_filter_ne _ _ h]
  exact hreset

/-- A register as a function of another state with the same register store. -/
theorem reg_of_regs {s s' : State} (h : s'.regs = s.regs) (r : RegId) : s'.reg r = s.reg r := by simp [State.reg, h]

/-- A field of a word that has just been set there. -/
theorem fieldOf_fieldSet_same (x : Word) (lo w v : Nat) (h : lo + w ≤ 32) : fieldOf (fieldSet x lo w v) lo w = v % 2 ^ w := by
  have hx : x.toNat < 2 ^ 32 := x.isLt
  have hw : 0 < 2 ^ w := Nat.two_pow_pos w
  have hl : 0 < 2 ^ lo := Nat.two_pow_pos lo
  have hpow : (2 : Nat) ^ 32 = 2 ^ lo * (2 ^ w * 2 ^ (32 - lo - w)) := by rw [← Nat.pow_add, ← Nat.pow_add]; congr 1; omega
  have hc : 0 < 2 ^ (32 - lo - w) := Nat.two_pow_pos _
  unfold fieldOf fieldSet fieldOf
  generalize x.toNat = n at hx ⊢
  generalize hA : (2 : Nat) ^ lo = A at *
  generalize hB : (2 : Nat) ^ w = B at *
  generalize hC : (2 : Nat) ^ (32 - lo - w) = C at *
  have h1 : n = A * (n / A) + n % A := (Nat.div_add_mod n A).symm
  have h2 : n / A = B * (n / A / B) + n / A % B := (Nat.div_add_mod _ B).symm
  have h3 : n % A < A := Nat.mod_lt _ hl
  generalize hq : n / A / B = q at *
  generalize hm : n / A % B = m at *
  generalize hr : n % A = r at *
  have hv : v % B < B := Nat.mod_lt _ hw
  generalize v % B = u at *
  have hn : n - m * A = A * (B * q) + r := by
    rw [h1, h2, Nat.mul_add, Nat.mul_comm A m]; omega
  have hqC : q < C := by
    by_contra hge
    have : C ≤ q := by omega
    have : A * (B * C) ≤ A * (B * q) := Nat.mul_le_mul_left _ (Nat.mul_le_mul_left _ this)
    have : A * (B * q) ≤ n := by rw [h1, h2, Nat.mul_add]; omega
    omega
  have hsum : n - m * A + u * A = A * (B * q + u) + r := by rw [hn, Nat.mul_add, Nat.mul_comm u A]; omega
  have hlt : A * (B * q + u) + r < 2 ^ 32 := by
    have : B * q + u < B * C := by
      calc B * q + u < B * q + B := by omega
        _ = B * (q + 1) := by ring
        _ ≤ B * C := Nat.mul_le_mul_left _ hqC
    have : A * (B * q + u) + r < A * (B * C) := by
      calc A * (B * q + u) + r < A * (B * q + u) + A := by omega
        _ = A * (B * q + u + 1) := by ring
        _ ≤ A * (B * C) := Nat.mul_le_mul_left _ this
    omega
  rw [hsum, BitVec.toNat_ofNat, Nat.mod_eq_of_lt hlt]
  have hd : (A * (B * q + u) + r) / A = B * q + u := by
    rw [Nat.mul_add_div hl, Nat.div_eq_of_lt h3, Nat.add_zero]
  rw [hd, Nat.mul_add_mod, Nat.mod_eq_of_lt hv]

/-- A field read after the same field of the same register was put. -/
theorem get_put_same (s : State) (f : Fld) (v i j : Nat) (h : f.lo + f.w ≤ 32) : (s.put f v i j).get f i j = v % 2 ^ f.w := by
  simp [State.get, State.put, fieldOf_fieldSet_same _ _ _ _ h]

/-- A field of another register. -/
theorem get_put_reg_ne (s : State) (f g : Fld) (v i j i' j' : Nat) (h : (⟨f.k, i, j⟩ : RegId) ≠ ⟨g.k, i', j'⟩) :
    (s.put f v i j).get g i' j' = s.get g i' j' := by
  simp [State.get, State.put, reg_setReg_ne _ _ h]

end Sys2Proof.Machine
end

