-- ==== Sys2Proof/Laws/Concluding.lean ====
section
/-!
SUPPORT. What every command ends with: the queue and the time are no effect of a command, its state is shown, and no strobe is high
without head power. `exec_concludes` says once what any command can answer.
-/
namespace Sys2Proof.Machine

@[simp] theorem conclude_pending (s0 s : State) : (conclude s0 s).pending = s0.pending := rfl
@[simp] theorem conclude_now (s0 s : State) : (conclude s0 s).now = s0.now := rfl

theorem gate_dev (s : State) : (gateStrobes s).dev = s.dev := rfl
theorem gate_job (s : State) : (gateStrobes s).job = s.job := rfl
theorem gate_mem (s : State) : (gateStrobes s).mem = s.mem := rfl
theorem gate_chk (s : State) : (gateStrobes s).chk = s.chk := rfl
theorem gate_flash (s : State) : (gateStrobes s).flash = s.flash := rfl
theorem gate_stage (s : State) : (gateStrobes s).stage = s.stage := rfl
theorem gate_hostMem (s : State) : (gateStrobes s).hostMem = s.hostMem := rfl
theorem gate_out (s : State) : (gateStrobes s).out = s.out := rfl
theorem gate_fw (s : State) : (gateStrobes s).fw = s.fw := rfl
theorem gate_boot (s : State) : (gateStrobes s).boot = s.boot := rfl
theorem gate_cad (s : State) : (gateStrobes s).cad = s.cad := rfl
theorem gate_chans (s : State) : (gateStrobes s).chans = s.chans := rfl
theorem gate_segs (s : State) : (gateStrobes s).segs = s.segs := rfl
theorem gate_ledger (s : State) : (gateStrobes s).ledger = s.ledger := rfl
theorem gate_fab (s : State) : (gateStrobes s).fab = s.fab := rfl
theorem gate_axes (s : State) : (gateStrobes s).axes = s.axes := rfl
theorem gate_dram (s : State) : (gateStrobes s).dram = s.dram := rfl
theorem gate_dma (s : State) : (gateStrobes s).dma = s.dma := rfl
theorem gate_inject (s : State) : (gateStrobes s).inject = s.inject := rfl
theorem gate_counters (s : State) : (gateStrobes s).counters = s.counters := rfl
theorem pump_dev (s : State) : (pumpPorts s).dev = s.dev := rfl
theorem pump_job (s : State) : (pumpPorts s).job = s.job := rfl
theorem pump_mem (s : State) : (pumpPorts s).mem = s.mem := rfl
theorem pump_chk (s : State) : (pumpPorts s).chk = s.chk := rfl
theorem pump_flash (s : State) : (pumpPorts s).flash = s.flash := rfl
theorem pump_stage (s : State) : (pumpPorts s).stage = s.stage := rfl
theorem pump_hostMem (s : State) : (pumpPorts s).hostMem = s.hostMem := rfl
theorem pump_fw (s : State) : (pumpPorts s).fw = s.fw := rfl
theorem pump_boot (s : State) : (pumpPorts s).boot = s.boot := rfl
theorem pump_cad (s : State) : (pumpPorts s).cad = s.cad := rfl
theorem pump_chans (s : State) : (pumpPorts s).chans = s.chans := rfl
theorem pump_segs (s : State) : (pumpPorts s).segs = s.segs := rfl
theorem pump_ledger (s : State) : (pumpPorts s).ledger = s.ledger := rfl
theorem pump_fab (s : State) : (pumpPorts s).fab = s.fab := rfl
theorem pump_axes (s : State) : (pumpPorts s).axes = s.axes := rfl
theorem pump_dram (s : State) : (pumpPorts s).dram = s.dram := rfl
theorem pump_dma (s : State) : (pumpPorts s).dma = s.dma := rfl
theorem pump_inject (s : State) : (pumpPorts s).inject = s.inject := rfl
theorem pump_counters (s : State) : (pumpPorts s).counters = s.counters := rfl
/-- With no packet waiting the ports send nothing. -/
theorem pump_none (s : State) (h : s.tx.queue = []) : pumpPorts s = s := by
  simp [pumpPorts, State.transmit, h, State.pumpPort, List.range, List.range.loop]
theorem show_dev (s : State) : (showState s).dev = s.dev := by rw [showState, put_dev, put_dev]
theorem show_job (s : State) : (showState s).job = s.job := by rw [showState, put_job, put_job]
theorem show_mem (s : State) : (showState s).mem = s.mem := by rw [showState, put_mem, put_mem]
theorem show_chk (s : State) : (showState s).chk = s.chk := by rw [showState, put_chk, put_chk]
theorem show_flash (s : State) : (showState s).flash = s.flash := by rw [showState, put_flash, put_flash]
theorem show_stage (s : State) : (showState s).stage = s.stage := by rw [showState, put_stage, put_stage]
theorem show_hostMem (s : State) : (showState s).hostMem = s.hostMem := by rw [showState, put_hostMem, put_hostMem]
theorem show_out (s : State) : (showState s).out = s.out := by rw [showState, put_out, put_out]
theorem show_fw (s : State) : (showState s).fw = s.fw := by rw [showState, put_fw, put_fw]
theorem show_boot (s : State) : (showState s).boot = s.boot := by rw [showState, put_boot, put_boot]
theorem show_cad (s : State) : (showState s).cad = s.cad := by rw [showState, put_cad, put_cad]
theorem show_chans (s : State) : (showState s).chans = s.chans := by rw [showState, put_chans, put_chans]
theorem show_segs (s : State) : (showState s).segs = s.segs := by rw [showState, put_segs, put_segs]
theorem show_ledger (s : State) : (showState s).ledger = s.ledger := by rw [showState, put_ledger, put_ledger]
theorem show_fab (s : State) : (showState s).fab = s.fab := by rw [showState, put_fab, put_fab]
theorem show_axes (s : State) : (showState s).axes = s.axes := by rw [showState, put_axes, put_axes]
theorem show_dram (s : State) : (showState s).dram = s.dram := by rw [showState, put_dram, put_dram]
theorem show_dma (s : State) : (showState s).dma = s.dma := by rw [showState, put_dma, put_dma]
theorem show_inject (s : State) : (showState s).inject = s.inject := by rw [showState, put_inject, put_inject]
theorem show_counters (s : State) : (showState s).counters = s.counters := by rw [showState, put_counters, put_counters]
theorem end_dev (p : List Instr) (n : Nat) (o : List Output) (g : State) : ({ g with pending := p, now := n, out := o } : State).dev = g.dev := rfl
theorem end_job (p : List Instr) (n : Nat) (o : List Output) (g : State) : ({ g with pending := p, now := n, out := o } : State).job = g.job := rfl
theorem end_mem (p : List Instr) (n : Nat) (o : List Output) (g : State) : ({ g with pending := p, now := n, out := o } : State).mem = g.mem := rfl
theorem end_chk (p : List Instr) (n : Nat) (o : List Output) (g : State) : ({ g with pending := p, now := n, out := o } : State).chk = g.chk := rfl
theorem end_flash (p : List Instr) (n : Nat) (o : List Output) (g : State) : ({ g with pending := p, now := n, out := o } : State).flash = g.flash := rfl
theorem end_stage (p : List Instr) (n : Nat) (o : List Output) (g : State) : ({ g with pending := p, now := n, out := o } : State).stage = g.stage := rfl
theorem end_hostMem (p : List Instr) (n : Nat) (o : List Output) (g : State) : ({ g with pending := p, now := n, out := o } : State).hostMem = g.hostMem := rfl
theorem end_fw (p : List Instr) (n : Nat) (o : List Output) (g : State) : ({ g with pending := p, now := n, out := o } : State).fw = g.fw := rfl
theorem end_boot (p : List Instr) (n : Nat) (o : List Output) (g : State) : ({ g with pending := p, now := n, out := o } : State).boot = g.boot := rfl
theorem end_cad (p : List Instr) (n : Nat) (o : List Output) (g : State) : ({ g with pending := p, now := n, out := o } : State).cad = g.cad := rfl
theorem end_chans (p : List Instr) (n : Nat) (o : List Output) (g : State) : ({ g with pending := p, now := n, out := o } : State).chans = g.chans := rfl
theorem end_segs (p : List Instr) (n : Nat) (o : List Output) (g : State) : ({ g with pending := p, now := n, out := o } : State).segs = g.segs := rfl
theorem end_ledger (p : List Instr) (n : Nat) (o : List Output) (g : State) : ({ g with pending := p, now := n, out := o } : State).ledger = g.ledger := rfl
theorem end_fab (p : List Instr) (n : Nat) (o : List Output) (g : State) : ({ g with pending := p, now := n, out := o } : State).fab = g.fab := rfl
theorem end_axes (p : List Instr) (n : Nat) (o : List Output) (g : State) : ({ g with pending := p, now := n, out := o } : State).axes = g.axes := rfl
theorem end_dram (p : List Instr) (n : Nat) (o : List Output) (g : State) : ({ g with pending := p, now := n, out := o } : State).dram = g.dram := rfl
theorem end_dma (p : List Instr) (n : Nat) (o : List Output) (g : State) : ({ g with pending := p, now := n, out := o } : State).dma = g.dma := rfl
theorem end_inject (p : List Instr) (n : Nat) (o : List Output) (g : State) : ({ g with pending := p, now := n, out := o } : State).inject = g.inject := rfl
theorem end_counters (p : List Instr) (n : Nat) (o : List Output) (g : State) : ({ g with pending := p, now := n, out := o } : State).counters = g.counters := rfl
@[simp] theorem conclude_dev (s0 s : State) : (conclude s0 s).dev = s.dev := by
  unfold conclude; rw [end_dev, gate_dev, show_dev, pump_dev]
@[simp] theorem conclude_job (s0 s : State) : (conclude s0 s).job = s.job := by
  unfold conclude; rw [end_job, gate_job, show_job, pump_job]
@[simp] theorem conclude_mem (s0 s : State) : (conclude s0 s).mem = s.mem := by
  unfold conclude; rw [end_mem, gate_mem, show_mem, pump_mem]
@[simp] theorem conclude_chk (s0 s : State) : (conclude s0 s).chk = s.chk := by
  unfold conclude; rw [end_chk, gate_chk, show_chk, pump_chk]
@[simp] theorem conclude_flash (s0 s : State) : (conclude s0 s).flash = s.flash := by
  unfold conclude; rw [end_flash, gate_flash, show_flash, pump_flash]
@[simp] theorem conclude_stage (s0 s : State) : (conclude s0 s).stage = s.stage := by
  unfold conclude; rw [end_stage, gate_stage, show_stage, pump_stage]
@[simp] theorem conclude_hostMem (s0 s : State) : (conclude s0 s).hostMem = s.hostMem := by
  unfold conclude; rw [end_hostMem, gate_hostMem, show_hostMem, pump_hostMem]
/-- What a command sends: its own outputs, then the packets that can go. -/
@[simp] theorem conclude_out (s0 s : State) : (conclude s0 s).out = (pumpPorts s).out := by
  show (gateStrobes (showState (pumpPorts s))).out = _
  rw [gate_out, show_out]
@[simp] theorem conclude_fw (s0 s : State) : (conclude s0 s).fw = s.fw := by
  unfold conclude; rw [end_fw, gate_fw, show_fw, pump_fw]
@[simp] theorem conclude_boot (s0 s : State) : (conclude s0 s).boot = s.boot := by
  unfold conclude; rw [end_boot, gate_boot, show_boot, pump_boot]
@[simp] theorem conclude_cad (s0 s : State) : (conclude s0 s).cad = s.cad := by
  unfold conclude; rw [end_cad, gate_cad, show_cad, pump_cad]
@[simp] theorem conclude_chans (s0 s : State) : (conclude s0 s).chans = s.chans := by
  unfold conclude; rw [end_chans, gate_chans, show_chans, pump_chans]
@[simp] theorem conclude_segs (s0 s : State) : (conclude s0 s).segs = s.segs := by
  unfold conclude; rw [end_segs, gate_segs, show_segs, pump_segs]
@[simp] theorem conclude_ledger (s0 s : State) : (conclude s0 s).ledger = s.ledger := by
  unfold conclude; rw [end_ledger, gate_ledger, show_ledger, pump_ledger]
@[simp] theorem conclude_fab (s0 s : State) : (conclude s0 s).fab = s.fab := by
  unfold conclude; rw [end_fab, gate_fab, show_fab, pump_fab]
@[simp] theorem conclude_axes (s0 s : State) : (conclude s0 s).axes = s.axes := by
  unfold conclude; rw [end_axes, gate_axes, show_axes, pump_axes]
@[simp] theorem conclude_dram (s0 s : State) : (conclude s0 s).dram = s.dram := by
  unfold conclude; rw [end_dram, gate_dram, show_dram, pump_dram]
@[simp] theorem conclude_dma (s0 s : State) : (conclude s0 s).dma = s.dma := by
  unfold conclude; rw [end_dma, gate_dma, show_dma, pump_dma]
@[simp] theorem conclude_inject (s0 s : State) : (conclude s0 s).inject = s.inject := by
  unfold conclude; rw [end_inject, gate_inject, show_inject, pump_inject]
@[simp] theorem conclude_counters (s0 s : State) : (conclude s0 s).counters = s.counters := by
  unfold conclude; rw [end_counters, gate_counters, show_counters, pump_counters]

@[simp] theorem atTime_pending (t : Nat) (s : State) : (atTime t s).pending = s.pending := rfl
@[simp] theorem atTime_now (t : Nat) (s : State) : (atTime t s).now = max s.now t := rfl
@[simp] theorem atTime_regs (t : Nat) (s : State) : (atTime t s).regs = s.regs := rfl
@[simp] theorem atTime_out (t : Nat) (s : State) : (atTime t s).out = [] := rfl
@[simp] theorem atTime_dev (t : Nat) (s : State) : (atTime t s).dev = s.dev := rfl
@[simp] theorem atTime_job (t : Nat) (s : State) : (atTime t s).job = s.job := rfl
@[simp] theorem atTime_fw (t : Nat) (s : State) : (atTime t s).fw = s.fw := rfl
@[simp] theorem atTime_boot (t : Nat) (s : State) : (atTime t s).boot = s.boot := rfl
@[simp] theorem atTime_mem (t : Nat) (s : State) : (atTime t s).mem = s.mem := rfl
@[simp] theorem atTime_chk (t : Nat) (s : State) : (atTime t s).chk = s.chk := rfl
@[simp] theorem atTime_ports (t : Nat) (s : State) : (atTime t s).ports = s.ports := rfl
@[simp] theorem atTime_inject (t : Nat) (s : State) : (atTime t s).inject = s.inject := rfl
@[simp] theorem atTime_reg (t : Nat) (s : State) (r : RegId) : (atTime t s).reg r = s.reg r := rfl
@[simp] theorem atTime_get (t : Nat) (s : State) (f : Fld) (i j : Nat) : (atTime t s).get f i j = s.get f i j := rfl
@[simp] theorem atTime_flag (t : Nat) (s : State) (f : Fld) (i j : Nat) : (atTime t s).flag f i j = s.flag f i j := rfl

/-- The end of a command changes no register but `GLB_DEVSTATE`. -/
theorem conclude_reg (s0 s : State) (r : RegId) (h : r ≠ ⟨.glbDevstate, 0, 0⟩) : (conclude s0 s).reg r = s.reg r := by
  have : (conclude s0 s).reg r = (showState s).reg r := rfl
  rw [this]
  simp [showState, State.put, reg_setReg_ne _ _ (Ne.symm h)]

theorem fieldOf_low_of_high (x : Word) (n : Nat) : fieldOf (fieldSet x 16 16 n) 0 3 = fieldOf x 0 3 := by
  have := x.isLt
  simp only [fieldOf, fieldSet, BitVec.toNat_ofNat]
  omega

theorem state_shown (x : Word) (c n : Nat) (h : c < 8) : fieldOf (fieldSet (fieldSet x 0 3 c) 16 16 n) 0 3 = c := by
  rw [fieldOf_low_of_high, fieldOf_fieldSet_same x 0 3 c (by omega)]
  exact Nat.mod_eq_of_lt h

/-- The device state and the job's ID are shown at the end of every command (R98). -/
theorem conclude_shownRight (s0 s : State) : (conclude s0 s).get R.glbDevstate_STATE = s.dev.code ∧
    (conclude s0 s).get R.glbDevstate_JOB = (match s.job with | some j => j.id.toNat % 65536 | none => 0) := by
  have hr : ∀ f : Fld, (conclude s0 s).get f = (showState s).get f := fun _ => rfl
  rw [hr, hr]
  constructor
  · have hk : s.dev.code < 8 := by cases s.dev <;> decide
    simp only [State.get, showState, State.put, reg_setReg_same]
    exact state_shown _ _ _ hk
  · show (((s.put R.glbDevstate_STATE s.dev.code).put R.glbDevstate_JOB _).get R.glbDevstate_JOB) = _
    rw [get_put_same _ _ _ _ _ (by decide)]
    show _ % 65536 = _
    cases s.job <;> simp

/-- A port's record after the gate. -/
theorem mapGet_gate (f : Nat → Bool) (m : List (Nat × HeadPort)) (p : Nat) :
    (mapGet {} (m.map fun e => if f e.1 then e else (e.1, { e.2 with strobes := e.2.strobes.map fun x => (x.1, { x.2 with high := false }) })) p : HeadPort)
      = if f p then mapGet {} m p else { mapGet {} m p with strobes := (mapGet ({} : HeadPort) m p).strobes.map fun x => (x.1, { x.2 with high := false }) } := by
  induction m with
  | nil => by_cases h : f p <;> simp [mapGet, h]
  | cons e m ih =>
    by_cases he : e.1 = p
    · subst he
      by_cases h : f e.1 <;> simp [mapGet, h]
    · by_cases h : f e.1 <;> simp [mapGet, h, he, ih]

/-- A strobe read from a list in which every strobe is low. -/
theorem strobe_low (l : List (Nat × Strobe)) (k : Nat) : (mapGet ({} : Strobe) (l.map fun x => (x.1, { x.2 with high := false })) k).high = false := by
  induction l with
  | nil => rfl
  | cons e l ih => by_cases h : e.1 = k <;> simp [mapGet, h, ih]

/-- At the end of every command a port without head power has no strobe high (R255, R377). -/
theorem conclude_gated (s0 s : State) (p k : Nat) (h : hpen (conclude s0 s) p = false) : ((conclude s0 s).strobe p k).high = false := by
  have hp : hpen (conclude s0 s) p = hpen (showState s) p := rfl
  have hg := mapGet_gate (hpen (showState s)) (showState s).ports p
  rw [if_neg (by rw [← hp, h]; simp)] at hg
  have : ((conclude s0 s).strobe p k) = mapGet {} (mapGet ({} : HeadPort) ((showState s).ports.map fun e => if hpen (showState s) e.1 then e else (e.1, { e.2 with strobes := e.2.strobes.map fun x => (x.1, { x.2 with high := false }) })) p).strobes k := rfl
  rw [this, hg]
  exact strobe_low _ _

/-! What a command can answer. -/

/-- A next state is the end of a command that began in `s`. -/
def Concludes (s : State) (r : Result) : Prop := ∀ s', r = .next s' → ∃ t s1, s' = conclude (atTime t s) s1

theorem concludes_next (t : Nat) (s s1 : State) : Concludes s (.next (conclude (atTime t s) s1)) :=
  fun s' h => ⟨t, s1, by injection h with h; exact h.symm⟩

theorem concludes_fault (s : State) (x : Fault) : Concludes s (.fault x) := fun s' h => by cases h

theorem live_concludes (t : Nat) (s : State) (f : State → State) : Concludes s (live t s f) := concludes_next _ _ _
theorem always_concludes (t : Nat) (s : State) (f : State → State) : Concludes s (always t s f) := concludes_next _ _ _
theorem command_concludes (t : Nat) (c : Cmd) (s : State) (f : Cmd → State → State) : Concludes s (command t c s f) := concludes_next _ _ _
theorem completion_concludes (t op : Nat) (q : Queue) (s : State) (f : OpenCmd → State → State) : Concludes s (completion t op q s f) := concludes_next _ _ _
theorem liveWrite_concludes (m : Master) (t : Nat) (s : State) (f : State → State) : Concludes s (liveWrite m t s f) := concludes_next _ _ _
theorem liveRead_concludes (m : Master) (t : Nat) (s : State) (f : State → State) : Concludes s (liveRead m t s f) := concludes_next _ _ _
theorem liveReading_concludes (l : List Nat) (t : Nat) (s : State) (f : State → State) : Concludes s (liveReading l t s f) := concludes_next _ _ _
theorem packetRow_concludes (t q : Nat) (s : State) (p : Pkt) (f : State → State) : Concludes s (packetRow t q s p f) := concludes_next _ _ _

/-! Arm by arm, by the wrapper of each meaning. -/

/-- Every next state of every command is the end of a command: nothing escapes `conclude`. -/
theorem exec_concludes (i : Instr) (s : State) : Concludes s (exec i s) := by
  cases i
  case identify t c => show Concludes s (execIdentify t c s); unfold execIdentify; exact command_concludes _ _ _ _
  case getState t c => show Concludes s (execGetState t c s); unfold execGetState; exact command_concludes _ _ _ _
  case sysReset t c => show Concludes s (execSysReset t c s); unfold execSysReset; exact command_concludes _ _ _ _
  case logRead t c => show Concludes s (execLogRead t c s); unfold execLogRead; exact command_concludes _ _ _ _
  case unlock t c => show Concludes s (execUnlock t c s); unfold execUnlock; exact command_concludes _ _ _ _
  case lifecycle t c => show Concludes s (execLifecycle t c s); unfold execLifecycle; exact command_concludes _ _ _ _
  case eventMask t c => show Concludes s (execEventMask t c s); unfold execEventMask; exact command_concludes _ _ _ _
  case imgWrite t c => show Concludes s (execImgWrite t c s); unfold execImgWrite; exact command_concludes _ _ _ _
  case imgWriteDone t q => show Concludes s (execImgWriteDone t q s); unfold execImgWriteDone; exact completion_concludes _ _ _ _ _
  case imgInfo t c => show Concludes s (execImgInfo t c s); unfold execImgInfo; exact command_concludes _ _ _ _
  case bundleApply t c => show Concludes s (execBundleApply t c s); unfold execBundleApply; exact command_concludes _ _ _ _
  case bundleApplyDone t q => show Concludes s (execBundleApplyDone t q s); unfold execBundleApplyDone; exact completion_concludes _ _ _ _ _
  case chGeometry t c => show Concludes s (execChGeometry t c s); unfold execChGeometry; exact command_concludes _ _ _ _
  case chSegment t c => show Concludes s (execChSegment t c s); unfold execChSegment; exact command_concludes _ _ _ _
  case tblLoad t c => show Concludes s (execTblLoad t c s); unfold execTblLoad; exact command_concludes _ _ _ _
  case tblLoadDone t q => show Concludes s (execTblLoadDone t q s); unfold execTblLoadDone; exact completion_concludes _ _ _ _ _
  case tblCommit t c => show Concludes s (execTblCommit t c s); unfold execTblCommit; exact command_concludes _ _ _ _
  case tblCommitEffect t ch => show Concludes s (execTblCommitEffect t ch s); unfold execTblCommitEffect; exact live_concludes _ _ _
  case copyForwardDone t ch => show Concludes s (execCopyForwardDone t ch s); unfold execCopyForwardDone; exact live_concludes _ _ _
  case tblRead t c => show Concludes s (execTblRead t c s); unfold execTblRead; exact command_concludes _ _ _ _
  case tblReadDone t q => show Concludes s (execTblReadDone t q s); unfold execTblReadDone; exact completion_concludes _ _ _ _ _
  case jetStatus t c => show Concludes s (execJetStatus t c s); unfold execJetStatus; exact command_concludes _ _ _ _
  case jobDefine t c => show Concludes s (execJobDefine t c s); unfold execJobDefine; exact command_concludes _ _ _ _
  case jobPost t c => show Concludes s (execJobPost t c s); unfold execJobPost; exact command_concludes _ _ _ _
  case jobArm t c => show Concludes s (execJobArm t c s); unfold execJobArm; exact command_concludes _ _ _ _
  case jobArmDone t q => show Concludes s (execJobArmDone t q s); unfold execJobArmDone; exact completion_concludes _ _ _ _ _
  case jobStart t c => show Concludes s (execJobStart t c s); unfold execJobStart; exact command_concludes _ _ _ _
  case jobPause t c => show Concludes s (execJobPause t c s); unfold execJobPause; exact command_concludes _ _ _ _
  case jobResume t c => show Concludes s (execJobResume t c s); unfold execJobResume; exact command_concludes _ _ _ _
  case jobAbort t c => show Concludes s (execJobAbort t c s); unfold execJobAbort; exact command_concludes _ _ _ _
  case jobDisarm t c => show Concludes s (execJobDisarm t c s); unfold execJobDisarm; exact command_concludes _ _ _ _
  case runway t c => show Concludes s (execRunway t c s); unfold execRunway; exact command_concludes _ _ _ _
  case libStore t c => show Concludes s (execLibStore t c s); unfold execLibStore; exact command_concludes _ _ _ _
  case libStoreDone t q => show Concludes s (execLibStoreDone t q s); unfold execLibStoreDone; exact completion_concludes _ _ _ _ _
  case jobRestore t c => show Concludes s (execJobRestore t c s); unfold execJobRestore; exact command_concludes _ _ _ _
  case jobRestoreDone t q => show Concludes s (execJobRestoreDone t q s); unfold execJobRestoreDone; exact completion_concludes _ _ _ _ _
  case cadConfig t c => show Concludes s (execCadConfig t c s); unfold execCadConfig; exact command_concludes _ _ _ _
  case cadSpeed t c => show Concludes s (execCadSpeed t c s); unfold execCadSpeed; exact command_concludes _ _ _ _
  case cadMark t c => show Concludes s (execCadMark t c s); unfold execCadMark; exact command_concludes _ _ _ _
  case cadStatus t c => show Concludes s (execCadStatus t c s); unfold execCadStatus; exact command_concludes _ _ _ _
  case hpConfig t c => show Concludes s (execHpConfig t c s); unfold execHpConfig; exact command_concludes _ _ _ _
  case hpRowgroup t c => show Concludes s (execHpRowgroup t c s); unfold execHpRowgroup; exact command_concludes _ _ _ _
  case hpStrobe t c => show Concludes s (execHpStrobe t c s); unfold execHpStrobe; exact command_concludes _ _ _ _
  case hpTemptable t c => show Concludes s (execHpTemptable t c s); unfold execHpTemptable; exact command_concludes _ _ _ _
  case hpTemptableDone t q => show Concludes s (execHpTemptableDone t q s); unfold execHpTemptableDone; exact completion_concludes _ _ _ _ _
  case hpLink t c => show Concludes s (execHpLink t c s); unfold execHpLink; exact command_concludes _ _ _ _
  case hpLinkDone t q => show Concludes s (execHpLinkDone t q s); unfold execHpLinkDone; exact completion_concludes _ _ _ _ _
  case ledgerConfig t c => show Concludes s (execLedgerConfig t c s); unfold execLedgerConfig; exact command_concludes _ _ _ _
  case ledgerAdvance t c => show Concludes s (execLedgerAdvance t c s); unfold execLedgerAdvance; exact command_concludes _ _ _ _
  case chainDiscover t c => show Concludes s (execChainDiscover t c s); unfold execChainDiscover; exact command_concludes _ _ _ _
  case chainDiscoverDone t q => show Concludes s (execChainDiscoverDone t q s); unfold execChainDiscoverDone; exact completion_concludes _ _ _ _ _
  case chainStatus t c => show Concludes s (execChainStatus t c s); unfold execChainStatus; exact command_concludes _ _ _ _
  case chainForward t c => show Concludes s (execChainForward t c s); unfold execChainForward; exact command_concludes _ _ _ _
  case chainForwardDone t q => show Concludes s (execChainForwardDone t q s); unfold execChainForwardDone; exact completion_concludes _ _ _ _ _
  case chainCadence t c => show Concludes s (execChainCadence t c s); unfold execChainCadence; exact command_concludes _ _ _ _
  case chainEdge t c => show Concludes s (execChainEdge t c s); unfold execChainEdge; exact command_concludes _ _ _ _
  case calSave t c => show Concludes s (execCalSave t c s); unfold execCalSave; exact command_concludes _ _ _ _
  case calSaveDone t q => show Concludes s (execCalSaveDone t q s); unfold execCalSaveDone; exact completion_concludes _ _ _ _ _
  case calRestore t c => show Concludes s (execCalRestore t c s); unfold execCalRestore; exact command_concludes _ _ _ _
  case calRestoreDone t q => show Concludes s (execCalRestoreDone t q s); unfold execCalRestoreDone; exact completion_concludes _ _ _ _ _
  case calRun t c => show Concludes s (execCalRun t c s); unfold execCalRun; exact command_concludes _ _ _ _
  case calRunDone t q gains offsets taps => show Concludes s (execCalRunDone t q gains offsets taps s); unfold execCalRunDone; exact completion_concludes _ _ _ _ _
  case motConfig t c => show Concludes s (execMotConfig t c s); unfold execMotConfig; exact command_concludes _ _ _ _
  case motMove t c => show Concludes s (execMotMove t c s); unfold execMotMove; exact command_concludes _ _ _ _
  case motMoveDone t q => show Concludes s (execMotMoveDone t q s); unfold execMotMoveDone; exact completion_concludes _ _ _ _ _
  case motHome t c => show Concludes s (execMotHome t c s); unfold execMotHome; exact command_concludes _ _ _ _
  case motStop t c => show Concludes s (execMotStop t c s); unfold execMotStop; exact command_concludes _ _ _ _
  case motStatus t c => show Concludes s (execMotStatus t c s); unfold execMotStatus; exact command_concludes _ _ _ _
  case bistRun t c => show Concludes s (execBistRun t c s); unfold execBistRun; exact command_concludes _ _ _ _
  case bistRunDone t q => show Concludes s (execBistRunDone t q s); unfold execBistRunDone; exact completion_concludes _ _ _ _ _
  case errRead t c => show Concludes s (execErrRead t c s); unfold execErrRead; exact command_concludes _ _ _ _
  case errInject t c => show Concludes s (execErrInject t c s); unfold execErrInject; exact command_concludes _ _ _ _
  case errRoute t c => show Concludes s (execErrRoute t c s); unfold execErrRoute; exact command_concludes _ _ _ _
  case laneTest t c => show Concludes s (execLaneTest t c s); unfold execLaneTest; exact command_concludes _ _ _ _
  case laneTestDone t q present errors => show Concludes s (execLaneTestDone t q present errors s); unfold execLaneTestDone; exact completion_concludes _ _ _ _ _
  case memMap t c => show Concludes s (execMemMap t c s); unfold execMemMap; exact command_concludes _ _ _ _
  case dmaRun t c => show Concludes s (execDmaRun t c s); unfold execDmaRun; exact command_concludes _ _ _ _
  case dmaRunDone t q => show Concludes s (execDmaRunDone t q s); unfold execDmaRunDone; exact completion_concludes _ _ _ _ _
  case eccErasure t c => show Concludes s (execEccErasure t c s); unfold execEccErasure; exact command_concludes _ _ _ _
  case poisonList t c => show Concludes s (execPoisonList t c s); unfold execPoisonList; exact command_concludes _ _ _ _
  case scrubPeriod t c => show Concludes s (execScrubPeriod t c s); unfold execScrubPeriod; exact command_concludes _ _ _ _
  case pmcSelect t c => show Concludes s (execPmcSelect t c s); unfold execPmcSelect; exact command_concludes _ _ _ _
  case pmcSnapshot t c => show Concludes s (execPmcSnapshot t c s); unfold execPmcSnapshot; exact command_concludes _ _ _ _
  case traceSet t c => show Concludes s (execTraceSet t c s); unfold execTraceSet; exact command_concludes _ _ _ _
  case traceRead t c => show Concludes s (execTraceRead t c s); unfold execTraceRead; exact command_concludes _ _ _ _
  case rdgIdentify t c => show Concludes s (execRdgIdentify t c s); unfold execRdgIdentify; exact command_concludes _ _ _ _
  case rdgStatus t c => show Concludes s (execRdgStatus t c s); unfold execRdgStatus; exact command_concludes _ _ _ _
  case rdgLimits t c => show Concludes s (execRdgLimits t c s); unfold execRdgLimits; exact command_concludes _ _ _ _
  case rdgSafeEnter t c => show Concludes s (execRdgSafeEnter t c s); unfold execRdgSafeEnter; exact command_concludes _ _ _ _
  case rdgSafeRelease t c => show Concludes s (execRdgSafeRelease t c s); unfold execRdgSafeRelease; exact command_concludes _ _ _ _
  case rdgPortClear t c => show Concludes s (execRdgPortClear t c s); unfold execRdgPortClear; exact command_concludes _ _ _ _
  case rdgMaint t c => show Concludes s (execRdgMaint t c s); unfold execRdgMaint; exact command_concludes _ _ _ _
  case pnrMsgWrite t m n k v => show Concludes s (execPnrMsgWrite t m n k v s); unfold execPnrMsgWrite; exact liveWrite_concludes _ _ _ _
  case pnrPost t m n len => show Concludes s (execPnrPost t m n len s); unfold execPnrPost; exact liveWrite_concludes _ _ _ _
  case pnrCtrlLenWrite t m n len => show Concludes s (execPnrCtrlLenWrite t m n len s); unfold execPnrCtrlLenWrite; exact liveWrite_concludes _ _ _ _
  case pnrTake t m n => show Concludes s (execPnrTake t m n s); unfold execPnrTake; exact liveRead_concludes _ _ _ _
  case pnrLockRead t m member n => show Concludes s (execPnrLockRead t m member n s); unfold execPnrLockRead; exact liveRead_concludes _ _ _ _
  case pnrLockRelease t m n owner => show Concludes s (execPnrLockRelease t m n owner s); unfold execPnrLockRelease; exact liveWrite_concludes _ _ _ _
  case pnrEpochWrite t m n epoch => show Concludes s (execPnrEpochWrite t m n epoch s); unfold execPnrEpochWrite; exact liveWrite_concludes _ _ _ _
  case pnrBindWrite t m n v => show Concludes s (execPnrBindWrite t m n v s); unfold execPnrBindWrite; exact liveWrite_concludes _ _ _ _
  case pnrBindlockSet t m => show Concludes s (execPnrBindlockSet t m s); unfold execPnrBindlockSet; exact liveWrite_concludes _ _ _ _
  case pnrBellClear t m owner v => show Concludes s (execPnrBellClear t m owner v s); unfold execPnrBellClear; exact live_concludes _ _ _
  case pnrBellenWrite t m owner v => show Concludes s (execPnrBellenWrite t m owner v s); unfold execPnrBellenWrite; exact live_concludes _ _ _
  case jtagTapReset t => show Concludes s (execJtagTapReset t s); unfold execJtagTapReset; exact live_concludes _ _ _
  case claimWrite t m reg1 v => show Concludes s (execClaimWrite t m reg1 v s); unfold execClaimWrite; exact liveWrite_concludes _ _ _ _
  case registerWrite t m a v => show Concludes s (execRegisterWrite t m a v s); unfold execRegisterWrite; exact live_concludes _ _ _
  case registerReadClear t m a => show Concludes s (execRegisterReadClear t m a s); unfold execRegisterReadClear; exact live_concludes _ _ _
  case cadPosloRead t m => show Concludes s (execCadPosloRead t m s); unfold execCadPosloRead; exact liveRead_concludes _ _ _ _
  case fabTimeloRead t m => show Concludes s (execFabTimeloRead t m s); unfold execFabTimeloRead; exact liveRead_concludes _ _ _ _
  case pmcCntloRead t m n => show Concludes s (execPmcCntloRead t m n s); unfold execPmcCntloRead; exact liveRead_concludes _ _ _ _
  case sramWindowWrite t m off v => show Concludes s (execSramWindowWrite t m off v s); unfold execSramWindowWrite; exact liveWrite_concludes _ _ _ _
  case bar2Read t addr len => show Concludes s (execBar2Read t addr len s); unfold execBar2Read; exact liveReading_concludes _ _ _ _
  case bar2Write t addr bytes => show Concludes s (execBar2Write t addr bytes s); unfold execBar2Write; exact liveReading_concludes _ _ _ _
  case powerOn t rails =>
    show Concludes s (execPowerOn t rails s)
    unfold execPowerOn; split
    · exact concludes_fault _ _
    · exact always_concludes _ _ _
  case brownOut t rail mv durNs =>
    show Concludes s (execBrownOut t rail mv durNs s)
    unfold execBrownOut; split
    · exact concludes_fault _ _
    · exact always_concludes _ _ _
  case resetNAssert t durNs => show Concludes s (execResetNAssert t durNs s); unfold execResetNAssert; exact always_concludes _ _ _
  case resetBegin t => show Concludes s (execResetBegin t s); unfold execResetBegin; exact live_concludes _ _ _
  case orderlyTimeout t => show Concludes s (execOrderlyTimeout t s); unfold execOrderlyTimeout; exact always_concludes _ _ _
  case internalResetRelease t straps => show Concludes s (execInternalResetRelease t straps s); unfold execInternalResetRelease; exact always_concludes _ _ _
  case bootImageCheck t flashResponds => show Concludes s (execBootImageCheck t flashResponds s); unfold execBootImageCheck; exact live_concludes _ _ _
  case bootComplete t spd0 spd1 trained => show Concludes s (execBootComplete t spd0 spd1 trained s); unfold execBootComplete; exact live_concludes _ _ _
  case sysclkLoss gap => show Concludes s (execSysclkLoss gap s); unfold execSysclkLoss; exact always_concludes _ _ _
  case sysclkFreq t m => show Concludes s (execSysclkFreq t m s); unfold execSysclkFreq; exact always_concludes _ _ _
  case ridgeOsc t khz => show Concludes s (execRidgeOsc t khz s); unfold execRidgeOsc; exact live_concludes _ _ _
  case pllUnlock t inst => show Concludes s (execPllUnlock t inst s); unfold execPllUnlock; exact live_concludes _ _ _
  case lanePllRelock t rate => show Concludes s (execLanePllRelock t rate s); unfold execLanePllRelock; exact live_concludes _ _ _
  case encoderCount t enc a b => show Concludes s (execEncoderCount t enc a b s); unfold execEncoderCount; exact live_concludes _ _ _
  case zEdge t enc => show Concludes s (execZEdge t enc s); unfold execZEdge; exact live_concludes _ _ _
  case cadenceLock t => show Concludes s (execCadenceLock t s); unfold execCadenceLock; exact live_concludes _ _ _
  case standstill t => show Concludes s (execStandstill t s); unfold execStandstill; exact live_concludes _ _ _
  case lineStart t => show Concludes s (execLineStart t s); unfold execLineStart; exact liveReading_concludes _ _ _ _
  case ledgerRecordLimit t => show Concludes s (execLedgerRecordLimit t s); unfold execLedgerRecordLimit; exact live_concludes _ _ _
  case ledgerNewTimer t => show Concludes s (execLedgerNewTimer t s); unfold execLedgerNewTimer; exact live_concludes _ _ _
  case strobeDue t p k => show Concludes s (execStrobeDue t p k s); unfold execStrobeDue; exact live_concludes _ _ _
  case strobeFall t p k => show Concludes s (execStrobeFall t p k s); unfold execStrobeFall; exact live_concludes _ _ _
  case strobeWatchdog t p k => show Concludes s (execStrobeWatchdog t p k s); unfold execStrobeWatchdog; exact live_concludes _ _ _
  case widthCompute t => show Concludes s (execWidthCompute t s); unfold execWidthCompute; exact live_concludes _ _ _
  case ridgeThetaTimeout t p => show Concludes s (execRidgeThetaTimeout t p s); unfold execRidgeThetaTimeout; exact live_concludes _ _ _
  case markEdge t mark1 => show Concludes s (execMarkEdge t mark1 s); unfold execMarkEdge; exact live_concludes _ _ _
  case boundaryFix t ch sg => show Concludes s (execBoundaryFix t ch sg s); unfold execBoundaryFix; exact live_concludes _ _ _
  case cadenceRecordSend t => show Concludes s (execCadenceRecordSend t s); unfold execCadenceRecordSend; exact live_concludes _ _ _
  case cadencePacket t q p => show Concludes s (execCadencePacket t q p s); unfold execCadencePacket; exact packetRow_concludes _ _ _ _ _
  case cadRecordLost t => show Concludes s (execCadRecordLost t s); unfold execCadRecordLost; exact live_concludes _ _ _
  case lineDecodeStart t ch b => show Concludes s (execLineDecodeStart t ch b s); unfold execLineDecodeStart; exact liveReading_concludes _ _ _ _
  case blockFetch t ch sg => show Concludes s (execBlockFetch t ch sg s); unfold execBlockFetch; exact liveReading_concludes _ _ _ _
  case blockVerify t ch sg => show Concludes s (execBlockVerify t ch sg s); unfold execBlockVerify; exact live_concludes _ _ _
  case decodeLate t p sg y => show Concludes s (execDecodeLate t p sg y s); unfold execDecodeLate; exact live_concludes _ _ _
  case redecodeDone t p => show Concludes s (execRedecodeDone t p s); unfold execRedecodeDone; exact liveReading_concludes _ _ _ _
  case bfpop t m ch v => show Concludes s (execBfpop t m ch v s); unfold execBfpop; exact liveWrite_concludes _ _ _ _
  case compressorBlock t => show Concludes s (execCompressorBlock t s); unfold execCompressorBlock; exact liveReading_concludes _ _ _ _
  case edgePacket t q p => show Concludes s (execEdgePacket t q p s); unfold execEdgePacket; exact packetRow_concludes _ _ _ _ _
  case lineFrameSend t p => show Concludes s (execLineFrameSend t p s); unfold execLineFrameSend; exact liveReading_concludes _ _ _ _
  case sosEdge t p => show Concludes s (execSosEdge t p s); unfold execSosEdge; exact live_concludes _ _ _
  case sosWindowClose t p => show Concludes s (execSosWindowClose t p s); unfold execSosWindowClose; exact live_concludes _ _ _
  case telemetryFrame t p r => show Concludes s (execTelemetryFrame t p r s); unfold execTelemetryFrame; exact live_concludes _ _ _
  case headAlignBlock t p aseq sender => show Concludes s (execHeadAlignBlock t p aseq sender s); unfold execHeadAlignBlock; exact live_concludes _ _ _
  case headLinkDown t p => show Concludes s (execHeadLinkDown t p s); unfold execHeadLinkDown; exact live_concludes _ _ _
  case moduleLost t p m => show Concludes s (execModuleLost t p m s); unfold execModuleLost; exact live_concludes _ _ _
  case laneBlockLock t w => show Concludes s (execLaneBlockLock t w s); unfold execLaneBlockLock; exact live_concludes _ _ _
  case laneBlockLoss t w => show Concludes s (execLaneBlockLoss t w s); unfold execLaneBlockLoss; exact live_concludes _ _ _
  case laneEnable t x => show Concludes s (execLaneEnable t x s); unfold execLaneEnable; exact live_concludes _ _ _
  case lnsInj t m l v => show Concludes s (execLnsInj t m l v s); unfold execLnsInj; exact liveWrite_concludes _ _ _ _
  case pcieReset t kind => show Concludes s (execPcieReset t kind s); unfold execPcieReset; exact live_concludes _ _ _
  case pcieError t uncorrectable => show Concludes s (execPcieError t uncorrectable s); unfold execPcieError; exact live_concludes _ _ _
  case fabricPortUp t q => show Concludes s (execFabricPortUp t q s); unfold execFabricPortUp; exact live_concludes _ _ _
  case fabricPortDown t q => show Concludes s (execFabricPortDown t q s); unfold execFabricPortDown; exact live_concludes _ _ _
  case fabricAlign t q far pair => show Concludes s (execFabricAlign t q far pair s); unfold execFabricAlign; exact always_concludes _ _ _
  case haltPacket t q p => show Concludes s (execHaltPacket t q p s); unfold execHaltPacket; exact packetRow_concludes _ _ _ _ _
  case readReq t q p => show Concludes s (execReadReq t q p s); unfold execReadReq; exact packetRow_concludes _ _ _ _ _
  case readData t q p => show Concludes s (execReadData t q p s); unfold execReadData; exact packetRow_concludes _ _ _ _ _
  case tc1Timeout t tag => show Concludes s (execTc1Timeout t tag s); unfold execTc1Timeout; exact live_concludes _ _ _
  case proxyPost t q p => show Concludes s (execProxyPost t q p s); unfold execProxyPost; exact packetRow_concludes _ _ _ _ _
  case proxyResponse t q p => show Concludes s (execProxyResponse t q p s); unfold execProxyResponse; exact packetRow_concludes _ _ _ _ _
  case proxyLockRead t q p => show Concludes s (execProxyLockRead t q p s); unfold execProxyLockRead; exact packetRow_concludes _ _ _ _ _
  case proxyLockRelease t q p => show Concludes s (execProxyLockRelease t q p s); unfold execProxyLockRelease; exact packetRow_concludes _ _ _ _ _
  case proxyLockResult t q p => show Concludes s (execProxyLockResult t q p s); unfold execProxyLockResult; exact packetRow_concludes _ _ _ _ _
  case proxyDone t q p => show Concludes s (execProxyDone t q p s); unfold execProxyDone; exact packetRow_concludes _ _ _ _ _
  case proxyRetry t tag => show Concludes s (execProxyRetry t tag s); unfold execProxyRetry; exact live_concludes _ _ _
  case probe t q p => show Concludes s (execProbe t q p s); unfold execProbe; exact packetRow_concludes _ _ _ _ _
  case assign t q p => show Concludes s (execAssign t q p s); unfold execAssign; exact packetRow_concludes _ _ _ _ _
  case route t q p => show Concludes s (execRoute t q p s); unfold execRoute; exact packetRow_concludes _ _ _ _ _
  case heartbeat t q p => show Concludes s (execHeartbeat t q p s); unfold execHeartbeat; exact packetRow_concludes _ _ _ _ _
  case heartbeatSend t => show Concludes s (execHeartbeatSend t s); unfold execHeartbeatSend; exact live_concludes _ _ _
  case memberLost t id => show Concludes s (execMemberLost t id s); unfold execMemberLost; exact live_concludes _ _ _
  case join t q p => show Concludes s (execJoin t q p s); unfold execJoin; exact packetRow_concludes _ _ _ _ _
  case lost t q p => show Concludes s (execLost t q p s); unfold execLost; exact packetRow_concludes _ _ _ _ _
  case tsyncSend t q => show Concludes s (execTsyncSend t q s); unfold execTsyncSend; exact live_concludes _ _ _
  case tsync t q p => show Concludes s (execTsync t q p s); unfold execTsync; exact packetRow_concludes _ _ _ _ _
  case dramRead t d made => show Concludes s (execDramRead t d made s); unfold execDramRead; exact liveReading_concludes _ _ _ _
  case dramWrite t req addr data => show Concludes s (execDramWrite t req addr data s); unfold execDramWrite; exact live_concludes _ _ _
  case writeDrain t d => show Concludes s (execWriteDrain t d s); unfold execWriteDrain; exact liveReading_concludes _ _ _ _
  case narrowWrite t req addr bytes => show Concludes s (execNarrowWrite t req addr bytes s); unfold execNarrowWrite; exact liveReading_concludes _ _ _ _
  case rowWindowEnd t => show Concludes s (execRowWindowEnd t s); unfold execRowWindowEnd; exact live_concludes _ _ _
  case dramRefresh t d sub rank bank => show Concludes s (execDramRefresh t d sub rank bank s); unfold execDramRefresh; exact live_concludes _ _ _
  case mr4Poll t d doubled => show Concludes s (execMr4Poll t d doubled s); unfold execMr4Poll; exact live_concludes _ _ _
  case dqsRemeasure t d sub gap drifted => show Concludes s (execDqsRemeasure t d sub gap drifted s); unfold execDqsRemeasure; exact live_concludes _ _ _
  case dramAlert t d => show Concludes s (execDramAlert t d s); unfold execDramAlert; exact live_concludes _ _ _
  case scrubRead t => show Concludes s (execScrubRead t s); unfold execScrubRead; exact liveReading_concludes _ _ _ _
  case scrubLate t => show Concludes s (execScrubLate t s); unfold execScrubLate; exact live_concludes _ _ _
  case diagRawWrite t m => show Concludes s (execDiagRawWrite t m s); unfold execDiagRawWrite; exact liveWrite_concludes _ _ _ _
  case diagRawRead t m => show Concludes s (execDiagRawRead t m s); unfold execDiagRawRead; exact liveWrite_concludes _ _ _ _
  case diagEncode t m => show Concludes s (execDiagEncode t m s); unfold execDiagEncode; exact liveWrite_concludes _ _ _ _
  case dmaStart t m n v => show Concludes s (execDmaStart t m n v s); unfold execDmaStart; exact liveWrite_concludes _ _ _ _
  case dmaAbort t m n v => show Concludes s (execDmaAbort t m n v s); unfold execDmaAbort; exact liveWrite_concludes _ _ _ _
  case dmaResume t m n v => show Concludes s (execDmaResume t m n v s); unfold execDmaResume; exact liveWrite_concludes _ _ _ _
  case dmaDescriptor t n => show Concludes s (execDmaDescriptor t n s); unfold execDmaDescriptor; exact liveReading_concludes _ _ _ _
  case dmaAccessTimeout t n => show Concludes s (execDmaAccessTimeout t n s); unfold execDmaAccessTimeout; exact live_concludes _ _ _
  case crcInit t m u v => show Concludes s (execCrcInit t m u v s); unfold execCrcInit; exact liveWrite_concludes _ _ _ _
  case crcGo t m u v => show Concludes s (execCrcGo t m u v s); unfold execCrcGo; exact liveWrite_concludes _ _ _ _
  case crcScanDone t u => show Concludes s (execCrcScanDone t u s); unfold execCrcScanDone; exact live_concludes _ _ _
  case crcDataFeed t m u logBytes v => show Concludes s (execCrcDataFeed t m u logBytes v s); unfold execCrcDataFeed; exact liveWrite_concludes _ _ _ _
  case crcValWrite t m u hi v => show Concludes s (execCrcValWrite t m u hi v s); unfold execCrcValWrite; exact liveWrite_concludes _ _ _ _
  case tableScan t ch tab => show Concludes s (execTableScan t ch tab s); unfold execTableScan; exact live_concludes _ _ _
  case heartbeatKick t m key => show Concludes s (execHeartbeatKick t m key s); unfold execHeartbeatKick; exact liveWrite_concludes _ _ _ _
  case heartbeatExpired t => show Concludes s (execHeartbeatExpired t s); unfold execHeartbeatExpired; exact live_concludes _ _ _
  case heartbeatResetRequest t => show Concludes s (execHeartbeatResetRequest t s); unfold execHeartbeatResetRequest; exact live_concludes _ _ _
  case estop t lowNs => show Concludes s (execEstop t lowNs s); unfold execEstop; exact always_concludes _ _ _
  case safeEnter t m cause => show Concludes s (execSafeEnter t m cause s); unfold execSafeEnter; exact liveWrite_concludes _ _ _ _
  case safeRelease t m => show Concludes s (execSafeRelease t m s); unfold execSafeRelease; exact liveWrite_concludes _ _ _ _
  case safeResetreq t m => show Concludes s (execSafeResetreq t m s); unfold execSafeResetreq; exact liveWrite_concludes _ _ _ _
  case rdgCauseClear t m v => show Concludes s (execRdgCauseClear t m v s); unfold execRdgCauseClear; exact liveWrite_concludes _ _ _ _
  case rdgGrantWrite t m v => show Concludes s (execRdgGrantWrite t m v s); unfold execRdgGrantWrite; exact liveWrite_concludes _ _ _ _
  case wdfaultClear t m h v => show Concludes s (execWdfaultClear t m h v s); unfold execWdfaultClear; exact liveWrite_concludes _ _ _ _
  case motionStep t a => show Concludes s (execMotionStep t a s); unfold execMotionStep; exact live_concludes _ _ _
  case limitSwitchEdge t a side level => show Concludes s (execLimitSwitchEdge t a side level s); unfold execLimitSwitchEdge; exact live_concludes _ _ _
  case standstillHold t a => show Concludes s (execStandstillHold t a s); unfold execStandstillHold; exact live_concludes _ _ _
  case senseConversion t slot code => show Concludes s (execSenseConversion t slot code s); unfold execSenseConversion; exact live_concludes _ _ _
  case delayMeasure t p m => show Concludes s (execDelayMeasure t p m s); unfold execDelayMeasure; exact live_concludes _ _ _
  case senseCommit t m => show Concludes s (execSenseCommit t m s); unfold execSenseCommit; exact liveWrite_concludes _ _ _ _
  case senseCommitApply t => show Concludes s (execSenseCommitApply t s); unfold execSenseCommitApply; exact live_concludes _ _ _
  case bistSliceStart t g inst => show Concludes s (execBistSliceStart t g inst s); unfold execBistSliceStart; exact live_concludes _ _ _
  case bistSliceSwap t g => show Concludes s (execBistSliceSwap t g s); unfold execBistSliceSwap; exact live_concludes _ _ _
  case bistMarchDone t g fail => show Concludes s (execBistMarchDone t g fail s); unfold execBistMarchDone; exact live_concludes _ _ _
  case errCfgClr t m k => show Concludes s (execErrCfgClr t m k s); unfold execErrCfgClr; exact liveWrite_concludes _ _ _ _
  case pmcSnap t m => show Concludes s (execPmcSnap t m s); unfold execPmcSnap; exact liveWrite_concludes _ _ _ _
  case pmcUsnap t m => show Concludes s (execPmcUsnap t m s); unfold execPmcUsnap; exact liveWrite_concludes _ _ _ _
  case traceAbandon t r => show Concludes s (execTraceAbandon t r s); unfold execTraceAbandon; exact live_concludes _ _ _
  case cdrLockLoss t l => show Concludes s (execCdrLockLoss t l s); unfold execCdrLockLoss; exact live_concludes _ _ _
  case tableScanLate t ch tab => show Concludes s (execTableScanLate t ch tab s); unfold execTableScanLate; exact live_concludes _ _ _
  rename_i t q p
  show Concludes s (execBreak t q p s); unfold execBreak; exact packetRow_concludes _ _ _ _ _

end Sys2Proof.Machine
end

