-- ==== Sys2Proof/Laws/Taking.lean ====
section
/-!
SUPPORT. What a command that is taken, a completion, and a register or event row answer, once for all rows.
-/
namespace Sys2Proof.Machine

/-- The tests of `judge` that do not depend on the row's own conditions. -/
theorem judge_own {r : OpRow} {own : Cmd → State → Option (Nat × Nat)} {c : Cmd} {s : State} (h : judge r (fun _ _ => none) c s = none) :
    judge r own c s = own c s := by
  unfold judge at h ⊢
  split at h
  · cases h
  · next h1 =>
    rw [if_neg h1]
    split at h
    · cases h
    · next h2 =>
      rw [if_neg h2]
      split at h
      · cases h
      · next h3 =>
        rw [if_neg h3]
        split
        · next det h4 => rw [h4]
        · next h4 =>
          simp only at h
          split at h
          · cases h
          · next h5 => rw [if_neg h5]

/-- A command of a live device that is taken and passes its tests is executed and answered. -/
theorem command_taken {r : OpRow} {own : Cmd → State → Option (Nat × Nat)} {act : Cmd → State → Reply} {t : Nat} {c : Cmd} {s : State}
    (h1 : (atTime t s).asserted = false) (h2 : takes c.q (atTime t s) = true) (h3 : judge r (fun _ _ => none) c (atTime t s) = none)
    (h4 : own c (atTime t s) = none) :
    command t c s (runCommand r own act) =
      .next (conclude (atTime t s) (proxyServe (reads [11] (answer r.op c (act c (atTime t s)))))) := by
  simp [command, live, h1, h2, runCommand, judge_own h3, h4]

/-- A command of a live device that is taken and fails a test is answered with its status, and does nothing else. -/
theorem command_refused {r : OpRow} {own : Cmd → State → Option (Nat × Nat)} {act : Cmd → State → Reply} {t : Nat} {c : Cmd} {s : State}
    {st det : Nat} (h1 : (atTime t s).asserted = false) (h2 : takes c.q (atTime t s) = true) (h3 : judge r own c (atTime t s) = some (st, det)) :
    command t c s (runCommand r own act) =
      .next (conclude (atTime t s) (proxyServe (reads [11] (respond r.op c st det [] (atTime t s))))) := by
  simp [command, live, h1, h2, runCommand, h3]

/-- A completion of a live device acts on the open command. -/
theorem completion_open {t op : Nat} {q : Queue} {s : State} {f : OpenCmd → State → State} {o : OpenCmd}
    (h1 : (atTime t s).asserted = false) (h2 : openFor op q (atTime t s) = some o) :
    completion t op q s f = .next (conclude (atTime t s) (proxyServe (f o (atTime t s)))) := by
  simp [completion, live, h1, h2]

/-- A row of a live device. -/
theorem live_next {t : Nat} {s : State} {f : State → State} (h : (atTime t s).asserted = false) :
    live t s f = .next (conclude (atTime t s) (f (atTime t s))) := by
  simp [live, h]

/-- While internal reset is asserted a row does nothing. -/
theorem live_asserted {t : Nat} {s : State} {f : State → State} (h : (atTime t s).asserted = true) :
    live t s f = .next (conclude (atTime t s) (atTime t s)) := by
  simp [live, h]

theorem liveWrite_next {t : Nat} {m : Master} {s : State} {f : State → State} (h : (atTime t s).asserted = false) :
    liveWrite m t s f = .next (conclude (atTime t s) (f (if m = .host then (atTime t s).tally 0x0601 0 4 else atTime t s))) := live_next h

theorem liveRead_next {t : Nat} {m : Master} {s : State} {f : State → State} (h : (atTime t s).asserted = false) :
    liveRead m t s f = .next (conclude (atTime t s) (f (if m = .host then (atTime t s).tally 0x0602 0 4 else atTime t s))) := live_next h

theorem liveReading_next {l : List Nat} {t : Nat} {s : State} {f : State → State} (h : (atTime t s).asserted = false) :
    liveReading l t s f = .next (conclude (atTime t s) (reads l (f (atTime t s)))) := live_next h

end Sys2Proof.Machine
end

