-- ==== Sys2Proof/Machine/Arbiter.lean ====
section
/-!
DEFINITION. Commands that reach the block in the same cycle: the order in which they apply (R22, R41, R82, R86, R89, R206, R214, R320,
R324, R351, R369, R390, R404, R415, R423, R426, R436), and the queue that a command joins in that order (log entry 93).
-/
namespace Sys2Proof.Machine

/-- The instant of a command, in ps. -/
def timeOf : Instr → Nat
  | .identify t _ | .getState t _ | .sysReset t _ | .logRead t _ | .unlock t _ | .lifecycle t _ | .eventMask t _ | .imgWrite t _
  | .imgWriteDone t _ | .imgInfo t _ | .bundleApply t _ | .bundleApplyDone t _ | .chGeometry t _ | .chSegment t _ | .tblLoad t _
  | .tblLoadDone t _ | .tblCommit t _ | .tblCommitEffect t _ | .copyForwardDone t _ | .tblRead t _ | .tblReadDone t _
  | .jetStatus t _ | .jobDefine t _ | .jobPost t _ | .jobArm t _ | .jobArmDone t _ | .jobStart t _ | .jobPause t _ | .jobResume t _
  | .jobAbort t _ | .jobDisarm t _ | .runway t _ | .libStore t _ | .libStoreDone t _ | .jobRestore t _ | .jobRestoreDone t _
  | .cadConfig t _ | .cadSpeed t _ | .cadMark t _ | .cadStatus t _ | .hpConfig t _ | .hpRowgroup t _ | .hpStrobe t _
  | .hpTemptable t _ | .hpTemptableDone t _ | .hpLink t _ | .hpLinkDone t _ | .ledgerConfig t _ | .ledgerAdvance t _
  | .chainDiscover t _ | .chainDiscoverDone t _ | .chainStatus t _ | .chainForward t _ | .chainForwardDone t _ | .chainCadence t _
  | .chainEdge t _ | .calSave t _ | .calSaveDone t _ | .calRestore t _ | .calRestoreDone t _ | .calRun t _ | .calRunDone t _ _ _ _
  | .motConfig t _ | .motMove t _ | .motMoveDone t _ | .motHome t _ | .motStop t _ | .motStatus t _ | .bistRun t _
  | .bistRunDone t _ | .errRead t _ | .errInject t _ | .errRoute t _ | .laneTest t _ | .laneTestDone t _ _ _ | .memMap t _
  | .dmaRun t _ | .dmaRunDone t _ | .eccErasure t _ | .poisonList t _ | .scrubPeriod t _ | .pmcSelect t _ | .pmcSnapshot t _
  | .traceSet t _ | .traceRead t _ | .rdgIdentify t _ | .rdgStatus t _ | .rdgLimits t _ | .rdgSafeEnter t _ | .rdgSafeRelease t _
  | .rdgPortClear t _ | .rdgMaint t _ | .pnrMsgWrite t _ _ _ _ | .pnrPost t _ _ _ | .pnrCtrlLenWrite t _ _ _ | .pnrTake t _ _
  | .pnrLockRead t _ _ _ | .pnrLockRelease t _ _ _ | .pnrEpochWrite t _ _ _ | .pnrBindWrite t _ _ _ | .pnrBindlockSet t _
  | .pnrBellClear t _ _ _ | .pnrBellenWrite t _ _ _ | .jtagTapReset t | .claimWrite t _ _ _ | .registerWrite t _ _ _
  | .registerReadClear t _ _ | .cadPosloRead t _ | .fabTimeloRead t _ | .pmcCntloRead t _ _ | .sramWindowWrite t _ _ _
  | .bar2Read t _ _ | .bar2Write t _ _ | .powerOn t _ | .brownOut t _ _ _ | .resetNAssert t _ | .resetBegin t | .orderlyTimeout t
  | .internalResetRelease t _ | .bootImageCheck t _ | .bootComplete t _ _ _ | .sysclkLoss ⟨t, _⟩ | .sysclkFreq t _ | .ridgeOsc t _
  | .pllUnlock t _ | .lanePllRelock t _ | .encoderCount t _ _ _ | .zEdge t _ | .cadenceLock t | .standstill t | .lineStart t
  | .ledgerRecordLimit t | .ledgerNewTimer t | .strobeDue t _ _ | .strobeFall t _ _ | .strobeWatchdog t _ _ | .widthCompute t
  | .ridgeThetaTimeout t _ | .markEdge t _ | .boundaryFix t _ _ | .cadenceRecordSend t | .cadencePacket t _ _ | .cadRecordLost t
  | .lineDecodeStart t _ _ | .blockFetch t _ _ | .blockVerify t _ _ | .decodeLate t _ _ _ | .redecodeDone t _ | .bfpop t _ _ _
  | .compressorBlock t | .edgePacket t _ _ | .lineFrameSend t _ | .sosEdge t _ | .sosWindowClose t _ | .telemetryFrame t _ _
  | .headAlignBlock t _ _ _ | .headLinkDown t _ | .moduleLost t _ _ | .laneBlockLock t _ | .laneBlockLoss t _ | .laneEnable t _
  | .lnsInj t _ _ _ | .pcieReset t _ | .pcieError t _ | .fabricPortUp t _ | .fabricPortDown t _ | .fabricAlign t _ _ _
  | .haltPacket t _ _ | .readReq t _ _ | .readData t _ _ | .tc1Timeout t _ | .proxyPost t _ _ | .proxyResponse t _ _
  | .proxyLockRead t _ _ | .proxyLockRelease t _ _ | .proxyLockResult t _ _ | .proxyDone t _ _ | .proxyRetry t _ | .probe t _ _
  | .assign t _ _ | .route t _ _ | .heartbeat t _ _ | .heartbeatSend t | .memberLost t _ | .join t _ _ | .lost t _ _ | .break t _ _
  | .tsyncSend t _ | .tsync t _ _ | .dramRead t _ _ | .dramWrite t _ _ _ | .writeDrain t _ | .narrowWrite t _ _ _ | .rowWindowEnd t
  | .dramRefresh t _ _ _ _ | .mr4Poll t _ _ | .dqsRemeasure t _ _ _ _ | .dramAlert t _ | .scrubRead t | .scrubLate t
  | .diagRawWrite t _ | .diagRawRead t _ | .diagEncode t _ | .dmaStart t _ _ _ | .dmaAbort t _ _ _ | .dmaResume t _ _ _
  | .dmaDescriptor t _ | .dmaAccessTimeout t _ | .crcInit t _ _ _ | .crcGo t _ _ _ | .crcScanDone t _ | .crcDataFeed t _ _ _ _
  | .crcValWrite t _ _ _ _ | .tableScan t _ _ | .heartbeatKick t _ _ | .heartbeatExpired t | .heartbeatResetRequest t | .estop t _
  | .safeEnter t _ _ | .safeRelease t _ | .safeResetreq t _ | .rdgCauseClear t _ _ | .rdgGrantWrite t _ _ | .wdfaultClear t _ _ _
  | .motionStep t _ | .limitSwitchEdge t _ _ _ | .standstillHold t _ | .senseConversion t _ _ | .delayMeasure t _ _
  | .senseCommit t _ | .senseCommitApply t | .bistSliceStart t _ _ | .bistSliceSwap t _ | .bistMarchDone t _ _ | .errCfgClr t _ _
  | .pmcSnap t _ | .pmcUsnap t _ | .traceAbandon t _ | .cdrLockLoss t _ | .tableScanLate t _ _ => t

/-! What a command does at a shared unit, for the rules on events of one cycle. -/

/-- An access or event that one of those rules names. Channels, DMA channels and detectors by number. -/
inductive Touch where
  | word (n : Nat) | go (n : Nat) | take (n : Nat) | epoch (m : Master) (n : Nat)
  | lockRead (m : Master) (n : Nat) | unlock (m : Master) (n : Nat) | sessionEnd (m : Master)
  | bind (m : Master) (n : Nat) | bindlock | bellClear (m : Master) | claim (m : Master)
  | safe | gateFall | release | kick | expiry
  | errClear (i : Nat) | dmaHalt (n : Nat) | dmaAbort (n : Nat)
  | table | shadow | snap | counter
deriving DecidableEq, Repr

/-- A 32-bit write at a BAR0 offset. -/
def writeTouch (m : Master) (off : Nat) (v : Word) : Option Touch :=
  if 0x300000 ≤ off then some .table
  else if off = 0x2A1000 then some .snap
  else if 0x280000 ≤ off ∧ off < 0x290000 then some .shadow
  else match regAt off with
  | none => none
  | some r =>
    match r.k with
    | .pnrMsg => some (.word r.i)
    | .pnrCtrl => if fieldOf v 31 1 = 1 then some (.go r.i) else none
    | .pnrLock => some (.unlock m r.i)
    | .pnrEpoch => some (.epoch m r.i)
    | .pnrBind => some (.bind m r.i)
    | .pnrBindlock => some .bindlock
    | .pnrBell => some (.bellClear m)
    | .glbClaim0 | .glbClaim1 => some (.claim m)
    | .rdgSafe => if fieldOf v 0 1 = 1 then some .safe else if fieldOf v 1 1 = 1 then some .release else none
    | .rdgMoten => if fieldOf v 0 1 = 0 then some .gateFall else none
    | .rdgKick => some .kick
    | .errCfg => if fieldOf v 31 1 = 1 then some (.errClear r.i) else none
    | .dmaCtrl => if fieldOf v 1 1 = 1 then some (.dmaAbort r.i) else none
    | .pmcCtrl => if fieldOf v 1 1 = 1 then some .snap else none
    | .pmcCntlo | .pmcCnthi => some .counter
    | _ => none

/-- A 32-bit read at a BAR0 offset. -/
def readTouch (m : Master) (off : Nat) : Option Touch :=
  match regAt off with
  | some ⟨.pnrTake, n, _⟩ => some (.take n)
  | some ⟨.pnrLock, n, _⟩ => some (.lockRead m n)
  | _ => none

/-- Offsets and values of the 32-bit accesses that an access acts as; a write narrower than 32 bits does not act (R72). -/
def wordWrites (a : RegAccess) (v : DWord) : List (Nat × Word) :=
  match a.bar with
  | .bar4 => []
  | .bar0 =>
    if a.len = 8 then [(a.off, BitVec.ofNat 32 v.toNat), (a.off + 4, BitVec.ofNat 32 (v.toNat / 2 ^ 32))]
    else if a.len = 4 then [(a.off, BitVec.ofNat 32 v.toNat)] else []
def wordReads (a : RegAccess) : List Nat :=
  match a.bar with
  | .bar4 => []
  | .bar0 => if a.len = 8 then [a.off, a.off + 4] else [a.off / 4 * 4]

/-- What a command does at the shared units, on rows of its own, by register offset or in a packet. -/
def touches : Instr → List Touch
  | .registerWrite _ m a v => (wordWrites a v).filterMap fun e => writeTouch m e.1 e.2
  | .registerReadClear _ m a => (wordReads a).filterMap (readTouch m)
  | .pnrMsgWrite _ _ n _ _ => [.word n]
  | .pnrPost _ _ n _ => [.go n]
  | .proxyPost .. => [.go 8]
  | .pnrTake _ _ n => [.take n]
  | .pnrEpochWrite _ m n _ => [.epoch m n]
  | .pnrLockRead _ m _ n => [.lockRead m n]
  | .pnrLockRelease _ m n _ => [.unlock m n]
  | .proxyLockRead _ _ p => [.lockRead .proxy (proxyCh p)]
  | .proxyLockRelease _ _ p => [.unlock .proxy (proxyCh p)]
  | .pcieReset .. => [.sessionEnd .host]
  | .jtagTapReset .. => [.sessionEnd .debug]
  | .lost .. | .memberLost .. => [.sessionEnd .proxy]
  | .pnrBindWrite _ m n _ => [.bind m n]
  | .pnrBindlockSet .. => [.bindlock]
  | .pnrBellClear _ m _ _ => [.bellClear m]
  | .claimWrite _ m _ _ => [.claim m]
  | .safeEnter .. | .estop .. | .sysclkLoss .. | .sysclkFreq .. | .ridgeOsc .. | .rdgSafeEnter .. => [.safe]
  | .heartbeatExpired .. => [.safe, .expiry]
  | .safeRelease .. | .rdgSafeRelease .. => [.release]
  | .heartbeatKick .. => [.kick]
  | .errCfgClr _ _ i => [.errClear i]
  | .dmaDescriptor _ n | .dmaAccessTimeout _ n => [.dmaHalt n]
  | .dmaAbort _ _ n _ => [.dmaAbort n]
  | .sramWindowWrite .. => [.table]
  | .pmcSnap .. | .pmcSnapshot .. => [.snap]
  | _ => []

/-- The ridge's writes go first, then those of the other masters by number (R41). -/
def claimRank (m : Master) : Nat := if m = .ridge then 0 else m.num

/-- Of two accesses of one cycle, the first is applied before the second: claims (R41); a bind entry (R89); locks (R86, R89); a word or
GO before the take, also of a channel that is not FULL, of which R89 says nothing (DESIGN CHOICE, log entry 122); a halt before the
abort (R369); expiry before a kick (R390). -/
def Touch.first : Touch → Touch → Bool
  | .claim m, .claim m' => decide (claimRank m < claimRank m')
  | .word n, .take n' | .go n, .take n' => decide (n = n')
  | .lockRead m n, .lockRead m' n' => decide (n = n' ∧ m.num < m'.num)
  | .unlock m n, .lockRead m' n' => decide (n = n' ∧ m ≠ m')
  | .sessionEnd m, .lockRead m' _ => decide (m ≠ m' ∨ m = .proxy)
  | .bind m n, .bind m' n' => decide (n = n' ∧ m = .ridge ∧ m' ≠ .ridge)
  | .bind m _, .bindlock => decide (m = .ridge)
  | .dmaHalt n, .dmaAbort n' => decide (n = n')
  | .expiry, .kick => true
  | _, _ => false

/-- The master whose access a command is. -/
def actor : Instr → Option Master
  | .registerWrite _ m _ _ | .registerReadClear _ m _ | .pnrMsgWrite _ m _ _ _ | .pnrPost _ m _ _ | .pnrCtrlLenWrite _ m _ _ | .pnrTake _ m _
  | .pnrLockRead _ m _ _ | .pnrLockRelease _ m _ _ | .pnrEpochWrite _ m _ _ | .pnrBindWrite _ m _ _ | .pnrBindlockSet _ m
  | .pnrBellClear _ m _ _ | .pnrBellenWrite _ m _ _ | .claimWrite _ m _ _ | .sramWindowWrite _ m _ _ | .safeEnter _ m _
  | .safeRelease _ m | .safeResetreq _ m | .rdgCauseClear _ m _ | .rdgGrantWrite _ m _ | .errCfgClr _ m _ => some m
  | _ => none

/-- A command with an access goes before, or after, every other of its cycle that is no access of the same master: the clear of a bell
(R82) and of a detector (R423) before, for a bit set in that cycle stays set and a raise counts; a write of `EPOCH` after, for a GO takes
the old one (R89); RELEASE after, for a cause set in its cycle keeps the safe state (R390). -/
def goesEarly (c : Instr) : Bool := (touches c).any fun a => match a with | .bellClear _ | .errClear _ => true | _ => false
def goesLate (c : Instr) : Bool := (touches c).any fun a => match a with | .epoch _ _ | .release => true | _ => false

/-- The place of a cadence unit's work within one tick (R206, R214). -/
def tickRank : Instr → Option Nat
  | .encoderCount .. => some 0
  | .zEdge .. => some 1
  | .lineStart .. => some 2
  | .strobeDue .. => some 3
  | .markEdge .. => some 4
  | .boundaryFix .. => some 5
  | _ => none

/-- Detector and instance that a command of the hardware may raise (R426). -/
def raises : Instr → Option (Nat × Nat)
  | .pllUnlock _ i => some (4, i)
  | .headLinkDown _ p => some (19, p)
  | .telemetryFrame _ p _ => some (16, p)
  | .sosEdge _ p => some (17, p)
  | .moduleLost _ p _ => some (20, p)
  | .strobeWatchdog _ p k => some (24, 4 * p + k)
  | .laneBlockLoss _ ⟨l, _⟩ | .cdrLockLoss _ l => some (25, l)
  | .dqsRemeasure _ d _ _ _ => some (35, d)
  | .dramAlert _ d => some (36, d)
  | .decodeLate _ p _ _ => some (7, p / 4)
  | _ => none

/-- The motion generator's own events (R404). -/
def motionEvent : Instr → Bool
  | .motionStep .. | .limitSwitchEdge .. | .standstillHold .. => true
  | _ => false

/-- An access that the datapath makes to on-chip tables (R22). -/
def tableRead : Instr → Bool
  | .lineStart .. | .lineDecodeStart .. | .blockVerify .. | .lineFrameSend .. => true
  | _ => false

/-- A command that the firmware carries out, and the end of one: as requester 7 of the DRAM (R316). -/
def firmwareRow : Instr → Bool
  | .identify .. | .getState .. | .sysReset .. | .logRead .. | .unlock .. | .lifecycle .. | .eventMask .. | .imgWrite ..
  | .imgWriteDone .. | .imgInfo .. | .bundleApply .. | .bundleApplyDone .. | .chGeometry .. | .chSegment .. | .tblLoad ..
  | .tblLoadDone .. | .tblCommit .. | .tblRead .. | .tblReadDone .. | .jetStatus .. | .jobDefine .. | .jobPost .. | .jobArm ..
  | .jobArmDone .. | .jobStart .. | .jobPause .. | .jobResume .. | .jobAbort .. | .jobDisarm .. | .runway .. | .libStore ..
  | .libStoreDone .. | .jobRestore .. | .jobRestoreDone .. | .cadConfig .. | .cadSpeed .. | .cadMark .. | .cadStatus ..
  | .hpConfig .. | .hpRowgroup .. | .hpStrobe .. | .hpTemptable .. | .hpTemptableDone .. | .hpLink .. | .hpLinkDone ..
  | .ledgerConfig .. | .ledgerAdvance .. | .chainDiscover .. | .chainDiscoverDone .. | .chainStatus .. | .chainForward ..
  | .chainForwardDone .. | .chainCadence .. | .chainEdge .. | .calSave .. | .calSaveDone .. | .calRestore .. | .calRestoreDone ..
  | .calRun .. | .calRunDone .. | .motConfig .. | .motMove .. | .motMoveDone .. | .motHome .. | .motStop .. | .motStatus ..
  | .bistRun .. | .bistRunDone .. | .errRead .. | .errInject .. | .errRoute .. | .laneTest .. | .laneTestDone .. | .memMap ..
  | .dmaRun .. | .dmaRunDone .. | .eccErasure .. | .poisonList .. | .scrubPeriod .. | .pmcSelect .. | .pmcSnapshot ..
  | .traceSet .. | .traceRead .. => true
  | _ => false

/-- Requesters of a command's DRAM accesses, with the burst where the command names it (R316). -/
def requests (c : Instr) : List (Nat × Option Nat) :=
  match c with
  | .dramRead _ _ made => made.map fun r => (r.req, some (burstOf r.addr))
  | .dramWrite _ q a _ | .narrowWrite _ q a _ => [(q.val, some (burstOf a))]
  | .blockFetch _ ch _ => [(ch, none)]
  | .redecodeDone _ p => [(p / 4, none)]
  | .dmaDescriptor .. | .readReq .. | .compressorBlock .. => [(4, none)]
  | .bar2Read .. | .bar2Write .. => [(5, none)]
  | .scrubRead .. => [(6, none)]
  | _ => if firmwareRow c then [(7, none)] else []

/-- Accesses of one burst go by requester number (R320, R351). -/
def requesterFirst (c d : Instr) : Bool :=
  (requests c).any fun a => (requests d).any fun b =>
    decide (a.1 < b.1) && (match a.2, b.2 with | some x, some y => decide (x = y) | _, _ => true)

/-- Of two commands of one cycle, the first is applied before the second. -/
def goesFirst (s : State) (c d : Instr) : Bool :=
  let has (t : Touch) (c : Instr) : Bool := (touches c).contains t
  let own : Bool := (actor c).isSome && decide (actor c = actor d)
  ((touches c).any fun a => (touches d).any fun b => a.first b)
  || (!own && ((goesEarly c && !goesEarly d) || (goesLate d && !goesLate c)))
  || (match c, d with
  -- DRAM: an erasure command before the reads of its cycle (R351), a window's end after its crossings (R324)
  | .eccErasure .., _ => !(requests d).isEmpty && !firmwareRow d
  | _, .eccErasure .. => false
  | _, .rowWindowEnd .. => !(requests c).isEmpty
  -- the ridge (R390): a trip before its clearing
  | .widthCompute .., .rdgPortClear .. | .ridgeThetaTimeout .., .rdgPortClear .. => true
  -- a strobe rises and is gated in the tick in which HPEN falls (R255, R390); the safe state before motion (R404)
  | .strobeDue .., _ => has .safe d
  -- motion (R404): a switch that ends homing wrongly or chatters before the home switch; a limit before a stop; a move before the hold
  | .limitSwitchEdge _ a side _, .limitSwitchEdge _ a' side' _ =>
    decide (a = a' ∧ side ≠ side') && decide ((s.axis a).up = (side = .limn))
  | .limitSwitchEdge .., .motStop .. | .motMove .., .standstillHold .. => true
  -- calibration (R415): the copy takes the old shadow, a step is followed by the write of its shadow
  | .senseCommitApply .., _ | .delayMeasure .., _ | .senseConversion .., _ => has .shadow d
  | _, _ => requesterFirst c d)
  || (match tickRank c, tickRank d with | some a, some b => decide (a < b) | _, _ => false)
  || (match raises c, raises d with | some a, some b => decide (a.1 = b.1 ∧ a.2 < b.2) | _, _ => false)
  || ((has .safe c || has .gateFall c) && motionEvent d)
  || (tableRead c && has .table d)
  || (has .snap c && !has .snap d) || (has .counter d && !has .counter c && !has .snap c)

/-- The length in ps of the cycle in which two commands meet: of the ridge's clock for its causes and the heartbeat (R390), a cadence tick
(R202, R214), a motion cycle (R404), a controller cycle (R320, R324, R351), else of the device's clock. -/
def cycleOf (s : State) (c d : Instr) : Nat :=
  let ridge (c : Instr) : Bool := (touches c).any fun a => match a with | .release | .kick | .expiry => true | _ => false
  if ridge c || ridge d then 20000
  else if motionEvent c || motionEvent d then 10000
  else if (tickRank c).isSome && (tickRank d).isSome then 2500
  else if !(requests c).isEmpty && !(requests d).isEmpty then s.dramCycle
  else 1000

/-- The queue with a command that arrives: before the commands of its cycle that it goes before, else last. -/
def enqueueCmd (s : State) (c : Instr) : List Instr → List Instr
  | [] => [c]
  | d :: r =>
    if timeOf c / cycleOf s c d = timeOf d / cycleOf s c d ∧ goesFirst s c d = true then c :: d :: r else d :: enqueueCmd s c r

/-- A command reaches the block. -/
def State.arrive (s : State) (c : Instr) : State := { s with pending := enqueueCmd s c s.pending }

end Sys2Proof.Machine
end

