-- ==== Sys2Proof/WellFormed.lean ====
section
/-!
DEFINITION. Which commands are well formed: a command message has 6 to 14 argument words (LEN 8 to 16, R90); bytes on
a bus or link come in the amounts their carriers allow. Ill-formed terms stand for nothing that reaches the block.
-/
namespace Sys2Proof

/-- LEN of 8 to 16 leaves 6 to 14 argument words (R90); only channel 8 carries a remote member's ID (R84, R103). -/
def Cmd.wf (c : Cmd) : Bool := decide (6 ≤ c.args.length ∧ c.args.length ≤ 14) && (decide (c.q = .q8) || decide (c.member = 0))

/-- A packet has whole data blocks (R285). -/
def Pkt.wf (p : Pkt) : Bool := decide (p.payload.length % 8 = 0)

/-- The well-formed commands. -/
def Instr.wf : Instr → Bool
  | .identify _ c | .getState _ c | .sysReset _ c | .logRead _ c | .unlock _ c | .lifecycle _ c | .eventMask _ c
  | .imgWrite _ c | .imgInfo _ c | .bundleApply _ c | .chGeometry _ c | .chSegment _ c | .tblLoad _ c | .tblCommit _ c
  | .tblRead _ c | .jetStatus _ c | .jobDefine _ c | .jobPost _ c | .jobArm _ c | .jobStart _ c | .jobPause _ c
  | .jobResume _ c | .jobAbort _ c | .jobDisarm _ c | .runway _ c | .libStore _ c | .jobRestore _ c | .cadConfig _ c
  | .cadSpeed _ c | .cadMark _ c | .cadStatus _ c | .hpConfig _ c | .hpRowgroup _ c | .hpStrobe _ c | .hpTemptable _ c
  | .hpLink _ c | .ledgerConfig _ c | .ledgerAdvance _ c | .chainDiscover _ c | .chainStatus _ c | .chainForward _ c
  | .chainCadence _ c | .chainEdge _ c | .calSave _ c | .calRestore _ c | .calRun _ c | .motConfig _ c | .motMove _ c
  | .motHome _ c | .motStop _ c | .motStatus _ c | .bistRun _ c | .errRead _ c | .errInject _ c | .errRoute _ c
  | .laneTest _ c | .memMap _ c | .dmaRun _ c | .eccErasure _ c | .poisonList _ c | .scrubPeriod _ c | .pmcSelect _ c
  | .pmcSnapshot _ c | .traceSet _ c | .traceRead _ c => c.wf && decide (c.q ≠ .ridge)
  | .rdgIdentify _ c | .rdgStatus _ c | .rdgLimits _ c | .rdgSafeEnter _ c | .rdgSafeRelease _ c | .rdgPortClear _ c
  | .rdgMaint _ c => c.wf && decide (c.q = .ridge)
  | .telemetryFrame _ _ r => !r.blocks.isEmpty
  | .laneBlockLock _ w | .laneBlockLoss _ w => decide (w.heads.length ≤ 64)
  | .cadencePacket _ _ p | .edgePacket _ _ p | .haltPacket _ _ p | .readReq _ _ p | .readData _ _ p | .proxyPost _ _ p
  | .proxyResponse _ _ p | .proxyLockRead _ _ p | .proxyLockRelease _ _ p | .proxyLockResult _ _ p | .proxyDone _ _ p
  | .probe _ _ p | .assign _ _ p | .route _ _ p | .heartbeat _ _ p | .join _ _ p | .lost _ _ p | .break _ _ p
  | .tsync _ _ p => p.wf
  | .dramWrite _ _ a d => decide (d.length = 64 ∧ a % 64 = 0)
  | .narrowWrite _ _ a b => decide (0 < b.length ∧ a % 64 + b.length ≤ 64)
  | .delayMeasure _ _ m => decide (m.length = 4)
  | _ => true

end Sys2Proof
end

