-- ==== Sys2Proof/Tests/Slice0.lean ====
section
/-!
SUPPORT. Tests: ill-formed commands that WellFormed refuses, a few commands on small states against the spec's tables and examples, and for
each obligation with hypotheses a state and operands that meet them, clause by clause.
-/
namespace Sys2Proof.Tests
open Sys2Proof Sys2Proof.Machine Sys2Proof.Claim

-- One theorem at a time: each waits for the kernel, and threads that wait take memory.
set_option Elab.async false

/-- A command message: its words, then words of zeros. -/
def cmd (q : Queue) (ws : List Nat) : Cmd := { q := q, seq := 0, args := ws.map (BitVec.ofNat 32) ++ List.replicate (10 - ws.length) 0 }

/-- A small ready state: boot over, DRAM trained, PCIe link up, ridge runtime running, motion gate open. -/
def rdy : State :=
  ((((({ State.reset with
    boot := { State.reset.boot with inReset := false, kickstand := false, ridgeInRom := false }, fw := { State.reset.fw with running := true }, dev := .ready }).put
      R.glbBootstat_PHASE 9).put R.dmcCfg_TRAINED 1).setReg ⟨.rdgStatus, 0, 0⟩ 0).put R.lnsPciestat_UP 1).put R.rdgMoten_GATE 1

/-- Channel 0 configured with one segment, staging area 0 locked by the host, whose 64 zero bytes stand at its start in the write queue. -/
def conf : State :=
  dramWrite 5 0x1000000 (List.replicate 64 0) (((rdy.setChan 0 { configured := true, n := 64, l := 4, b := 1 }).setSeg 0 0 { width := 64, pageLen := 4 }).put R.pnrLock_OWNER 1 12)

def aJob : Job := { id := 7, mask := 1, policy := 0, threshold := 0 }

/-- A loaded job in a device state. -/
def inDev (d : DevState) (j : Job := aJob) : State := { conf with dev := d, job := some j }

/-- An open E command, and a state in which it is open. -/
def opn (op : Nat) (ws : List Nat) (data : List Nat := []) : OpenCmd := { op := op, cmd := cmd .q0 ws, t0 := 0, data := data }
def wopn (o : OpenCmd) (s : State := conf) : State := { s with fw := { s.fw with opens := [o] } }

/-- CRC-32C of zeros, as a command word. -/
def crc0 (n : Nat) : Nat := (crc32c (List.replicate n 0)).toNat

theorem crcArg (bs : List Byte) : crc32c bs = BitVec.ofNat 32 (crc32c bs).toNat := (BitVec.ofNat_toNat _ _).symm ▸ (BitVec.setWidth_eq _).symm
theorem pairOf {α β : Type} {p : α × β} {a : α} (h : p.1 = a) : p = (a, p.2) := by cases p; cases h; rfl

theorem unitOf {o : OpenCmd} {s : State} (h : (claimFor true 0 3 s).1 = true) :
    claimUnit3 o s = .ok (claimFree true 0 3 (claimFor true 0 3 s).2) := by simp [claimUnit3, h]

/-- Port 0 with its link up and its one head module reporting. -/
def ported (s : State) : State :=
  ((s.put R.hptPstat_LINKUP 1).put R.hptPstat_MODANS 1).setPort 0 { conf := true, upSince := 1, answered := 1, tel := [(0, { temp := 400, valid := true, at_ := 0 })] }

/-- A packet with a right check, and a member with ID 1 whose fabric port 0 is up. -/
def sealed (p : Pkt) : Pkt := { p with crc := crc32c (pktHeader p ++ p.payload) }
def pkt (ty cls dest : Nat) (payload : List Byte) : Pkt :=
  sealed { ty := BitVec.ofNat 6 ty, cls := BitVec.ofNat 2 cls, dest := BitVec.ofNat 8 dest, src := 2, ttl := 3, tag := 0,
           length := BitVec.ofNat 8 (payload.length / 8), payload := payload, crc := 0 }
def fb : State := ((((rdy.put R.fabId_ID 1).put R.fabId_ROOT 1).put R.fabPstat_UP 1).put R.fabPctrl_EN 1).put R.fabRoute_PRI 4 1

/-- A calibration record that names a member with unique ID 0, with its check. -/
def calBody : List Byte := leBytes 4 0x4C414353 ++ leBytes 2 1 ++ List.replicate (74 * 9) 0
def calRec : List Byte := calBody ++ [0xFE, 0xC3, 0xB5, 0xD0]
/-- The check register over 74 zeros. -/
def over74 (r : Nat) : Nat := (List.replicate 74 (0 : Byte)).foldl (crcByteR 0x82F63B78) r
theorem over74_times : ∀ n r, (List.replicate (74 * n) (0 : Byte)).foldl (crcByteR 0x82F63B78) r = Nat.repeat over74 n r
  | 0, _ => rfl
  | n + 1, r => by
    rw [Nat.mul_add, Nat.mul_one, ← List.replicate_append_replicate, List.foldl_append, over74_times n r]; rfl
theorem over74_calBody : Nat.repeat over74 9 698912270 = 793394177 := by
  simp only [Nat.repeat]
  rw [show over74 698912270 = 346343244 by decide +kernel, show over74 346343244 = 1705871615 by decide +kernel,
    show over74 1705871615 = 1638451939 by decide +kernel, show over74 1638451939 = 4100892656 by decide +kernel,
    show over74 4100892656 = 880108157 by decide +kernel, show over74 880108157 = 1648106298 by decide +kernel,
    show over74 1648106298 = 456024666 by decide +kernel, show over74 456024666 = 2754612768 by decide +kernel,
    show over74 2754612768 = 793394177 by decide +kernel]
theorem calBody_check : crc32c calBody = 3501573118 := by
  unfold crc32c crc32cUpdate calBody
  rw [List.foldl_append, over74_times]
  rw [show (leBytes 4 0x4C414353 ++ leBytes 2 1).foldl (crcByteR 0x82F63B78) (0xFFFFFFFF : Word).toNat = 698912270 by decide +kernel, over74_calBody]
  decide
theorem calRec_valid (s : State) (h : s.get R.glbUid1_UID_HI * 2 ^ 32 + s.get R.glbUid0_UID_LO = 0) : calValid calRec s = true := by
  unfold calValid
  rw [h, show calRec.take 0x2A0 = calBody by decide +kernel, calBody_check]
  decide +kernel
theorem chosen {c : Cmd} {s : State} (h : (dramRead 7 (s.regionBase 2) 676 s).1 = some calRec)
    (hu : (dramRead 7 (s.regionBase 2) 676 s).2.get R.glbUid1_UID_HI * 2 ^ 32 + (dramRead 7 (s.regionBase 2) 676 s).2.get R.glbUid0_UID_LO = 0) :
    chooseRecord c s = (.ok calRec, (dramRead 7 (s.regionBase 2) 676 s).2) := by
  unfold chooseRecord; simp only [h, calRec_valid _ hu, if_true]

/-- Every rail at the middle of its range (R449), and a DIMM of the first geometry and fastest speed (R311, R312). -/
def goodRails : Rails := { vdd := 800, vddm := 850, vddl := 950, vddlh := 1250, vddq := 1150, vddio := 1800, vdda := 1800, vddrdg := 850 }
def dimm : Spd := { geom := 1, speeds := [1, 3] }

/-! For each obligation, clause by clause: a state and operands that meet its hypotheses together. -/

theorem witness_SystemCommandsComplete :
    (∃ t : Nat, ∃ c : Cmd, ∃ s : State, Taken { op := 0x0101, argw := 0, states := anyState, held := true } t c s) ∧
    (∃ t : Nat, ∃ c : Cmd, ∃ s : State, Taken { op := 0x0102, argw := 0, states := anyState } t c s) ∧
    (∃ t : Nat, ∃ c : Cmd, ∃ s : State, Taken { op := 0x0103, argw := 1, states := anyState, held := true } t c s ∧ cmdNat c 1 ≤ 1) ∧
    (∃ t : Nat, ∃ c : Cmd, ∃ s : State, Taken { op := 0x0107, argw := 1, states := anyState } t c s) ∧
    (∃ t : Nat, ∃ c : Cmd, ∃ s : State, Taken { op := 0x0202, argw := 1, states := anyState, held := true } t c s ∧ (cmdNat c 1 = 1 ∨ cmdNat c 1 = 2)) ∧
    (∃ t : Nat, ∃ c : Cmd, ∃ s : State, Taken { op := 0x0203, argw := 1, states := [.ready] } t c s ∧ 0x290000 ≤ cmdNat c 1 ∧ queueBusy c (atTime t s) = false) ∧
    (∃ t : Nat, ∃ c : Cmd, ∃ s : State, Taken { op := 0x0B01, argw := 0, states := anyState } t c s) :=
  ⟨⟨0, cmd .q0 [], rdy, by unfold Taken; decide +kernel⟩,
   ⟨0, cmd .q0 [], rdy, by unfold Taken; decide +kernel⟩,
   ⟨0, cmd .q0 [1], rdy, by unfold Taken; decide +kernel⟩,
   ⟨0, cmd .q0 [], rdy, by unfold Taken; decide +kernel⟩,
   ⟨0, cmd .q0 [2], rdy, by unfold Taken; decide +kernel⟩,
   ⟨0, cmd .q0 [0x290000], rdy, by unfold Taken; decide +kernel⟩,
   ⟨0, cmd .q0 [], rdy, by unfold Taken; decide +kernel⟩⟩

theorem witness_FlashCommandsComplete :
    (∃ t : Nat, ∃ c : Cmd, ∃ s : State, Taken { op := 0x0104, argw := 5, states := anyState, held := true } t c s ∧ logReadFail c (atTime t s) = none) ∧
    (∃ t : Nat, ∃ c : Cmd, ∃ s : State, ∃ bs : List Byte, ∃ v, Taken { op := 0x0105, argw := 5, states := [.ready] } t c s ∧ unlockFail c (atTime t s) = none ∧ fetch 7 (cmdDword c 1) (cmdNat c 3) (atTime t s) = (.bytes bs, v) ∧ crc32c bs = c.w 4) ∧
    (∃ t : Nat, ∃ c : Cmd, ∃ s : State, ∃ bs : List Byte, ∃ v, Taken { op := 0x0106, argw := 4, states := [.ready] } t c s ∧ lifecycleFail c (atTime t s) = none ∧ fetch 7 (cmdDword c 1) (cmdNat c 3) (atTime t s) = (.bytes bs, v) ∧ crc32c bs = c.w 4) ∧
    (∃ t : Nat, ∃ c : Cmd, ∃ s : State, Taken { op := 0x0201, argw := 7, states := [.ready, .fault], held := true } t c s ∧ imgWriteFail c (atTime t s) = none ∧ s.dev ≠ .held ∧ addrSpace (cmdDword c 4) ≠ 3) ∧
    (∃ t : Nat, ∃ c : Cmd, ∃ s : State, Taken { op := 0x0201, argw := 7, states := [.ready, .fault], held := true } t c s ∧ imgWriteFail c (atTime t s) = none ∧ s.dev = .held) ∧
    (∃ t : Nat, ∃ q : Queue, ∃ o : OpenCmd, ∃ s : State, ∃ bs : List Byte, ∃ v, ∃ w, Open 0x0201 q o t s ∧ (if usesBuffer (atTime t s) then (Fetched.bytes (Memory.readN 0 s.stage (cmdDword o.cmd 4) (cmdNat o.cmd 6)), atTime t s) else dmaFetch (cmdDword o.cmd 4) (cmdNat o.cmd 6) (atTime t s)) = (.bytes bs, v) ∧ claimUnit3 o (doneWith (cmdDword o.cmd 4) (cmdNat o.cmd 6) v) = .ok w) ∧
    (∃ t : Nat, ∃ q : Queue, ∃ o : OpenCmd, ∃ s : State, Open 0x0203 q o t s) :=
  ⟨⟨0, cmd .q0 [2, 0, 4], rdy, by unfold Taken; decide +kernel⟩,
   ⟨0, cmd .q0 [0, 0, 0, crc0 0], rdy, [], _, by unfold Taken; decide +kernel, by decide +kernel, pairOf (by decide +kernel), by decide +kernel⟩,
   ⟨0, cmd .q0 [0, 0, 0, crc0 0], rdy, [], _, by unfold Taken; decide +kernel, by decide +kernel, pairOf (by decide +kernel), by decide +kernel⟩,
   ⟨0, cmd .q0 [1, 1, 0, 0, 0, 64], rdy, by unfold Taken; decide +kernel⟩,
   ⟨0, cmd .q0 [1, 1, 0, 0, 0, 64], { rdy with dev := .held }, by unfold Taken; decide +kernel⟩,
   ⟨0, .q0, opn 0x0201 [1, 1, 0, 0, 0, 4], wopn (opn 0x0201 [1, 1, 0, 0, 0, 4]), List.replicate 4 0, _, _, by unfold Open; decide +kernel, pairOf (by decide +kernel), unitOf (by decide +kernel)⟩,
   ⟨0, .q0, opn 0x0203 [], wopn (opn 0x0203 []), by unfold Open; decide +kernel⟩⟩

theorem witness_TableCommandsComplete :
    (∃ t : Nat, ∃ c : Cmd, ∃ s : State, Taken { op := 0x0301, argw := 6, states := [.ready] } t c s ∧ chGeometryFail c (atTime t s) = none) ∧
    (∃ t : Nat, ∃ c : Cmd, ∃ s : State, Taken { op := 0x0302, argw := 4, states := [.ready] } t c s ∧ chSegmentFail c (atTime t s) = none) ∧
    (∃ t : Nat, ∃ c : Cmd, ∃ s : State, ∃ i, Taken { op := 0x0303, argw := 7, states := activeStates } t c s ∧ tblLoadFail c (atTime t s) = none ∧ stagingArea (cmdDword c 3) (cmdNat c 5) (atTime t s) = some i) ∧
    (∃ t : Nat, ∃ c : Cmd, ∃ s : State, Taken { op := 0x0304, argw := 5, states := activeStates } t c s ∧ tblCommitFail c (atTime t s) = none ∧ s.dev = .ready) ∧
    (∃ t : Nat, ∃ c : Cmd, ∃ s : State, ∃ y, Taken { op := 0x0304, argw := 5, states := activeStates } t c s ∧ tblCommitFail c (atTime t s) = none ∧ s.dev ≠ .ready ∧ commitLine c (atTime t s) = some y) ∧
    (∃ t : Nat, ∃ c : Cmd, ∃ s : State, Taken { op := 0x0305, argw := 7, states := anyState } t c s ∧ tblReadFail c (atTime t s) = none) ∧
    (∃ t : Nat, ∃ c : Cmd, ∃ s : State, Taken { op := 0x0306, argw := 4, states := activeStates } t c s ∧ jetStatusFail c (atTime t s) = none) :=
  ⟨⟨0, cmd .q0 [3, 65536, 64, 4, 0xFF, 0xFF], rdy, by unfold Taken; decide +kernel⟩,
   ⟨0, cmd .q0 [0, 127, 61440 + 4032, 64], conf, by unfold Taken; decide +kernel⟩,
   ⟨0, cmd .q0 [0, 3, 0x1000000, 0, 8, 0, 0], conf, 0, by unfold Taken; decide +kernel⟩,
   ⟨0, cmd .q0 [0, 8, 0, 0], conf, by unfold Taken; decide +kernel⟩,
   ⟨0, cmd .q0 [0, 8, 1, 0, 4], inDev .paused, 4, by unfold Taken; decide +kernel⟩,
   ⟨0, cmd .q0 [3, 3, 0, 0, 0, 8, 0], conf, by unfold Taken; decide +kernel⟩,
   ⟨0, cmd .q0 [0, 65535, 1, 3], conf, by unfold Taken; decide +kernel⟩⟩

theorem witness_TableCompletionsComplete :
    (∃ t : Nat, ∃ q : Queue, ∃ o : OpenCmd, ∃ s : State, ∃ bs : List Byte, ∃ v, ∃ w, Open 0x0303 q o t s ∧ o.lockLost = false ∧ dmaFetch (cmdDword o.cmd 3) (cmdNat o.cmd 5) (atTime t s) = (.bytes bs, v) ∧ entryDetail (Tables.setBytes (cmdNat o.cmd 2) (cmdNat o.cmd 7 * entrySize (cmdNat o.cmd 2)) bs (v.chan (cmdNat o.cmd 1)).inactive) (cmdNat o.cmd 2) (cmdNat o.cmd 7 * entrySize (cmdNat o.cmd 2)) bs.length (v.chan (cmdNat o.cmd 1)).b = none ∧ claimUnit3 o v = .ok w) ∧
    (∃ t : Nat, ∃ ch : Chan, ∃ y, ∃ T, ∃ s : State, Awake t s ∧ (s.chan ch).next = some (y, T) ∧ s.dev = .ready) ∧
    (∃ t : Nat, ∃ ch : Chan, ∃ y : Int, ∃ f : Int, ∃ T, ∃ s : State, Awake t s ∧ (s.chan ch).next = some (y, T) ∧ (atTime t s).front = some f ∧ (∀ k : Nat, k < 4 → (atTime t s).dueBy (4 * ch.val + k) y f = true)) ∧
    (∃ t : Nat, ∃ ch : Chan, ∃ o : OpenCmd, ∃ s : State, Awake t s ∧ (s.chan ch).next = none ∧ (s.chan ch).waitSeg = none ∧ (s.fw.opens.find? fun o => decide (o.op = 0x0304 ∧ o.data.head? = some ch.val)) = some o) ∧
    (∃ t : Nat, ∃ q : Queue, ∃ o : OpenCmd, ∃ s : State, Open 0x0305 q o t s) ∧
    (∃ t : Nat, ∃ ch : Chan, ∃ tab : Fin 4, ∃ s : State, ∃ v, Awake t s ∧ s.fw.running = true ∧ s.get R.glbBootstat_PHASE = 9 ∧ s.copying ch tab = false ∧ claimFor true 0 3 (atTime t s) = (true, v)) ∧
    (∃ t : Nat, ∃ ch : Chan, ∃ tab : Fin 4, ∃ s : State, ∃ u : Nat, Awake t s ∧ s.fw.running = true ∧ s.get R.glbBootstat_PHASE = 9 ∧ s.owner true 0 ≠ 0 ∧ s.owner true 0 ≠ 3 ∧ s.scans.lookup (4 * ch.val + tab.val) = some (u, false) ∧ u + 100000000000 < (atTime t s).now) :=
  ⟨⟨0, .q0, opn 0x0303 [0, 3, 0x1000000, 0, 8, crc0 8, 0], wopn (opn 0x0303 [0, 3, 0x1000000, 0, 8, crc0 8, 0]), List.replicate 8 0, _, _, by unfold Open; decide +kernel, by decide +kernel, pairOf (by decide +kernel), by decide +kernel, unitOf (by decide +kernel)⟩,
   ⟨0, 0, 4, {}, conf.setChan 0 { configured := true, n := 64, l := 4, b := 1, next := some (4, {}) }, by decide +kernel⟩,
   ⟨0, 0, 4, 999, {}, { (conf.setChan 0 { configured := true, n := 64, l := 4, b := 1, next := some (4, {}) }) with job := some { aJob with y0 := some 0, stoppedAt := 1000 } }, by decide +kernel⟩,
   ⟨0, 0, opn 0x0304 [] [0], wopn (opn 0x0304 [] [0]), by decide +kernel⟩,
   ⟨0, .q0, opn 0x0305 [], wopn (opn 0x0305 []), by unfold Open; decide +kernel⟩,
   ⟨0, 0, 0, rdy, _, by decide +kernel, by decide +kernel, by decide +kernel, by decide +kernel, pairOf (by decide +kernel)⟩,
   ⟨100000000001, 3, 3, { rdy.put R.glbClaim1_CRC3 5 with scans := [(15, (0, false))] }, 0, by decide +kernel⟩⟩

theorem witness_JobCommandsComplete :
    (∃ t : Nat, ∃ c : Cmd, ∃ s : State, Taken { op := 0x0401, argw := 4, states := [.ready] } t c s ∧ jobDefineFail c (atTime t s) = none) ∧
    (∃ t : Nat, ∃ c : Cmd, ∃ j, ∃ s : State, Taken { op := 0x0404, argw := 3, states := [.armed] } t c s ∧ jobStartFail c (atTime t s) = none ∧ s.job = some j ∧ cmdNat c 3 = 0) ∧
    (∃ t : Nat, ∃ c : Cmd, ∃ j, ∃ s : State, Taken { op := 0x0404, argw := 3, states := [.armed] } t c s ∧ jobStartFail c (atTime t s) = none ∧ s.job = some j ∧ cmdNat c 3 = 1) ∧
    (∃ t : Nat, ∃ c : Cmd, ∃ j, ∃ s : State, Taken { op := 0x0405, argw := 2, states := [.printing, .paused] } t c s ∧ s.job = some j ∧ s.dev = .paused) ∧
    (∃ t : Nat, ∃ c : Cmd, ∃ j, ∃ s : State, Taken { op := 0x0405, argw := 2, states := [.printing, .paused] } t c s ∧ s.job = some j ∧ s.dev = .printing ∧ j.pauseAt = none ∧ j.haltAt = none) ∧
    (∃ t : Nat, ∃ c : Cmd, ∃ j, ∃ s : State, Taken { op := 0x0406, argw := 2, states := [.paused] } t c s ∧ jobResumeFail c (atTime t s) = none ∧ s.job = some j) ∧
    (∃ t : Nat, ∃ c : Cmd, ∃ j, ∃ s : State, Taken { op := 0x0407, argw := 1, states := activeStates, needsJob := true } t c s ∧ s.job = some j ∧ j.id = c.w 1) ∧
    (∃ t : Nat, ∃ c : Cmd, ∃ s : State, Taken { op := 0x0408, argw := 0, states := [.armed] } t c s) ∧
    (∃ t : Nat, ∃ c : Cmd, ∃ s : State, Taken { op := 0x0403, argw := 2, states := [.ready], needsJob := true } t c s ∧ jobArmFail c (atTime t s) = none) ∧
    (∃ t : Nat, ∃ q : Queue, ∃ o : OpenCmd, ∃ j, ∃ s : State, Open 0x0403 q o t s ∧ s.job = some j ∧ j.id = o.cmd.w 1 ∧ s.cadLocked = true ∧ s.dev = .ready ∧ (maskList 16 (cmdNat o.cmd 2)).filter (atTime t s).armable = maskList 16 (cmdNat o.cmd 2)) :=
  ⟨⟨0, cmd .q0 [7, 1, 15, 0], conf, by unfold Taken; decide +kernel⟩,
   ⟨0, cmd .q0 [6, 0, 0], aJob, inDev .armed, by unfold Taken; decide +kernel⟩,
   ⟨0, cmd .q0 [6, 0, 1], aJob, inDev .armed |>.setSeg 0 0 { width := 64, pageLen := 4, src := 1 }, by unfold Taken; decide +kernel⟩,
   ⟨0, cmd .q0 [], aJob, inDev .paused, by unfold Taken; decide +kernel⟩,
   ⟨0, cmd .q0 [], aJob, inDev .printing, by unfold Taken; decide +kernel⟩,
   ⟨0, cmd .q0 [6, 0], aJob, inDev .paused, by unfold Taken; decide +kernel⟩,
   ⟨0, cmd .q0 [7], aJob, inDev .printing, by unfold Taken; decide +kernel⟩,
   ⟨0, cmd .q0 [], inDev .armed, by unfold Taken; decide +kernel⟩,
   ⟨0, cmd .q0 [7, 1], (((inDev .ready).put R.rdgLock_LOCK 1).put R.cadFirecfg_MINPER 65535).setChan 0 { configured := true, n := 64, l := 4, b := 1, active := { takeover := [(16, 1)] } }, by unfold Taken; decide +kernel⟩,
   ⟨0, .q0, opn 0x0403 [7, 1], aJob, wopn (opn 0x0403 [7, 1]) { ported (inDev .ready) with cad := { rdy.cad with locked := true } }, by unfold Open; decide +kernel⟩⟩

theorem witness_PostsAndLibraryComplete :
    (∃ t : Nat, ∃ c : Cmd, ∃ s : State, ∃ bs : List Byte, ∃ v, Taken { op := 0x0402, argw := 7, states := activeStates, needsJob := true } t c s ∧ jobPostFail c (atTime t s) = none ∧ postForm c = 0 ∧ dmaFetch (cmdDword c 4) (postLen c) (if addrSpace (cmdDword c 4) = 3 then requestFar (addrMember (cmdDword c 4)) (addrIn (cmdDword c 4)) (postLen c) (atTime t s) else atTime t s) = (.bytes bs, v)) ∧
    (∃ t : Nat, ∃ c : Cmd, ∃ s : State, ∃ e, Taken { op := 0x0402, argw := 7, states := activeStates, needsJob := true } t c s ∧ jobPostFail c (atTime t s) = none ∧ postForm c = 2 ∧ s.lib.lookup (cmdNat c 4) = some e) ∧
    (∃ t : Nat, ∃ c : Cmd, ∃ s : State, Taken { op := 0x0402, argw := 7, states := activeStates, needsJob := true } t c s ∧ jobPostFail c (atTime t s) = none ∧ postForm c = 3) ∧
    (∃ t : Nat, ∃ c : Cmd, ∃ s : State, Taken { op := 0x0409, argw := 2, states := anyState } t c s ∧ cmdNat c 1 ≤ 3 ∧ cmdNat c 2 ≤ 127) ∧
    (∃ t : Nat, ∃ c : Cmd, ∃ s : State, Taken { op := 0x040A, argw := 5, states := activeStates } t c s ∧ libStoreFail c (atTime t s) = none ∧ (bitOf (cmdNat c 1) 31 = true ∨ cmdNat c 4 = 0)) ∧
    (∃ t : Nat, ∃ c : Cmd, ∃ s : State, ∃ i : Nat, ∃ h : List Byte, ∃ v, Taken { op := 0x040A, argw := 5, states := activeStates } t c s ∧ libStoreFail c (atTime t s) = none ∧ bitOf (cmdNat c 1) 31 = false ∧ cmdNat c 4 ≠ 0 ∧ stagingArea (cmdDword c 2) (cmdNat c 4) (atTime t s) = some i ∧ dramRead 7 (addrIn (cmdDword c 2)) 16 (atTime t s) = (some h, v) ∧ libHeaderOk h (cmdNat c 4) = true ∧ ((atTime t s).libPlace (cmdNat c 1 % 4096) (16 + fieldAt h 8 4)).isSome) ∧
    (∃ t : Nat, ∃ q : Queue, ∃ o : OpenCmd, ∃ s : State, Open 0x040A q o t s ∧ bitOf (cmdNat o.cmd 1) 31 = false ∧ (atTime t s).libUsed (cmdNat o.cmd 1 % 4096) = false ∧ cmdNat o.cmd 4 = 0) ∧
    (∃ t : Nat, ∃ q : Queue, ∃ o : OpenCmd, ∃ s : State, ∃ bs : List Byte, ∃ v, ∃ w, Open 0x040A q o t s ∧ bitOf (cmdNat o.cmd 1) 31 = false ∧ (atTime t s).libUsed (cmdNat o.cmd 1 % 4096) = false ∧ cmdNat o.cmd 4 ≠ 0 ∧ o.lockLost = false ∧ dmaFetch (cmdDword o.cmd 2) (cmdNat o.cmd 4) (atTime t s) = (.bytes bs, v) ∧ claimUnit3 o v = .ok w) ∧
    (∃ t : Nat, ∃ q : Queue, ∃ o : OpenCmd, ∃ s : State, ∃ bs : List Byte, ∃ v, ∃ w, ∃ x, Open 0x040A q o t s ∧ bitOf (cmdNat o.cmd 1) 31 = true ∧ o.lockLost = false ∧ dmaFetch (cmdDword o.cmd 2) (cmdNat o.cmd 4) (atTime t s) = (.bytes bs, v) ∧ claimUnit3 o v = .ok w ∧ w.lib.lookup (cmdNat o.cmd 1 % 4096) = some x ∧ x.stored + cmdNat o.cmd 4 ≤ x.streamLen) ∧
    (∃ t : Nat, ∃ c : Cmd, ∃ s : State, Taken { op := 0x040B, argw := 2, states := [.ready], needsJob := true } t c s ∧ jobRestoreFail c (atTime t s) = none ∧ snapsFail c (readSnaps (cmdNat c 2) (atTime t s)).1 (readSnaps (cmdNat c 2) (atTime t s)).2 = none) ∧
    (∃ t q o j, ∃ s : State, Open 0x040B q o t s ∧
    let snaps := readSnaps (cmdNat o.cmd 2) (atTime t s)
    snapsFail o.cmd snaps.1 snaps.2 = none ∧
    let segs := snaps.2.jobSegs
    let r := forEach segs snaps.2 fun e x => loadSnap e.1 e.2 (cmdNat o.cmd 2) x
    let jc := segs.foldl (fun (m : Int) e => max m (r.seg e.1 e.2).y) ((segs.head?.map fun e => (r.seg e.1 e.2).y).getD 0)
    let d := forEach segs r fun e x => decodeTo ((jc - (x.seg e.1 e.2).y).toNat + 1) e.1 e.2 jc x
    d.job = some j ∧ (∀ e ∈ segs, (d.seg e.1 e.2).ends = [] ∧ (d.seg e.1 e.2).y = jc)) :=
  ⟨⟨0, cmd .q0 [0, 0, 0, 0, 0, 4, 1], inDev .ready, List.replicate 4 0, _, by unfold Taken; decide +kernel, by decide +kernel, by decide +kernel, pairOf (by decide +kernel)⟩,
   ⟨0, cmd .q0 [0, 0, 0, 4095, 0, 2 ^ 31, 65535], { inDev .ready with lib := [(4095, { width := 64, lines := 4, streamLen := 1, stored := 1, addr := 0 })] }, { width := 64, lines := 4, streamLen := 1, stored := 1, addr := 0 }, by unfold Taken; decide +kernel⟩,
   ⟨0, cmd .q0 [0, 0, 0, 0, 0, 3 * 2 ^ 30, 0], inDev .ready, by unfold Taken; decide +kernel⟩,
   ⟨0, cmd .q0 [3, 127], rdy, by unfold Taken; decide +kernel⟩,
   ⟨0, cmd .q0 [4095, 0, 0, 0, 0], rdy, by unfold Taken; decide +kernel⟩,
   ⟨0, cmd .q0 [4095, 0x1000000, 0, 20, 0], dramWrite 5 0x1000000 (leBytes 4 64 ++ leBytes 4 1 ++ leBytes 4 4 ++ leBytes 4 0 ++ List.replicate 48 0) conf, 0, leBytes 4 64 ++ leBytes 4 1 ++ leBytes 4 4 ++ leBytes 4 0, _, by unfold Taken; decide +kernel, by decide +kernel, by decide +kernel, by decide +kernel, by decide +kernel, pairOf (by decide +kernel), by decide +kernel, by decide +kernel⟩,
   ⟨0, .q0, opn 0x040A [4095], wopn (opn 0x040A [4095]), by unfold Open; decide +kernel⟩,
   ⟨0, .q0, opn 0x040A [5, 0x1000000, 0, 4, crc0 4], wopn (opn 0x040A [5, 0x1000000, 0, 4, crc0 4]), List.replicate 4 0, _, _, by unfold Open; decide +kernel, by decide +kernel, by decide +kernel, by decide +kernel, by decide +kernel, pairOf (by decide +kernel), unitOf (by decide +kernel)⟩,
   ⟨0, .q0, opn 0x040A [0x80000005, 0x1000000, 0, 4, crc0 4], wopn (opn 0x040A [0x80000005, 0x1000000, 0, 4, crc0 4]) { conf with lib := [(5, { width := 64, lines := 4, streamLen := 8, stored := 4, addr := 0 })] }, List.replicate 4 0, _, _, { width := 64, lines := 4, streamLen := 8, stored := 4, addr := 0 }, by unfold Open; decide +kernel, by decide +kernel, by decide +kernel, pairOf (by decide +kernel), unitOf (by decide +kernel), by decide +kernel, by decide +kernel⟩,
   ⟨0, cmd .q0 [7, 1], { rdy with job := some aJob, kept := [(0, { posts := [], postPage := 0, postLines := 0, endPage := none })] }, by unfold Taken; decide +kernel⟩,
   ⟨0, .q0, opn 0x040B [7], aJob, wopn (opn 0x040B [7]) { rdy with job := some aJob }, by unfold Open; decide +kernel⟩⟩

theorem witness_CadenceCommandsComplete :
    (∃ t : Nat, ∃ c : Cmd, ∃ s : State, Taken { op := 0x0501, argw := 4, states := [.ready] } t c s ∧ cadConfigFail c (atTime t s) = none ∧ (cmdNat c 1 = 1 → (claimFor false 0 2 (atTime t s)).1 = true)) ∧
    (∃ t : Nat, ∃ c : Cmd, ∃ s : State, Taken { op := 0x0502, argw := 4, states := [.ready] } t c s ∧ cadSpeedFail c (atTime t s) = none) ∧
    (∃ t : Nat, ∃ c : Cmd, ∃ s : State, Taken { op := 0x0503, argw := 8, states := [.ready] } t c s ∧ cadMarkFail c (atTime t s) = none ∧ (cmdNat c 3 = 2 → (claimFor false 1 2 (atTime t s)).1 = true)) ∧
    (∃ t : Nat, ∃ c : Cmd, ∃ s : State, Taken { op := 0x0504, argw := 0, states := anyState } t c s) ∧
    (∃ t : Nat, ∃ s : State, Awake t s) :=
  ⟨⟨0, cmd .q0 [1, 0x100000, 15, 1], rdy, by unfold Taken; decide +kernel⟩,
   ⟨0, cmd .q0 [1048575, 1000, 256, 65535], rdy, by unfold Taken; decide +kernel⟩,
   ⟨0, cmd .q0 [0, 127, 2, 7, 1, 0, 1, 16777215], conf, by unfold Taken; decide +kernel⟩,
   ⟨0, cmd .q0 [], rdy, by unfold Taken; decide +kernel⟩,
   ⟨0, rdy, by decide +kernel⟩⟩

theorem witness_CadenceEventsAct :
    (∃ t : Nat, ∃ s : State, Awake t s ∧ s.cad.selected ≠ none ∧ s.cad.locked = false ∧ s.follows = false ∧ (atTime t s).cad.lockFrom + 1000000000 ≤ (atTime t s).now) ∧
    (∃ t : Nat, ∃ enc, ∃ a, ∃ b, ∃ s : State, Awake t s ∧ s.counts enc = true ∧ ¬(s.cad.a = a ∧ s.cad.b = b) ∧ armedFor 10 (b2n enc) s = false ∧ armedFor 11 (b2n enc) s = false ∧ armedFor 12 (b2n enc) s = false) ∧
    (∃ t : Nat, ∃ enc, ∃ s : State, Awake t s ∧ s.counts enc = true) ∧
    (∃ t : Nat, ∃ s : State, Awake t s ∧ s.follows = false ∧ s.cad.still = false ∧ (2 ^ 20 ≤ (atTime t s).tick - s.cad.tc ∨ ∃ p, s.cad.tc8 = some p ∧ p ≤ ((atTime t s).tick - s.cad.tc) * 16)) ∧
    (∃ t : Nat, ∃ s : State, Awake t s) ∧
    (∃ t : Nat, ∃ s : State, Awake t s ∧ s.owner false 1 = 2) ∧
    (∃ t : Nat, ∃ ch : Chan, ∃ g : Seg, ∃ ye, ∃ s : State, Awake t s ∧ (s.seg ch g).ye = some ye ∧ (s.dev = .printing ∨ s.dev = .armed) ∧ s.inJob ch (s.seg ch g) = true ∧ (atTime t s).fixLine ch g ye ≤ (atTime t s).fire) ∧
    (∃ t : Nat, ∃ s : State, Awake t s ∧ s.cad.everLocked = true ∧ (atTime t s).reached (s.cad.line + 1) 0 = true) :=
  ⟨⟨1000000000, { rdy with cad := { rdy.cad with selected := some false } }, by decide +kernel⟩,
   ⟨0, false, true, false, { rdy with cad := { rdy.cad with selected := some false } }, by decide +kernel⟩,
   ⟨0, false, { rdy with cad := { rdy.cad with selected := some false } }, by decide +kernel⟩,
   ⟨2621440000, { rdy with cad := { rdy.cad with still := false } }, by decide +kernel⟩,
   ⟨0, rdy, by decide +kernel⟩,
   ⟨0, rdy.setReg ⟨.glbClaim0, 0, 0⟩ 0x20, by decide +kernel⟩,
   ⟨0, 0, 0, 0, { inDev .printing with cad := { rdy.cad with line := 4 } } |>.setSeg 0 0 { width := 64, pageLen := 4, ye := some 0 }, by decide +kernel⟩,
   ⟨0, { rdy with cad := { rdy.cad with everLocked := true, pos := 1 } }, by decide +kernel⟩⟩

theorem witness_CadenceChainActs :
    (∃ t : Nat, ∃ s : State, Awake t s ∧ s.get R.cadCtrl_ROLE = 1 ∧ s.lineLocked = true ∧ (∀ u, s.fab.recAt = some u → u + 250000 ≤ (atTime t s).now)) ∧
    (∃ t : Nat, ∃ s : State, Awake t s ∧ (atTime t s).kicking = false ∧ s.fw.running = true) ∧
    (∃ t : Nat, ∃ s : State, Awake t s ∧ (atTime t s).kicking = false ∧ s.fw.running = true) ∧
    (∃ t : Nat, ∃ s : State, Awake t s ∧ (atTime t s).kicking = false ∧ s.fw.running = true) ∧
    (∃ t : Nat, ∃ s : State, Awake t s ∧ s.follows = true ∧ s.cad.held = none ∧ s.cad.followFrom + 8000000 ≤ (atTime t s).now ∧ (∀ r, s.cad.rcd = some r → r.arrived + 8000000 ≤ (atTime t s).now)) :=
  ⟨⟨0, { (rdy.put R.cadCtrl_ROLE 1).put R.fabState_MODE 2 with cad := { rdy.cad with locked := true } }, by decide +kernel⟩,
   ⟨0, rdy, by decide +kernel⟩,
   ⟨0, rdy, by decide +kernel⟩,
   ⟨0, rdy, by decide +kernel⟩,
   ⟨8000000, { rdy.put R.cadCtrl_ROLE 2 with cad := { rdy.cad with rcd := some { tc := 0, pos := 0, hw := 0, period := 256, fw := .track, down := false, markPos := 0, markSeq := 0, arrived := 0 } } }, by decide +kernel⟩⟩

theorem witness_HeadCommandsComplete :
    (∃ t : Nat, ∃ c : Cmd, ∃ s : State, Taken { op := 0x0601, argw := 5, states := [.ready] } t c s ∧ hpConfigFail c (atTime t s) = none) ∧
    (∃ t : Nat, ∃ c : Cmd, ∃ s : State, Taken { op := 0x0602, argw := 5, states := [.ready] } t c s ∧ hpRowgroupFail c (atTime t s) = none) ∧
    (∃ t : Nat, ∃ c : Cmd, ∃ s : State, Taken { op := 0x0603, argw := 4, states := [.ready, .armed] } t c s ∧ hpStrobeFail c (atTime t s) = none) ∧
    (∃ t : Nat, ∃ c : Cmd, ∃ s : State, ∃ i, Taken { op := 0x0604, argw := 5, states := [.ready, .armed] } t c s ∧ hpTemptableFail c (atTime t s) = none ∧ stagingArea (cmdDword c 2) 64 (atTime t s) = some i) ∧
    (∃ t : Nat, ∃ q : Queue, ∃ o : OpenCmd, ∃ s : State, ∃ bs : List Byte, ∃ v, Open 0x0604 q o t s ∧ o.lockLost = false ∧ dmaFetch (cmdDword o.cmd 2) 64 (atTime t s) = (.bytes bs, v) ∧ crc32c bs = o.cmd.w 5) ∧
    (∃ t : Nat, ∃ c : Cmd, ∃ s : State, Taken { op := 0x0605, argw := 2, states := [.ready] } t c s ∧ hpLinkFail c (atTime t s) = none ∧ cmdNat c 2 = 0) ∧
    (∃ t : Nat, ∃ c : Cmd, ∃ s : State, Taken { op := 0x0605, argw := 2, states := [.ready] } t c s ∧ hpLinkFail c (atTime t s) = none ∧ cmdNat c 2 = 1) ∧
    (∃ t : Nat, ∃ q : Queue, ∃ o : OpenCmd, ∃ s : State, Open 0x0605 q o t s ∧ cmdNat o.cmd 2 = 0) ∧
    (∃ t : Nat, ∃ q : Queue, ∃ o : OpenCmd, ∃ s : State, Open 0x0605 q o t s ∧ cmdNat o.cmd 2 ≠ 0 ∧ s.flag R.hptPstat_LINKUP (cmdNat o.cmd 1) = true ∧ ((∀ m, m < s.get R.hptPcfg_MODULES (cmdNat o.cmd 1) → bitOf (s.port (cmdNat o.cmd 1)).answered m = true) ∨ (s.port (cmdNat o.cmd 1)).askedAt + 10000000000 ≤ (atTime t s).now)) :=
  ⟨⟨0, cmd .q0 [15, 2, 8, 131071, 65535], rdy, by unfold Taken; decide +kernel⟩,
   ⟨0, cmd .q0 [15, 7, 63, 3, 1023], rdy, by unfold Taken; decide +kernel⟩,
   ⟨0, cmd .q0 [15, 3, 16, 1000], rdy, by unfold Taken; decide +kernel⟩,
   ⟨0, cmd .q0 [15, 0x1000000, 0, 64, 0], conf, 0, by unfold Taken; decide +kernel⟩,
   ⟨0, .q0, opn 0x0604 [15, 0x1000000, 0, 64, crc0 64], wopn (opn 0x0604 [15, 0x1000000, 0, 64, crc0 64]), List.replicate 64 0, _, by unfold Open; decide +kernel, by decide +kernel, pairOf (by decide +kernel), by decide +kernel⟩,
   ⟨0, cmd .q0 [15, 0], rdy, by unfold Taken; decide +kernel⟩,
   ⟨0, cmd .q0 [0, 1], rdy, by unfold Taken; decide +kernel⟩,
   ⟨0, .q0, opn 0x0605 [0, 0], wopn (opn 0x0605 [0, 0]), by unfold Open; decide +kernel⟩,
   ⟨0, .q0, opn 0x0605 [0, 1], wopn (opn 0x0605 [0, 1]) (ported conf), by unfold Open; decide +kernel⟩⟩

theorem witness_LedgerCommandsComplete :
    (∃ t : Nat, ∃ c : Cmd, ∃ s : State, Taken { op := 0x0606, argw := 4, states := [.ready] } t c s ∧ ledgerConfigFail c (atTime t s) = none ∧ s.ledger.was = none) ∧
    (∃ t : Nat, ∃ c : Cmd, ∃ a, ∃ n : Nat, ∃ wr, ∃ rd, ∃ s : State, Taken { op := 0x0606, argw := 4, states := [.ready] } t c s ∧ ledgerConfigFail c (atTime t s) = none ∧ s.ledger.was = some (a, n, wr, rd) ∧ a = cmdDword c 1 ∧ n = cmdNat c 3) ∧
    (∃ t : Nat, ∃ c : Cmd, ∃ s : State, Taken { op := 0x0607, argw := 1, states := anyState } t c s ∧ ledgerAdvanceFail c (atTime t s) = none) ∧
    (∃ t : Nat, ∃ s : State, Awake t s) ∧
    (∃ t : Nat, ∃ s : State, ∃ since, Awake t s ∧ s.ledger.freshSince = some since ∧ since + 10000000000 ≤ (atTime t s).now) :=
  ⟨⟨0, cmd .q0 [33554432, 0, 1015808], rdy, by unfold Taken; decide +kernel⟩,
   ⟨0, cmd .q0 [33554432, 0, 1015808], 33554432, 1015808, 0, 0, { rdy with ledger := { rdy.ledger with was := some (33554432, 1015808, 0, 0) } }, by unfold Taken; decide +kernel⟩,
   ⟨0, cmd .q0 [0], rdy, by unfold Taken; decide +kernel⟩,
   ⟨0, rdy, by decide +kernel⟩,
   ⟨10000000000, { rdy with ledger := { rdy.ledger with freshSince := some 0 } }, 0, by decide +kernel⟩⟩

theorem witness_FiringActs :
    (∃ t : Nat, ∃ p : Port, ∃ x, ∃ s : State, Awake t s ∧ s.flag R.hptPstat_ARMED p = true ∧ s.flag R.hptPstat_LINKUP p = true ∧ ((let u := atTime t s
        let f := u.frameLine p
        u.laneTested p = false ∧ u.frameWanted f = true ∧ (∀ y, (s.port p).frame = some y → y.f < f) ∧ u.startOf f = some x ∧
        x ≤ u.now + u.sosWindow p ∧ u.codesWait p f = false ∧ u.strobesBusy p f = false))) ∧
    (∃ t : Nat, ∃ p : Port, ∃ x, ∃ s : State, Awake t s ∧ armedFor 17 p s = false ∧ (s.port p).frame = some x ∧ (atTime t s).awaits p = true) ∧
    (∃ t : Nat, ∃ p : Port, ∃ s : State, Awake t s ∧ armedFor 17 p s = false ∧ (s.port p).frame = none) ∧
    (∃ t : Nat, ∃ p : Port, ∃ x, ∃ l, ∃ s : State, Awake t s ∧ (s.port p).frame = some x ∧ s.cad.cur = some l ∧ l.f = x.f ∧ l.fired < (atTime t s).now + 37500 ∧ s.printing = true) ∧
    (∃ t : Nat, ∃ p : Port, ∃ k : StrobeIx, ∃ l, ∃ s : State, Awake t s ∧ (atTime t s).strobeLine p k = some l ∧ s.fwNow ≠ .reversed) ∧
    (∃ t : Nat, ∃ p : Port, ∃ k : StrobeIx, ∃ s : State, Awake t s ∧ (s.strobe p k).genHigh = true ∧ (s.strobe p k).riseAt + (s.strobe p k).width * 1250 ≤ (atTime t s).now) ∧
    (∃ t : Nat, ∃ p : Port, ∃ k : StrobeIx, ∃ m, ∃ s : State, Awake t s ∧ wdFault (atTime t s) p k = false ∧ meets 24 (4 * p + k) ((s.strobe p k).high && decide ((s.strobe p k).riseAt + s.get R.rdgPortTime_WDLIM p * 2500 < (atTime t s).now)) (atTime t s) = (true, m)) ∧
    (∃ t : Nat, ∃ s : State, Awake t s ∧ (∀ e r, (s.port 0).widths = e :: r → e.1 + 1000000000 ≤ (atTime t s).now)) ∧
    (∃ t : Nat, ∃ p : Port, ∃ s : State, Awake t s ∧ (s.flag R.hptPstat_ARMED p = true ∨ bitOf (s.get R.rdgHpen_GRANT) p = true) ∧ (s.port p).thetaAt + 5000000000 ≤ (atTime t s).now) :=
  ⟨⟨9000000, 0, 9100000, { ((ported (inDev .printing { aJob with startLine := some 0 })).put R.hptPstat_ARMED 1) with cad := { rdy.cad with cur := some { f := 1, trigger := 9100000, fired := 9100000, dropped := false, ctTrig := 0, ctFired := 0 } } }, by decide +kernel⟩,
   ⟨0, 0, { f := 1, awaiting := true, confirmed := false, sosAt := none, judged := false }, conf.setPort 0 { conf := true, frame := some { f := 1, awaiting := true, confirmed := false, sosAt := none, judged := false } }, by decide +kernel⟩,
   ⟨0, 0, rdy, by decide +kernel⟩,
   ⟨965000, 0, { f := 1, awaiting := true, confirmed := false, sosAt := none, judged := false }, { f := 1, trigger := 1000000, fired := 1000000, dropped := false, ctTrig := 0, ctFired := 0 }, { inDev .printing { aJob with printing := true } with cad := { rdy.cad with cur := some { f := 1, trigger := 1000000, fired := 1000000, dropped := false, ctTrig := 0, ctFired := 0 } } } |>.setPort 0 { conf := true, frame := some { f := 1, awaiting := true, confirmed := false, sosAt := none, judged := false } }, by decide +kernel⟩,
   ⟨1000000, 0, 0, { f := 1, trigger := 1000000, fired := 1000000, dropped := false, ctTrig := 0, ctFired := 0 }, ({ ((ported (inDev .printing { aJob with printing := true })).put R.hptPstat_ARMED 1) with cad := { rdy.cad with pos := 64, cur := some { f := 1, trigger := 1000000, fired := 1000000, dropped := false, ctTrig := 0, ctFired := 0 } } }).setChan 0 { active := { jets := [(0, 2 ^ 16)] } }, by decide +kernel⟩,
   ⟨20000, 0, 0, rdy.setPort 0 { rdy.port 0 with strobes := [(0, { high := true, genHigh := true, riseAt := 0, width := 16 })] }, by decide +kernel⟩,
   ⟨40000001, 0, 0, _, rdy.setPort 0 { rdy.port 0 with strobes := [(0, { high := true, genHigh := true, riseAt := 0, width := 16 })] }, by decide +kernel, by decide +kernel, pairOf (by decide +kernel)⟩,
   ⟨0, rdy, by decide +kernel, fun e r h => nomatch h⟩,
   ⟨5000000000, 0, ((ported rdy).put R.hptPstat_ARMED 1), by decide +kernel⟩⟩

theorem witness_HeadLinkActs :
    (∃ t : Nat, ∃ p : Port, ∃ s : State, Awake t s ∧ s.flag R.hptPcfg_UP p = true ∧ s.flag R.lnsStat_LOCK p = true ∧ s.laneTested p = false ∧ armedFor 19 p s = false) ∧
    (∃ t : Nat, ∃ p : Port, ∃ s : State, Awake t s ∧ (s.port p).rxUp = true ∧ (s.port p).lastAlign + 8192 * blockPs (s.laneRate p) ≤ (atTime t s).now ∧ armedFor 19 p s = false) ∧
    (∃ t : Nat, ∃ p : Port, ∃ s : State, Awake t s ∧ s.flag R.hptPcfg_UP p = true ∧ s.laneTested p = false ∧ armedFor 20 p s = false) ∧
    (∃ p : Port, ∃ b : Block, ∃ start, ∃ data : List Byte, ∃ blocksOk, ∃ s : State, blockKind b = .fin ∧ (s.port p).rx = some (start, data, blocksOk) ∧ armedFor 16 p s = false) ∧
    (∃ p : Port, ∃ b : Block, ∃ s : State, blockKind b = .data ∧ (s.port p).rx = none) ∧
    (∃ t : Nat, ∃ p : Port, ∃ m : Fin 8, ∃ s : State, Awake t s ∧ s.flag R.hptPcfg_UP p = true ∧ (s.port p).upSince ≠ 0 ∧ m.val < s.get R.hptPcfg_MODULES p ∧ (s.port p).lostRaised.contains m.val = false ∧ (∀ x, (s.port p).tel.lookup m.val = some x → x.at_ + 10000000000 ≤ (atTime t s).now) ∧ (s.port p).upSince + 10000000000 ≤ (atTime t s).now ∧ armedFor 20 p s = false) :=
  ⟨⟨0, 0, (((ported rdy).put R.hptPcfg_UP 1).put R.lnsStat_LOCK 1), by decide +kernel⟩,
   ⟨10000000000, 0, rdy.setPort 0 { rxUp := true }, by decide +kernel⟩,
   ⟨0, 0, (ported rdy).put R.hptPcfg_UP 1, by decide +kernel⟩,
   ⟨0, { head := 2, body := 0x87 }, [3], [0], true, rdy.setPort 0 { rx := some ([3], [0], true) }, by decide +kernel⟩,
   ⟨0, { head := 1, body := 0 }, rdy, by decide +kernel⟩,
   ⟨10000000001, 0, 0, ((ported rdy).put R.hptPcfg_UP 1).setPort 0 { upSince := 1 }, by decide +kernel, by decide +kernel, by decide +kernel, by decide +kernel, by decide +kernel, fun x h => absurd (h.symm.trans (by decide +kernel)) (Option.some_ne_none x), by decide +kernel, by decide +kernel⟩⟩

theorem witness_ChainCommandsComplete :
    (∃ t : Nat, ∃ c : Cmd, ∃ s : State, Taken { op := 0x0701, argw := 0, states := [.ready] } t c s ∧ chainDiscoverFail c (atTime t s) = none) ∧
    (∃ t : Nat, ∃ q : Queue, ∃ o : OpenCmd, ∃ rootId, ∃ held, ∃ s : State, Open 0x0701 q o t s ∧ rootId = (if (atTime t s).memberId = 0 then 1 else (atTime t s).memberId) ∧ held = ((atTime t s).uid, rootId) :: (s.fab.found.filter fun n => decide (n.cur ≠ 0)).map (fun n => (n.uid, n.cur)) ∧ (∀ a ∈ held, ∀ b ∈ held, a.2 = b.2 → a.1 = b.1) ∧ (∀ n ∈ s.fab.found, ¬(bitOf n.flags 0 = true ∧ bitOf n.flags 1 = true)) ∧ s.fab.found.length < 250) ∧
    (∃ t : Nat, ∃ q : Queue, ∃ o : OpenCmd, ∃ n : FabNode, ∃ s : State, Open 0x0701 q o t s ∧ n ∈ s.fab.found ∧ bitOf n.flags 0 = true ∧ bitOf n.flags 1 = true) ∧
    (∃ t : Nat, ∃ c : Cmd, ∃ s : State, Taken { op := 0x0702, argw := 1, states := anyState } t c s ∧ 1 ≤ cmdNat c 1 ∧ cmdNat c 1 ≤ 250) ∧
    (∃ t : Nat, ∃ c : Cmd, ∃ s : State, ∃ bs : List Byte, ∃ v, Taken { op := 0x0703, argw := 6, states := anyState } t c s ∧ chainForwardFail c (atTime t s) = none ∧ fetch 7 (cmdDword c 2) (4 * cmdNat c 4) (atTime t s) = (.bytes bs, v) ∧ ((bytesWords bs).getD 0 0).toNat / 65536 ∉ eOpcodes) ∧
    (∃ t : Nat, ∃ q : Queue, ∃ o : OpenCmd, ∃ e, ∃ s : State, Open 0x0703 q o t s ∧ forwardEnd o (atTime t s) = some e) ∧
    (∃ t : Nat, ∃ c : Cmd, ∃ s : State, Taken { op := 0x0704, argw := 1, states := [.ready] } t c s ∧ chainCadenceFail c (atTime t s) = none ∧ cmdNat c 1 = 0 ∧ s.get R.cadCtrl_ROLE ≠ 1) ∧
    (∃ t : Nat, ∃ c : Cmd, ∃ s : State, Taken { op := 0x0704, argw := 1, states := [.ready] } t c s ∧ chainCadenceFail c (atTime t s) = none ∧ cmdNat c 1 = 1 ∧ s.get R.cadCtrl_ROLE ≠ 2) ∧
    (∃ t : Nat, ∃ c : Cmd, ∃ s : State, Taken { op := 0x0704, argw := 1, states := [.ready] } t c s ∧ chainCadenceFail c (atTime t s) = none ∧ s.get R.cadCtrl_ROLE = cmdNat c 1 + 1) ∧
    (∃ t : Nat, ∃ c : Cmd, ∃ s : State, Taken { op := 0x0705, argw := 4, states := [.ready] } t c s ∧ chainEdgeFail c (atTime t s) = none) :=
  ⟨⟨0, cmd .q0 [], fb, by unfold Taken; decide +kernel⟩,
   ⟨0, .q0, opn 0x0701 [], 1, [(0, 1)], wopn (opn 0x0701 []) fb, by unfold Open; decide +kernel⟩,
   ⟨0, .q0, opn 0x0701 [], { uid := 5, proto := 1, flags := 3, cur := 0, path := [] }, wopn (opn 0x0701 []) { fb with fab := { fb.fab with found := [{ uid := 5, proto := 1, flags := 3, cur := 0, path := [] }] } }, by unfold Open; decide +kernel⟩,
   ⟨0, cmd .q0 [250], rdy, by unfold Taken; decide +kernel⟩,
   ⟨0, cmd .q0 [250, 0x1000000, 0, 16, 0, 0], (conf.put R.fabId_ID 1), List.replicate 64 0, _, by unfold Taken; decide +kernel, by decide +kernel, pairOf (by decide +kernel), by decide +kernel⟩,
   ⟨0, .q0, opn 0x0703 [] [3], (stTimeout, []), wopn (opn 0x0703 [] [3]) fb, by unfold Open; decide +kernel⟩,
   ⟨0, cmd .q0 [0], rdy, by unfold Taken; decide +kernel⟩,
   ⟨0, cmd .q0 [1], rdy, by unfold Taken; decide +kernel⟩,
   ⟨0, cmd .q0 [1], rdy.put R.cadCtrl_ROLE 2, by unfold Taken; decide +kernel⟩,
   ⟨0, cmd .q0 [0, 1, 250, 3], conf, by unfold Taken; decide +kernel⟩⟩

theorem witness_FabricServicesAct :
    (∃ t : Nat, ∃ q : FabPort, ∃ p : Pkt, ∃ s : State, ForMe q p t s ∧ p.ty = 0x10) ∧
    (∃ t : Nat, ∃ q : FabPort, ∃ p : Pkt, ∃ s : State, ForMe q p t s ∧ p.ty = 0x11) ∧
    (∃ t : Nat, ∃ tag, ∃ r, ∃ s : State, Awake t s ∧ s.fab.reads = [r] ∧ r.tag = tag ∧ r.bad = false ∧ r.tries = 0 ∧ r.t0 + 2000000000 ≤ (atTime t s).now) ∧
    (∃ t : Nat, ∃ q : FabPort, ∃ p : Pkt, ∃ s : State, ForMe q p t s ∧ isProxy 1 p = true) ∧
    (∃ t : Nat, ∃ q : FabPort, ∃ p : Pkt, ∃ o : ProxyOp, ∃ s : State, ForMe q p t s ∧ isProxy 2 p = true ∧ answered 1 p s = some o ∧ o.resp = []) ∧
    (∃ t : Nat, ∃ q : FabPort, ∃ p : Pkt, ∃ o : ProxyOp, ∃ s : State, ForMe q p t s ∧ isProxy 6 p = true ∧ answered 1 p s = some o ∧ o.done = [] ∧ o.isE = true) ∧
    (∃ t : Nat, ∃ q : FabPort, ∃ p : Pkt, ∃ s : State, ForMe q p t s ∧ isProxy 3 p = true ∧ 12 ≤ proxyCh p ∧ proxyCh p ≤ 15) ∧
    (∃ t : Nat, ∃ q : FabPort, ∃ p : Pkt, ∃ s : State, ForMe q p t s ∧ isProxy 4 p = true ∧ 12 ≤ proxyCh p ∧ proxyCh p ≤ 15) ∧
    (∃ t : Nat, ∃ q : FabPort, ∃ p : Pkt, ∃ o : ProxyOp, ∃ s : State, ForMe q p t s ∧ isProxy 5 p = true ∧ s.fab.ops = [o] ∧ o.tag = p.tag.toNat ∧ o.dest = p.src.toNat ∧ (o.op = 3 ∨ o.op = 4)) ∧
    (∃ t : Nat, ∃ tag, ∃ o : ProxyOp, ∃ s : State, Awake t s ∧ s.proxyOpOf tag = some o ∧ retryDue o (atTime t s) = true) :=
  ⟨⟨0, 0, pkt 0x10 1 1 (List.replicate 16 0), fb, by unfold ForMe; decide +kernel⟩,
   ⟨0, 0, pkt 0x11 1 1 (List.replicate 8 0), fb, by unfold ForMe; decide +kernel⟩,
   ⟨2000000000, 5, { tag := 5, member := 2, addr := 0, len := 4, tries := 0, got := [], bad := false, t0 := 0 }, { fb with fab := { fb.fab with reads := [{ tag := 5, member := 2, addr := 0, len := 4, tries := 0, got := [], bad := false, t0 := 0 }] } }, by decide +kernel⟩,
   ⟨0, 0, pkt 0x20 2 1 ([1] ++ List.replicate 71 0), fb, by unfold ForMe; decide +kernel⟩,
   ⟨0, 0, pkt 0x20 2 1 ([2] ++ List.replicate 71 0), { tag := 0, op := 1, dest := 2, ch := 12, words := [], tries := 0, t0 := 0, sentAt := 0, isE := true, resp := [] }, { fb with fab := { fb.fab with ops := [{ tag := 0, op := 1, dest := 2, ch := 12, words := [], tries := 0, t0 := 0, sentAt := 0, isE := true, resp := [] }] } }, by unfold ForMe; decide +kernel⟩,
   ⟨0, 0, pkt 0x20 2 1 ([6] ++ List.replicate 71 0), { tag := 0, op := 1, dest := 2, ch := 12, words := [], tries := 0, t0 := 0, sentAt := 0, isE := true, resp := [] }, { fb with fab := { fb.fab with ops := [{ tag := 0, op := 1, dest := 2, ch := 12, words := [], tries := 0, t0 := 0, sentAt := 0, isE := true, resp := [] }] } }, by unfold ForMe; decide +kernel⟩,
   ⟨0, 0, pkt 0x20 2 1 ([3, 12] ++ List.replicate 70 0), fb, by unfold ForMe; decide +kernel⟩,
   ⟨0, 0, pkt 0x20 2 1 ([4, 15] ++ List.replicate 70 0), fb, by unfold ForMe; decide +kernel⟩,
   ⟨0, 0, pkt 0x20 2 1 ([5] ++ List.replicate 71 0), { tag := 0, op := 3, dest := 2, ch := 12, words := [], tries := 0, t0 := 0, sentAt := 0, isE := true, resp := [] }, { fb with fab := { fb.fab with ops := [{ tag := 0, op := 3, dest := 2, ch := 12, words := [], tries := 0, t0 := 0, sentAt := 0, isE := true, resp := [] }] } }, by unfold ForMe; decide +kernel⟩,
   ⟨1000000000, 0, { tag := 0, op := 1, dest := 2, ch := 12, words := [], tries := 0, t0 := 0, sentAt := 0, isE := true, resp := [] }, { fb with fab := { fb.fab with ops := [{ tag := 0, op := 1, dest := 2, ch := 12, words := [], tries := 0, t0 := 0, sentAt := 0, isE := true, resp := [] }] } }, by decide +kernel⟩⟩

theorem witness_ManagementActs :
    (∃ t : Nat, ∃ q : FabPort, ∃ p : Pkt, ∃ s : State, ForMe q p t s ∧ isMgmt 1 p = true ∧ mgmtStatus p = 0) ∧
    (∃ t : Nat, ∃ q : FabPort, ∃ p : Pkt, ∃ s : State, ForMe q p t s ∧ isMgmt 1 p = true ∧ mgmtStatus p = 1) ∧
    (∃ t : Nat, ∃ q : FabPort, ∃ p : Pkt, ∃ s : State, ForMe q p t s ∧ isMgmt 2 p = true ∧ mgmtStatus p = 0) ∧
    (∃ t : Nat, ∃ q : FabPort, ∃ p : Pkt, ∃ s : State, ForMe q p t s ∧ isMgmt 3 p = true ∧ mgmtStatus p = 0) ∧
    (∃ t : Nat, ∃ q : FabPort, ∃ p : Pkt, ∃ s : State, ForMe q p t s ∧ isMgmt 4 p = true ∧ mgmtStatus p = 0) ∧
    (∃ t : Nat, ∃ s : State, Awake t s ∧ s.fw.running = true ∧ s.isRoot = true ∧ (∀ u, s.fab.beatAt = some u → u + 1000000000 ≤ (atTime t s).now)) ∧
    (∃ t : Nat, ∃ id : Byte, ∃ m : Member, ∃ s : State, Awake t s ∧ (s.fab.members.find? fun m => decide (m.id = id.toNat ∧ m.uid ≠ s.uid)) = some m ∧ s.isRoot = true ∧ m.mode ≠ 6 ∧ (m.kickEnded = none ∧ m.mode ≠ 5 ∧ m.heard + 3000000000 ≤ (atTime t s).now ∨ ∃ u, m.kickEnded = some u ∧ u + 1000000000000 ≤ (atTime t s).now)) ∧
    (∃ t : Nat, ∃ q : FabPort, ∃ p : Pkt, ∃ s : State, ForMe q p t s ∧ isMgmt 6 p = true) ∧
    (∃ t : Nat, ∃ q : FabPort, ∃ p : Pkt, ∃ s : State, ForMe q p t s ∧ isMgmt 5 p = true) ∧
    (∃ t : Nat, ∃ q : FabPort, ∃ p : Pkt, ∃ s : State, ForMe q p t s ∧ isMgmt 7 p = true ∧ s.isRoot = true) :=
  ⟨⟨0, 0, pkt 0x22 2 1 ([1, 0, 0, 0] ++ List.replicate 68 0), fb, by unfold ForMe; decide +kernel⟩,
   ⟨0, 0, pkt 0x22 2 1 ([1, 0, 0, 1] ++ List.replicate 92 0), fb, by unfold ForMe; decide +kernel⟩,
   ⟨0, 0, pkt 0x22 2 1 ([2, 0, 0, 0] ++ List.replicate 84 0), fb, by unfold ForMe; decide +kernel⟩,
   ⟨0, 0, pkt 0x22 2 1 ([3, 0, 0, 0] ++ List.replicate 76 0), fb, by unfold ForMe; decide +kernel⟩,
   ⟨0, 0, pkt 0x22 2 1 ([4, 0, 0, 0] ++ List.replicate 68 0), fb, by unfold ForMe; decide +kernel⟩,
   ⟨0, fb, by decide +kernel⟩,
   ⟨3000000000, 9, { id := 9, uid := 77, proto := 1, mode := 2, path := [], latency := 0, heard := 0, kickEnded := none }, { fb with fab := { fb.fab with members := [{ id := 9, uid := 77, proto := 1, mode := 2, path := [], latency := 0, heard := 0, kickEnded := none }] } }, by decide +kernel⟩,
   ⟨0, 0, pkt 0x22 2 1 ([6] ++ List.replicate 79 0), fb, by unfold ForMe; decide +kernel⟩,
   ⟨0, 0, pkt 0x22 2 1 ([5] ++ List.replicate 87 0), fb, by unfold ForMe; decide +kernel⟩,
   ⟨0, 0, pkt 0x22 2 1 ([7] ++ List.replicate 79 0), fb, by unfold ForMe; decide +kernel⟩⟩

theorem witness_FabricPortsAndTimeAct :
    (∃ t : Nat, ∃ q : FabPort, ∃ s : State, Awake t s ∧ (atTime t s).kicking = false ∧ s.flag R.fabPctrl_EN q = true ∧ s.fabUp q = false ∧ s.flag R.fabPstat_L0LOCK q = true ∧ s.flag R.fabPstat_L1LOCK q = true ∧ s.laneTested (16 + 2 * q) = false ∧ s.laneTested (17 + 2 * q) = false ∧ s.flag R.fabPstat_DESKEW q = true ∧ s.aligned q = true) ∧
    (∃ t : Nat, ∃ q : FabPort, ∃ s : State, Awake t s ∧ s.fabUp q = true ∧ mapGet 0 s.fab.aligns q.val + 4096 * blockPs (s.get R.fabPctrl_RATE q) ≤ (atTime t s).now) ∧
    (∃ t : Nat, ∃ q : FabPort, ∃ s : State, Awake t s ∧ (atTime t s).kicking = false ∧ s.flag R.fabPctrl_EN q = true ∧ s.flag R.fabPstat_L0LOCK q = true ∧ s.flag R.fabPstat_L1LOCK q = true ∧ s.laneTested (16 + 2 * q) = false ∧ s.laneTested (17 + 2 * q) = false) ∧
    (∃ t : Nat, ∃ s : State, (atTime t s).kicking = true) ∧
    (∃ t : Nat, ∃ q : FabPort, ∃ s : State, Awake t s ∧ (atTime t s).kicking = false ∧ s.fabUp q = true ∧ (∀ u, s.fab.tsyncAt.lookup q.val = some u → u + 16000000 ≤ (atTime t s).now)) ∧
    (∃ t : Nat, ∃ q : FabPort, ∃ p : Pkt, ∃ s : State, Awake t s ∧ (atTime t s).kicking = false ∧ s.fw.running = true ∧ s.fabUp q = true ∧ armedFor 29 q s = false ∧ pktCrcOk p = true ∧ pktFormOk p = true ∧ p.ttl ≠ 0 ∧ p.ty = 0x30) ∧
    (∃ t : Nat, ∃ s : State, Awake t s) :=
  ⟨⟨0, 0, { (((fb.put R.fabPstat_UP 0).put R.fabPstat_L0LOCK 1).put R.fabPstat_L1LOCK 1).put R.fabPstat_DESKEW 1 with fab := { fb.fab with alignRun := [(0, (4, 0))] } }, by decide +kernel⟩,
   ⟨10000000000, 0, fb, by decide +kernel⟩,
   ⟨0, 0, ((fb.put R.fabPstat_L0LOCK 1).put R.fabPstat_L1LOCK 1), by decide +kernel⟩,
   ⟨0, { fb with boot := { fb.boot with kickstand := true } }, by decide +kernel⟩,
   ⟨16000000, 0, fb, by decide +kernel, by decide +kernel, by decide +kernel, fun u h => nomatch h⟩,
   ⟨0, 0, pkt 0x30 0 1 (List.replicate 32 0), fb, by decide +kernel⟩,
   ⟨0, rdy, by decide +kernel⟩⟩

theorem witness_MotionCommandsComplete :
    (∃ t : Nat, ∃ c : Cmd, ∃ z, ∃ s : State, Taken { op := 0x0901, argw := 6, states := [.ready, .armed, .paused] } t c s ∧ motConfigFail c (atTime t s) = none ∧ (if cmdNat c 1 < 6 then (true, atTime t s) else claimFor false (cmdNat c 1 - 4) 2 (atTime t s)) = (true, z)) ∧
    (∃ t : Nat, ∃ c : Cmd, ∃ z, ∃ s : State, Taken { op := 0x0901, argw := 6, states := [.ready, .armed, .paused] } t c s ∧ motConfigFail c (atTime t s) = none ∧ 6 ≤ cmdNat c 1 ∧ claimFor false (cmdNat c 1 - 4) 2 (atTime t s) = (false, z)) ∧
    (∃ t : Nat, ∃ c : Cmd, ∃ s : State, Taken { op := 0x0902, argw := 9, states := [.ready, .armed, .paused] } t c s ∧ motMoveFail c (atTime t s) = none) ∧
    (∃ t : Nat, ∃ c : Cmd, ∃ s : State, Taken { op := 0x0903, argw := 2, states := [.ready, .armed, .paused] } t c s ∧ motHomeFail c (atTime t s) = none) ∧
    (∃ t : Nat, ∃ c : Cmd, ∃ s : State, Taken { op := 0x0904, argw := 1, states := anyState } t c s ∧ cmdNat c 1 ≤ 255) ∧
    (∃ t : Nat, ∃ c : Cmd, ∃ s : State, Taken { op := 0x0905, argw := 1, states := anyState } t c s ∧ cmdNat c 1 ≤ 7) ∧
    (∃ t : Nat, ∃ q : Queue, ∃ o : OpenCmd, ∃ s : State, Open 0x0902 q o t s ∧ (s.axis (o.data.headD 0)).moving = true ∧ (s.axis (o.data.headD 0)).left = 0) ∧
    (∃ t : Nat, ∃ a : Axis, ∃ s : State, Awake t s ∧ (s.axis a).moving = true ∧ s.flag R.rdgMoten_GATE = true ∧ (s.axis a).homing = false ∧ (s.axis a).group = a.val ∧ 0 < (s.axis a).left ∧ armedFor 57 a s = false ∧ (atTime t s).paced a = true ∧ (∀ b, b < 8 → b = a.val ∨ (s.axis b).moving = true ∧ (s.axis b).group = a.val → axisOnBalls s b = true)) ∧
    (∃ t : Nat, ∃ a : Axis, ∃ s : State, Awake t s ∧ (s.axis a).moving = true ∧ s.flag R.rdgMoten_GATE = true ∧ (s.axis a).homing = true ∧ (atTime t s).paced a = true ∧ (∀ b, b < 8 → b = a.val ∨ (s.axis b).moving = true ∧ (s.axis b).group = a.val → axisOnBalls s b = true)) ∧
    (∃ t : Nat, ∃ a : Axis, ∃ s : State, Awake t s ∧ axisOnBalls s a = true) ∧
    (∃ t : Nat, ∃ a : Axis, ∃ s : State, Awake t s ∧ (s.axis a).configured = true ∧ (s.axis a).moving = false ∧ (s.axis a).lastStep + s.get R.motAxCur_STILLMS a * 1000000000 ≤ (atTime t s).now) :=
  ⟨⟨0, cmd .q0 [7, 4000000, 1, 1, 255, 65535], (claimFor false 3 2 (atTime 0 rdy)).2, rdy, by unfold Taken; decide +kernel, by decide +kernel, (if_neg (by decide)).trans (pairOf (by decide +kernel))⟩,
   ⟨0, cmd .q0 [7, 4000000, 1, 1, 255, 65535], (claimFor false 3 2 (atTime 0 (rdy.put R.glbClaim0_G3 1))).2, rdy.put R.glbClaim0_G3 1, by unfold Taken; decide +kernel, by decide +kernel, by decide, pairOf (by decide +kernel)⟩,
   ⟨0, cmd .q0 [128, 1], (rdy.put R.glbClaim0_G3 2).setAxis 7 { configured := true }, by unfold Taken; decide +kernel⟩,
   ⟨0, cmd .q0 [7, 1], (rdy.put R.glbClaim0_G3 2).setAxis 7 { configured := true }, by unfold Taken; decide +kernel⟩,
   ⟨0, cmd .q0 [255], rdy, by unfold Taken; decide +kernel⟩,
   ⟨0, cmd .q0 [7], rdy, by unfold Taken; decide +kernel⟩,
   ⟨0, .q0, opn 0x0902 [128] [7], (wopn (opn 0x0902 [128] [7])).setAxis 7 { configured := true, moving := true }, by unfold Open; decide +kernel⟩,
   ⟨2000000000000, 5, (((rdy.put R.motAxVmax_VMAX 4000000 5).put R.motAxAmax_AMAX 100000 5).put R.motAxJmax_JMAX 100000 5).setAxis 5 { configured := true, moving := true, group := 5, total := 2, left := 1 }, by decide +kernel⟩,
   ⟨2000000000000, 5, (((rdy.put R.motAxVmax_VMAX 4000000 5).put R.motAxAmax_AMAX 100000 5).put R.motAxJmax_JMAX 100000 5).setAxis 5 { configured := true, moving := true, homing := true, group := 5 }, by decide +kernel⟩,
   ⟨0, 0, rdy, by decide +kernel⟩,
   ⟨2000000000000, 7, rdy.setAxis 7 { configured := true }, by decide +kernel⟩⟩

theorem witness_SenseActs :
    (∃ t : Nat, ∃ c : Cmd, ∃ s : State, Taken { op := 0x0801, argw := 0, states := activeStates ++ [.safe] } t c s ∧ calFail true c (atTime t s) = none) ∧
    (∃ t : Nat, ∃ q : Queue, ∃ o : OpenCmd, ∃ s : State, Open 0x0801 q o t s) ∧
    (∃ t : Nat, ∃ c : Cmd, ∃ s : State, Taken { op := 0x0802, argw := 0, states := [.ready] } t c s ∧ calFail true c (atTime t s) = none) ∧
    (∃ t : Nat, ∃ q : Queue, ∃ o : OpenCmd, ∃ b, ∃ v, ∃ s : State, Open 0x0802 q o t s ∧ chooseRecord o.cmd (atTime t s) = (.ok b, v) ∧ (atTime t s).boundaryFor o.t0 = true) ∧
    (∃ t : Nat, ∃ c : Cmd, ∃ s : State, Taken { op := 0x0803, argw := 1, states := [.ready] } t c s ∧ calRunFail c (atTime t s) = none) ∧
    (∃ t : Nat, ∃ q : Queue, ∃ o : OpenCmd, ∃ s : State, Open 0x0803 q o t s ∧ (atTime t s).boundaryFor o.t0 = true) ∧
    (∃ t : Nat, ∃ m : Master, ∃ s : State, Awake t s ∧ Writes 13 m s) ∧
    (∃ t : Nat, ∃ t0, ∃ s : State, Awake t s ∧ s.commitAt = some t0 ∧ s.flag R.snsStat_CALRUN = false ∧ (atTime t s).boundaryFor t0 = true) ∧
    (∃ t : Nat, ∃ p : Port, ∃ s : State, Awake t s ∧ (atTime t s).mayMeasure p = true) :=
  ⟨⟨0, cmd .q0 [], rdy, by unfold Taken; decide +kernel⟩,
   ⟨0, .q0, opn 0x0801 [], wopn (opn 0x0801 []), by unfold Open; decide +kernel⟩,
   ⟨0, cmd .q0 [], rdy, by unfold Taken; decide +kernel⟩,
   ⟨100000000, .q0, opn 0x0802 [], calRec, _, wopn (opn 0x0802 []) (dramWrite 5 20971520 (calRec ++ List.replicate 28 0) conf), by unfold Open; decide +kernel, chosen (by decide +kernel) (by decide +kernel), by decide +kernel⟩,
   ⟨0, cmd .q0 [3], rdy, by unfold Taken; decide +kernel⟩,
   ⟨100000000, .q0, opn 0x0803 [2], wopn (opn 0x0803 [2]), by unfold Open; decide +kernel⟩,
   ⟨0, .control, rdy, by unfold Writes; decide +kernel⟩,
   ⟨100000000, 0, { rdy with commitAt := some 0 }, by decide +kernel⟩,
   ⟨0, 0, rdy, by decide +kernel⟩⟩

theorem witness_ServiceCommandsComplete :
    (∃ t : Nat, ∃ c : Cmd, ∃ s : State, Taken { op := 0x0A01, argw := 2, states := activeStates } t c s ∧ bistRunFail c (atTime t s) = none) ∧
    (∃ t : Nat, ∃ q : Queue, ∃ o : OpenCmd, ∃ s : State, Open 0x0A01 q o t s ∧ s.bistPlan = [] ∧ s.bistResult = []) ∧
    (∃ t : Nat, ∃ c : Cmd, ∃ s : State, Taken { op := 0x0A02, argw := 3, states := anyState } t c s ∧ errReadFail c (atTime t s) = none) ∧
    (∃ t : Nat, ∃ c : Cmd, ∃ s : State, Taken { op := 0x0A03, argw := 2, states := anyState } t c s ∧ errInjectFail c (atTime t s) = none ∧ kindR c = true) ∧
    (∃ t : Nat, ∃ c : Cmd, ∃ s : State, Taken { op := 0x0A03, argw := 2, states := anyState } t c s ∧ errInjectFail c (atTime t s) = none ∧ kindR c = false) ∧
    (∃ t : Nat, ∃ c : Cmd, ∃ s : State, Taken { op := 0x0A04, argw := 3, states := anyState } t c s ∧ 1 ≤ cmdNat c 1 ∧ cmdNat c 1 ≤ 65 ∧ detClass (cmdNat c 1) < 2) ∧
    (∃ t : Nat, ∃ c : Cmd, ∃ s : State, Taken { op := 0x0A05, argw := 3, states := [.ready] } t c s ∧ laneTestFail c (atTime t s) = none) ∧
    (∃ t : Nat, ∃ q : Queue, ∃ o : OpenCmd, ∃ s : State, Open 0x0A05 q o t s ∧ o.t0 + cmdNat o.cmd 3 * 1000000000 ≤ (atTime t s).now) ∧
    (∃ t : Nat, ∃ c : Cmd, ∃ s : State, ∃ v, ∃ x, ∃ w, Taken { op := 0x0B02, argw := 3, states := activeStates } t c s ∧ dmaRunFail c (atTime t s) = none ∧ claimFor true 1 (claimOwner c.q) (atTime t s) = (true, v) ∧ v.dmaState 7 ≠ 1 ∧ x = ((v.put R.dmaCtrl_FENCE 1 7).put R.dmaFence_STAGE (stageMask c (v.put R.dmaCtrl_FENCE 1 7))).put R.dmaFence_FWD 0 ∧ walkChain 7 (x.get R.dmaMaxdesc_MAX 7) (cmdDword c 2) none none x = (.good, w)) ∧
    (∃ t : Nat, ∃ q : Queue, ∃ o : OpenCmd, ∃ s : State, Open 0x0B02 q o t s ∧ s.dmaState 7 = 0 ∧ s.get R.dmaStat_CAUSE 7 = 0) ∧
    (∃ t : Nat, ∃ c : Cmd, ∃ s : State, Taken { op := 0x0B03, argw := 3, states := [.ready] } t c s ∧ eccErasureFail c (atTime t s) = none) ∧
    (∃ t : Nat, ∃ c : Cmd, ∃ s : State, Taken { op := 0x0B04, argw := 2, states := anyState } t c s ∧ poisonListFail c (atTime t s) = none) ∧
    (∃ t : Nat, ∃ c : Cmd, ∃ s : State, Taken { op := 0x0B05, argw := 1, states := anyState } t c s ∧ 10 ≤ cmdNat c 1 ∧ cmdNat c 1 ≤ 10080) :=
  ⟨⟨0, cmd .q0 [0xFF, 3], rdy, by unfold Taken; decide +kernel⟩,
   ⟨0, .q0, opn 0x0A01 [], wopn (opn 0x0A01 []), by unfold Open; decide +kernel⟩,
   ⟨0, cmd .q0 [65, 0, 0], rdy, by unfold Taken; decide +kernel⟩,
   ⟨0, cmd .q0 [5, 0], rdy, by unfold Taken; decide +kernel⟩,
   ⟨0, cmd .q0 [1, 0], rdy, by unfold Taken; decide +kernel⟩,
   ⟨0, cmd .q0 [65, 0, 0], rdy, by unfold Taken; decide +kernel⟩,
   ⟨0, cmd .q0 [23, 0x24, 60000], rdy, by unfold Taken; decide +kernel⟩,
   ⟨1000000000, .q0, opn 0x0A05 [0, 0, 1], wopn (opn 0x0A05 [0, 0, 1]), by unfold Open; decide +kernel⟩,
   ⟨0, cmd .q0 [7, 0x1000000, 0], dramWrite 5 0x1000000 (List.replicate 11 0 ++ [1] ++ List.replicate 9 0 ++ [0x20] ++ List.replicate 42 0) conf, _, _, _, by unfold Taken; decide +kernel, by decide +kernel, pairOf (by decide +kernel), by decide +kernel, rfl, pairOf (by decide +kernel)⟩,
   ⟨0, .q0, opn 0x0B02 [7], wopn (opn 0x0B02 [7]), by unfold Open; decide +kernel⟩,
   ⟨0, cmd .q0 [1, 1, 19], rdy, by unfold Taken; decide +kernel⟩,
   ⟨0, cmd .q0 [0, 0], rdy, by unfold Taken; decide +kernel⟩,
   ⟨0, cmd .q0 [10080], rdy, by unfold Taken; decide +kernel⟩⟩

theorem witness_CounterRowsAct :
    (∃ t : Nat, ∃ c : Cmd, ∃ s : State, ∃ v, Taken { op := 0x0C01, argw := 3, states := anyState } t c s ∧ pmcSelectFail c (atTime t s) = none ∧ claimFor true (bankClaim (cmdNat c 1)) (claimOwner c.q) (atTime t s) = (true, v)) ∧
    (∃ t : Nat, ∃ c : Cmd, ∃ s : State, Taken { op := 0x0C02, argw := 0, states := anyState } t c s) ∧
    (∃ t : Nat, ∃ m : Master, ∃ s : State, Awake t s ∧ Writes 15 m s) ∧
    (∃ t : Nat, ∃ m : Master, ∃ s : State, Awake t s ∧ m ≠ .proxy ∧ (m = .host → s.flag R.pmcAccess_USER = true)) ∧
    (∃ t : Nat, ∃ s : State, Awake t s) ∧
    (∃ t : Nat, ∃ c : Cmd, ∃ s : State, ∃ v, Taken { op := 0x0C03, argw := 2, states := anyState } t c s ∧ cmdNat c 1 ≤ 3 ∧ cmdNat c 2 ≤ 24 ∧ (s.chan (cmdNat c 1)).configured = true ∧ claimFor true 2 (claimOwner c.q) (atTime t s) = (true, v)) ∧
    (∃ t : Nat, ∃ c : Cmd, ∃ s : State, Taken { op := 0x0C04, argw := 2, states := anyState } t c s ∧ traceReadFail c (atTime t s) = none) ∧
    (∃ t : Nat, ∃ s : State, Awake t s) :=
  ⟨⟨0, cmd .q0 [30, 0x0001, 1], rdy, _, by unfold Taken; decide +kernel, by decide +kernel, pairOf (by decide +kernel)⟩,
   ⟨0, cmd .q0 [], rdy, by unfold Taken; decide +kernel⟩,
   ⟨0, .control, rdy, by unfold Writes; decide +kernel⟩,
   ⟨0, .control, rdy, by decide +kernel⟩,
   ⟨0, rdy, by decide +kernel⟩,
   ⟨0, cmd .q0 [0, 24], conf, _, by unfold Taken; decide +kernel, by decide +kernel, by decide +kernel, by decide +kernel, pairOf (by decide +kernel)⟩,
   ⟨0, cmd .q0 [0, 0], rdy, by unfold Taken; decide +kernel⟩,
   ⟨0, rdy, by decide +kernel⟩⟩

theorem witness_RidgeCommandsComplete :
    (∃ t : Nat, ∃ c : Cmd, ∃ s : State, Taken { op := 0x1001, argw := 0, states := ridgeStates, held := true } t c s) ∧
    (∃ t : Nat, ∃ c : Cmd, ∃ s : State, Taken { op := 0x1002, argw := 0, states := ridgeStates, held := true } t c s) ∧
    (∃ t : Nat, ∃ c : Cmd, ∃ s : State, ∃ bs : List Byte, ∃ v, Taken { op := 0x1003, argw := 4, states := ridgeStates, held := true } t c s ∧ rdgLimitsFail c (atTime t s) = none ∧ fetch 7 (cmdDword c 1) 784 (atTime t s) = (.bytes bs, v) ∧ crc32c bs = c.w 4) ∧
    (∃ t : Nat, ∃ c : Cmd, ∃ s : State, Taken { op := 0x1004, argw := 0, states := ridgeStates, held := true } t c s) ∧
    (∃ t : Nat, ∃ c : Cmd, ∃ s : State, Taken { op := 0x1005, argw := 0, states := ridgeStates, held := true } t c s) ∧
    (∃ t : Nat, ∃ c : Cmd, ∃ s : State, Taken { op := 0x1006, argw := 2, states := ridgeStates, held := true } t c s ∧ rdgPortClearFail c (atTime t s) = none) ∧
    (∃ t : Nat, ∃ c : Cmd, ∃ s : State, Taken { op := 0x1007, argw := 1, states := [.ready] } t c s ∧ cmdNat c 1 ≤ 65535 ∧ s.dev ≠ .held) :=
  ⟨⟨0, cmd .ridge [], rdy, by unfold Taken; decide +kernel⟩,
   ⟨0, cmd .ridge [], rdy, by unfold Taken; decide +kernel⟩,
   ⟨0, cmd .ridge [0x1000000, 0, 784, crc0 784], dramWrite 5 0x1000000 (List.replicate 832 0) conf, List.replicate 784 0, _, by unfold Taken; decide +kernel, by decide +kernel, pairOf (by decide +kernel), crcArg _⟩,
   ⟨0, cmd .ridge [], rdy, by unfold Taken; decide +kernel⟩,
   ⟨0, cmd .ridge [], rdy, by unfold Taken; decide +kernel⟩,
   ⟨0, cmd .ridge [15, 15], rdy, by unfold Taken; decide +kernel⟩,
   ⟨0, cmd .ridge [65535], rdy, by unfold Taken; decide +kernel⟩⟩

theorem witness_PannierRowsAct :
    (∃ t : Nat, ∃ m : Master, ∃ n : PnrCh, ∃ s : State, Awake t s ∧ s.isSender m n = true ∧ (atTime t s).sessionOver m = false ∧ s.flag R.pnrStatus_FULL n = false) ∧
    (∃ t : Nat, ∃ m : Master, ∃ n : PnrCh, ∃ s : State, Awake t s ∧ s.isSender m n = true ∧ (atTime t s).sessionOver m = false ∧ s.flag R.pnrStatus_FULL n = true) ∧
    (∃ t : Nat, ∃ m : Master, ∃ n : PnrCh, ∃ s : State, Awake t s ∧ s.isSender m n = true ∧ (atTime t s).sessionOver m = false ∧ s.flag R.pnrStatus_FULL n = false) ∧
    (∃ t : Nat, ∃ m : Master, ∃ n : PnrCh, ∃ s : State, Awake t s ∧ s.isSender m n = true ∧ (atTime t s).sessionOver m = true) ∧
    (∃ t : Nat, ∃ m : Master, ∃ n : PnrCh, ∃ s : State, Awake t s ∧ s.isSender m n = true) ∧
    (∃ t : Nat, ∃ m : Master, ∃ n : PnrCh, ∃ s : State, Awake t s ∧ s.isReceiver m n = true ∧ s.flag R.pnrStatus_FULL n = true) ∧
    (∃ t : Nat, ∃ m : Master, ∃ n : PnrCh, ∃ s : State, Awake t s ∧ s.isReceiver m n = true ∧ s.flag R.pnrStatus_FULL n = false) ∧
    (∃ t : Nat, ∃ n : PnrCh, ∃ s : State, Awake t s ∧ s.get R.pnrLock_OWNER n = 0) ∧
    (∃ t : Nat, ∃ n : PnrCh, ∃ s : State, Awake t s ∧ s.get R.pnrLock_OWNER n ≠ 0) ∧
    (∃ t : Nat, ∃ m : Master, ∃ n : PnrCh, ∃ owner : BitVec 3, ∃ s : State, Awake t s ∧ s.get R.pnrLock_OWNER n = m.num ∧ owner.toNat = m.num) ∧
    (∃ t : Nat, ∃ m : Master, ∃ n : PnrCh, ∃ s : State, Awake t s ∧ s.isReceiver m n = true) ∧
    (∃ t : Nat, ∃ m : Master, ∃ n : PnrCh, ∃ s : State, Awake t s ∧ (m = .control ∨ m = .ridge) ∧ s.flag R.pnrBind_RLOCK n = false ∧ s.flag R.pnrBindlock_LOCK = false) ∧
    (∃ t : Nat, ∃ s : State, Awake t s) ∧
    (∃ t : Nat, ∃ s : State, Awake t s) ∧
    (∃ t : Nat, ∃ s : State, Awake t s) ∧
    (∃ t : Nat, ∃ s : State, Awake t s) :=
  ⟨⟨0, .host, 15, ((rdy.put R.pnrBind_SEND 1 15).put R.pnrBind_RECV 2 15), by decide +kernel⟩,
   ⟨0, .host, 0, (((rdy.put R.pnrBind_SEND 1 0).put R.pnrBind_RECV 2 0).put R.pnrStatus_FULL 1), by decide +kernel⟩,
   ⟨0, .host, 15, ((rdy.put R.pnrBind_SEND 1 15).put R.pnrBind_RECV 2 15), by decide +kernel⟩,
   ⟨0, .host, 15, { ((rdy.put R.pnrBind_SEND 1 15).put R.pnrBind_RECV 2 15) with ended := [(1, (0, 0))] }, by decide +kernel⟩,
   ⟨0, .host, 15, ((rdy.put R.pnrBind_SEND 1 15).put R.pnrBind_RECV 2 15), by decide +kernel⟩,
   ⟨0, .control, 0, (((rdy.put R.pnrBind_SEND 1 0).put R.pnrBind_RECV 2 0).put R.pnrStatus_FULL 1), by decide +kernel⟩,
   ⟨0, .control, 0, ((rdy.put R.pnrBind_SEND 1 0).put R.pnrBind_RECV 2 0), by decide +kernel⟩,
   ⟨0, 15, rdy, by decide +kernel⟩,
   ⟨0, 15, rdy.put R.pnrLock_OWNER 3 15, by decide +kernel⟩,
   ⟨0, .control, 15, 2, rdy.put R.pnrLock_OWNER 2 15, by decide +kernel⟩,
   ⟨0, .control, 0, ((rdy.put R.pnrBind_SEND 1 0).put R.pnrBind_RECV 2 0), by decide +kernel⟩,
   ⟨0, .ridge, 15, rdy, by decide +kernel⟩,
   ⟨0, rdy, by decide +kernel⟩,
   ⟨0, rdy, by decide +kernel⟩,
   ⟨0, rdy, by decide +kernel⟩,
   ⟨0, rdy, by decide +kernel⟩⟩

theorem witness_PannierViolationsAct :
    (∃ t : Nat, ∃ m : Master, ∃ n : PnrCh, ∃ s : State, Awake t s ∧ s.isSender m n = false) ∧
    (∃ t : Nat, ∃ m : Master, ∃ n : PnrCh, ∃ s : State, Awake t s ∧ s.isSender m n = false) ∧
    (∃ t : Nat, ∃ m : Master, ∃ n : PnrCh, ∃ s : State, Awake t s ∧ s.isReceiver m n = false) ∧
    (∃ t : Nat, ∃ m : Master, ∃ n : PnrCh, ∃ s : State, Awake t s ∧ s.isReceiver m n = false) :=
  ⟨⟨0, .control, 0, rdy, by decide +kernel⟩,
   ⟨0, .control, 0, rdy, by decide +kernel⟩,
   ⟨0, .host, 0, rdy, by decide +kernel⟩,
   ⟨0, .host, 0, rdy, by decide +kernel⟩⟩

theorem witness_RegisterRowsAct :
    (∃ t : Nat, ∃ m : Master, ∃ s : State, Awake t s ∧ Writes 0 m s) ∧
    (∃ t : Nat, ∃ m : Master, ∃ off : Nat, ∃ s : State, Awake t s ∧ (m = .host → off % 4 = 0)) ∧
    (∃ t : Nat, ∃ m : Master, ∃ off : Nat, ∃ s : State, Awake t s ∧ (m = .host → off % 8 = 0)) ∧
    (∃ t : Nat, ∃ m : Master, ∃ len, ∃ s : State, Awake t s ∧ m ≠ .host ∧ len ≠ 4 ∧ len ≠ 8) ∧
    (∃ t : Nat, ∃ off : Nat, ∃ len, ∃ s : State, Awake t s ∧ ¬((len = 4 ∨ len = 8) ∧ off % len = 0)) ∧
    (∃ t : Nat, ∃ off : Nat, ∃ s : State, Awake t s ∧ off % 4 = 0) ∧
    (∃ t : Nat, ∃ off : Nat, ∃ s : State, Awake t s ∧ off % 4 = 0 ∧ takeAt off = none) ∧
    (∃ t : Nat, ∃ off : Nat, ∃ n : Nat, ∃ s : State, Awake t s ∧ off % 4 = 0 ∧ takeAt off = some n) ∧
    (∃ t : Nat, ∃ off : Nat, ∃ s : State, Awake t s ∧ off % 8 = 0) ∧
    (∃ t : Nat, ∃ off : Nat, ∃ len, ∃ s : State, Awake t s ∧ ¬((len = 4 ∨ len = 8) ∧ off % len = 0)) ∧
    (∃ t : Nat, ∃ off : Nat, ∃ s : State, Awake t s ∧ off % 4 = 0) ∧
    (∃ t : Nat, ∃ m : Master, ∃ off : Nat, ∃ s : State, Awake t s ∧ off % 4 = 0 ∧ 0x300000 ≤ off ∧ off < 0x400000 ∧ usesBuffer s = false ∧ Writes 19 m s ∧ (m = .debug → debugSram s = true)) ∧
    (∃ t : Nat, ∃ m : Master, ∃ off : Nat, ∃ s : State, Awake t s ∧ off % 4 = 0 ∧ 0x300000 ≤ off ∧ off < 0x310000 ∧ usesBuffer s = true ∧ m ≠ .proxy ∧ (m = .debug → debugSram s = true)) ∧
    (∃ t : Nat, ∃ s : State, Awake t s ∧ s.otp.lc = .field ∧ bitOf (s.get R.glbHostacc_WEN) 19 = false) ∧
    (∃ t : Nat, ∃ addr, ∃ len, ∃ bs : List Byte, ∃ v, ∃ s : State, Awake t s ∧ (atTime t s).hostLink = true ∧ s.trained = true ∧ s.inDram addr len = true ∧ dramRead 5 addr len (atTime t s) = (some bs, v)) ∧
    (∃ t : Nat, ∃ addr, ∃ bytes : List Byte, ∃ s : State, Awake t s ∧ (atTime t s).hostLink = true ∧ s.trained = true ∧ s.inDram addr bytes.length = true) :=
  ⟨⟨0, .control, rdy, by unfold Writes; decide +kernel⟩,
   ⟨0, .host, 8, rdy, by decide +kernel⟩,
   ⟨0, .host, 8, rdy, by decide +kernel⟩,
   ⟨0, .control, 2, rdy, by decide +kernel⟩,
   ⟨0, 4, 8, rdy, by decide +kernel⟩,
   ⟨0, 4, rdy, by decide +kernel⟩,
   ⟨0, 4, rdy, by decide +kernel⟩,
   ⟨0, 0x10048, 0, rdy, by decide +kernel⟩,
   ⟨0, 8, rdy, by decide +kernel⟩,
   ⟨0, 4, 8, rdy, by decide +kernel⟩,
   ⟨0, 4, rdy, by decide +kernel⟩,
   ⟨0, .control, 0x3FFFFC, rdy, by unfold Writes; decide +kernel⟩,
   ⟨0, .host, 0x30FFFC, rdy.put R.dmcCfg_TRAINED 0, by decide +kernel⟩,
   ⟨0, (rdy.setReg ⟨.glbHostacc, 0, 0⟩ 0) |> fun s => { s with otp := { s.otp with lc := .field } }, by decide +kernel⟩,
   ⟨0, 0x134217700, 4, List.replicate 4 0, _, rdy, by decide +kernel, by decide +kernel, by decide +kernel, by decide +kernel, pairOf (by decide +kernel)⟩,
   ⟨0, 0xFFFFFFFFF, [0], rdy, by decide +kernel⟩⟩

theorem witness_ResetRowsAct :
    (∃ rails, beyond rails = false) ∧
    (∃ rail : Fin 8, ∃ mv, ∃ durNs, mv ≤ railMax.getD rail 0 ∧ mv < railFall.getD rail 0 ∧ 2000 ≤ durNs) ∧
    (∃ rail : Fin 8, ∃ mv, ∃ durNs, mv ≤ railMax.getD rail 0 ∧ durNs < 500) ∧
    (∃ durNs, 1000 ≤ durNs) ∧
    (∃ durNs, durNs < 100) ∧
    (∃ t : Nat, ∃ hard, ∃ t0, ∃ s : State, Awake t s ∧ s.fw.resetPending = some (hard, t0) ∧ t0 + 1000000000 ≤ (atTime t s).now ∧ resetUnanswered s = false) ∧
    (∃ t : Nat, ∃ t0, ∃ s : State, s.boot.orderly = some t0 ∧ t0 + 2000000000 ≤ (atTime t s).now) ∧
    (∃ t : Nat, ∃ s : State, s.boot.inReset = true ∧ s.boot.powered = true ∧ s.boot.releaseAfter ≤ (atTime t s).now) ∧
    (∃ t : Nat, ∃ t0, ∃ s : State, s.boot.inReset = false ∧ s.boot.orderly = some t0 ∧ t0 + orderlyRelease ≤ (atTime t s).now) ∧
    (∃ t : Nat, ∃ s : State, Awake t s ∧ s.dev = .boot ∧ s.get R.glbBootstat_PHASE = 4 ∧ s.otp.lc ≠ .retired) ∧
    (∃ t : Nat, ∃ s : State, Awake t s ∧ s.dev = .boot ∧ s.get R.glbBootstat_PHASE = 4 ∧ s.otp.lc ≠ .retired) ∧
    (∃ t : Nat, ∃ a, ∃ b, ∃ g, ∃ v, ∃ m, ∃ s : State, Awake t s ∧ s.dev = .boot ∧ s.fw.running = true ∧ s.get R.glbBootstat_PHASE = 8 ∧ meets 32 0 (decide (dramPlan a b (atTime t s) = none)) (atTime t s) = (false, m) ∧ dramPlan a b (noteCapacity (dramGeom a b) m.2) = some (g, v)) ∧
    (∃ t : Nat, ∃ s : State, Awake t s ∧ s.dev = .boot ∧ s.fw.running = true ∧ s.get R.glbBootstat_PHASE = 8) ∧
    (∃ outNs, ∃ s : State, s.boot.inReset = false ∧ 1000 ≤ outNs) ∧
    (∃ outNs, ∃ s : State, s.boot.inReset = false ∧ outNs < 1000 ∧ armedFor 1 0 s = false) ∧
    (∃ outNs, ∃ s : State, s.boot.inReset = true ∧ 1000 ≤ outNs) ∧
    (∃ khz, ∃ s : State, s.boot.inReset = false ∧ (khz < 22500 ∨ 27500 < khz)) ∧
    (∃ khz, ∃ s : State, s.boot.inReset = false ∧ 22500 ≤ khz ∧ khz ≤ 27500 ∧ armedFor 2 0 s = false) ∧
    (∃ khz, ∃ s : State, s.boot.inReset = true ∧ (khz < 22500 ∨ 27500 < khz)) ∧
    (∃ t : Nat, ∃ khz, ∃ s : State, Awake t s ∧ (khz < 40000 ∨ 60000 < khz)) ∧
    (∃ t : Nat, ∃ khz, ∃ s : State, Awake t s ∧ 40000 ≤ khz ∧ khz ≤ 60000 ∧ armedFor 3 0 s = false) :=
  ⟨⟨goodRails, by decide +kernel⟩,
   ⟨7, 0, 2000, by decide +kernel⟩,
   ⟨0, 0, 499, by decide +kernel⟩,
   ⟨1000, by decide +kernel⟩,
   ⟨99, by decide +kernel⟩,
   ⟨1000000000, true, 0, { rdy with fw := { rdy.fw with resetPending := some (true, 0) } }, by decide +kernel⟩,
   ⟨2000000000, 0, { rdy with boot := { rdy.boot with orderly := some 0 } }, by decide +kernel⟩,
   ⟨50000000, State.reset, by decide +kernel⟩,
   ⟨580000000, 0, { rdy with boot := { rdy.boot with orderly := some 0 } }, by decide +kernel⟩,
   ⟨0, { rdy.put R.glbBootstat_PHASE 4 with dev := .boot }, by decide +kernel⟩,
   ⟨0, { rdy.put R.glbBootstat_PHASE 4 with dev := .boot }, by decide +kernel⟩,
   ⟨0, some dimm, some dimm, 1, 3, _, { rdy.put R.glbBootstat_PHASE 8 with dev := .boot }, by decide +kernel, by decide +kernel, by decide +kernel, by decide +kernel, pairOf (by decide +kernel), by decide +kernel⟩,
   ⟨0, { rdy.put R.glbBootstat_PHASE 8 with dev := .boot }, by decide +kernel⟩,
   ⟨1000, rdy, by decide +kernel⟩,
   ⟨999, rdy, by decide +kernel⟩,
   ⟨1000, State.reset, by decide +kernel⟩,
   ⟨27501, rdy, by decide +kernel⟩,
   ⟨27500, rdy, by decide +kernel⟩,
   ⟨22499, State.reset, by decide +kernel⟩,
   ⟨0, 60001, rdy, by decide +kernel⟩,
   ⟨0, 60000, rdy, by decide +kernel⟩⟩

theorem witness_RidgeRowsAct :
    (∃ t : Nat, ∃ key : Byte, ∃ s : State, Awake t s ∧ (∀ u, s.rdg.expiredAt = some u → s.flag R.rdgHbstat_EXPIRED = true → u / 20000 ≠ (atTime t s).now / 20000) ∧ armedFor 54 0 s = false ∧ key.toNat = s.get R.rdgHbstat_NEXTKEY) ∧
    (∃ t : Nat, ∃ key : Byte, ∃ s : State, Awake t s ∧ (∀ u, s.rdg.expiredAt = some u → s.flag R.rdgHbstat_EXPIRED = true → u / 20000 ≠ (atTime t s).now / 20000) ∧ armedFor 54 0 s = false ∧ key.toNat ≠ s.get R.rdgHbstat_NEXTKEY) ∧
    (∃ t : Nat, ∃ s : State, Awake t s ∧ s.flag R.rdgHbstat_ARMED = true ∧ s.flag R.rdgHbstat_EXPIRED = false ∧ armedFor 54 0 s = false ∧ s.rdg.hbAt + s.get R.rdgHbcfg_PERIOD * 1000000000 * 5 / 6 ≤ (atTime t s).now) ∧
    (∃ t : Nat, ∃ t0, ∃ s : State, Awake t s ∧ s.rdg.expiredAt = some t0 ∧ t0 + 10000000000 ≤ (atTime t s).now) ∧
    (∃ t : Nat, ∃ lowNs, ∃ s : State, Awake t s ∧ 200 ≤ lowNs) ∧
    (∃ lowNs, lowNs < 50) ∧
    (∃ t : Nat, ∃ cause : BitVec 3, ∃ s : State, Awake t s ∧ 3 ≤ cause.toNat) ∧
    (∃ t : Nat, ∃ s : State, Awake t s) ∧
    (∃ t : Nat, ∃ s : State, Awake t s) ∧
    (∃ t : Nat, ∃ s : State, Awake t s) ∧
    (∃ t : Nat, ∃ s : State, Awake t s) ∧
    (∃ t : Nat, ∃ s : State, Awake t s) :=
  ⟨⟨0, 1, rdy, by decide +kernel⟩,
   ⟨0, 2, rdy, by decide +kernel⟩,
   ⟨1000000000000, rdy.put R.rdgHbstat_ARMED 1, by decide +kernel⟩,
   ⟨10000000000, 0, { rdy with rdg := { rdy.rdg with expiredAt := some 0 } }, by decide +kernel⟩,
   ⟨0, 200, rdy, by decide +kernel⟩,
   ⟨49, by decide +kernel⟩,
   ⟨0, 3, rdy, by decide +kernel⟩,
   ⟨0, rdy, by decide +kernel⟩,
   ⟨0, rdy, by decide +kernel⟩,
   ⟨0, rdy, by decide +kernel⟩,
   ⟨0, rdy, by decide +kernel⟩,
   ⟨0, rdy, by decide +kernel⟩⟩

theorem witness_LaneRowsAct :
    (∃ t : Nat, ∃ l : Lane, ∃ heads, ∃ s : State, Awake t s ∧ s.laneOn l = true ∧ s.flag R.lnsStat_ADAPTED l = true ∧ s.prbsOn l = false ∧ gainsLock heads = true) ∧
    (∃ t : Nat, ∃ l : Lane, ∃ heads, ∃ s : State, Awake t s ∧ s.flag R.lnsStat_LOCK l = true ∧ losesLock heads = true) ∧
    (∃ t : Nat, ∃ s : State, Awake t s) ∧
    (∃ t : Nat, ∃ l : Lane, ∃ s : State, Awake t s ∧ s.laneOn l = true) ∧
    (∃ t : Nat, ∃ l : Lane, ∃ s : State, Awake t s ∧ s.laneOn l = true) ∧
    (∃ t : Nat, ∃ l : Lane, ∃ s : State, Awake t s ∧ s.laneOn l = true ∧ s.flag R.lnsStat_PLL l = true) ∧
    (∃ t : Nat, ∃ l : Lane, ∃ s : State, Awake t s ∧ s.laneOn l = true ∧ s.flag R.lnsStat_CDR l = true) ∧
    (∃ t : Nat, ∃ inst : Fin 6, ∃ s : State, Awake t s ∧ inst.val < 3) ∧
    (∃ t : Nat, ∃ inst : Fin 6, ∃ s : State, Awake t s ∧ 3 ≤ inst.val) ∧
    (∃ t : Nat, ∃ s : State, Awake t s) ∧
    (∃ t : Nat, ∃ m : Master, ∃ s : State, Awake t s ∧ Writes 17 m s) ∧
    (∃ t : Nat, ∃ s : State, Awake t s ∧ (atTime t s).hostLink = true) ∧
    (∃ t : Nat, ∃ kind : PcieReset, ∃ s : State, Awake t s ∧ (atTime t s).hostLink = true ∧ kind ≠ .flr) ∧
    (∃ t : Nat, ∃ s : State, Awake t s ∧ (atTime t s).hostLink = true) ∧
    (∃ t : Nat, ∃ s : State, Awake t s ∧ (atTime t s).hostLink = true) :=
  ⟨⟨0, 23, List.replicate 64 1, ((rdy.put R.fabPctrl_EN 1 3).put R.lnsStat_ADAPTED 1 23), by decide +kernel⟩,
   ⟨0, 15, List.replicate 16 0, (rdy.put R.lnsStat_LOCK 1 15), by decide +kernel⟩,
   ⟨0, rdy, by decide +kernel⟩,
   ⟨0, 0, (rdy.put R.hptPcfg_UP 1), by decide +kernel⟩,
   ⟨0, 0, (rdy.put R.hptPcfg_UP 1), by decide +kernel⟩,
   ⟨0, 0, ((rdy.put R.hptPcfg_UP 1).put R.lnsStat_PLL 1), by decide +kernel⟩,
   ⟨0, 0, ((rdy.put R.hptPcfg_UP 1).put R.lnsStat_CDR 1), by decide +kernel⟩,
   ⟨0, 2, rdy, by decide +kernel⟩,
   ⟨0, 3, rdy, by decide +kernel⟩,
   ⟨0, rdy, by decide +kernel⟩,
   ⟨0, .control, rdy, by unfold Writes; decide +kernel⟩,
   ⟨0, rdy, by decide +kernel⟩,
   ⟨0, .linkDown, rdy, by decide +kernel⟩,
   ⟨0, rdy, by decide +kernel⟩,
   ⟨0, rdy, by decide +kernel⟩⟩

theorem witness_DramRowsAct :
    (∃ t : Nat, ∃ d : Dimm, ∃ made : List ReadReq, ∃ c : Nat, ∃ e : ReadReq × Nat, ∃ s : State, Awake t s ∧ s.trained = true ∧ (∀ r ∈ made, s.inDram (burstOf r.addr) 64 = true) ∧ (readsJoin made (atTime t s)).nextRead d = some (c, e)) ∧
    (∃ t : Nat, ∃ d : Dimm, ∃ made : List ReadReq, ∃ s : State, Awake t s ∧ s.trained = true ∧ (∀ r ∈ made, s.inDram (burstOf r.addr) 64 = true) ∧ (readsJoin made (atTime t s)).nextRead d = none) ∧
    (∃ t : Nat, ∃ d : Dimm, ∃ r : ReadReq, ∃ s : State, Awake t s ∧ (s.trained = false ∨ s.inDram (burstOf r.addr) 64 = false) ∧ (atTime t s).nextRead d = none) ∧
    (∃ s : State, ∃ d : Nat, ∃ c : Nat, ∃ e : ReadReq × Nat, s.nextRead d = some (c, e)) ∧
    (∃ u : Nat, ∃ now : Nat, 20000000 < now - u) ∧
    (∃ t : Nat, ∃ addr : Nat, ∃ data : List Byte, ∃ s : State, Awake t s ∧ s.inDram addr data.length = true) ∧
    (∃ t : Nat, ∃ addr : Nat, ∃ data : List Byte, ∃ s : State, Awake t s ∧ s.inDram addr data.length = true) ∧
    (∃ t : Nat, ∃ d : Dimm, ∃ s : State, Awake t s ∧ s.trained = true ∧ s.readWaits d = false) ∧
    (∃ t : Nat, ∃ s : State, Awake t s ∧ s.trained = true) ∧
    (∃ d : Nat, ∃ u : State, mapGet 0 u.dram.windowAt d + (if u.flag (doubleField d) = true then 16000000000 else 32000000000) ≤ u.now) ∧
    (∃ u : State, u.dram.levelAt + u.levelWindow ≤ u.now) ∧
    (∃ t : Nat, ∃ d : Dimm, ∃ s : State, Awake t s ∧ s.trained = true ∧ (∀ u, s.dram.mr4At.lookup d.val = some u → u + 16000000000 ≤ (atTime t s).now)) ∧
    (∃ t : Nat, ∃ d : Dimm, ∃ sub : Bool, ∃ rank : Bool, ∃ bank : Fin 4, ∃ s : State, Awake t s ∧ s.trained = true ∧ (atTime t s).rankDebt d sub rank < 12 ∧ s.targets d sub rank bank = false) ∧
    (∃ t : Nat, ∃ d : Dimm, ∃ sub : Bool, ∃ rank : Bool, ∃ s : State, Awake t s ∧ s.trained = true ∧ 12 ≤ (atTime t s).rankDebt d sub rank) ∧
    (∃ t : Nat, ∃ d : Dimm, ∃ sub : Bool, ∃ s : State, Awake t s ∧ s.trained = true ∧ s.subBusy d (b2n sub) = false ∧ mapGet 0 s.dram.used (2 * d.val + b2n sub) + 400000 ≤ (atTime t s).now) ∧
    (∃ t : Nat, ∃ d : Dimm, ∃ sub : Bool, ∃ s : State, Awake t s ∧ s.trained = true ∧ mapGet 0 s.dram.dqsAt (2 * d.val + b2n sub) + 1000000000000 ≤ (atTime t s).now) ∧
    (∃ t : Nat, ∃ s : State, Awake t s ∧ s.trained = true) ∧
    (∃ t : Nat, ∃ s : State, Awake t s ∧ s.trained = true ∧ s.dram.passEnd ≠ 0 ∧ s.skipPoison 257 s.dram.scrub < s.scrubBursts ∧ s.scrubDue (s.skipPoison 257 s.dram.scrub) ≤ (atTime t s).now) ∧
    (∃ t : Nat, ∃ s : State, Awake t s ∧ s.trained = true ∧ s.dram.passEnd = 0 ∧ s.skipPoison 257 s.dram.scrub = 0 ∧ 0 < s.scrubBursts) ∧
    (∃ t : Nat, ∃ s : State, Awake t s ∧ s.dram.passEnd ≠ 0 ∧ s.dram.passEnd ≤ (atTime t s).now ∧ s.dram.lateRaised = false) ∧
    (∃ t : Nat, ∃ m : Master, ∃ s : State, Awake t s ∧ Writes 9 m s ∧ s.reservedAddr s.diagAddr = false ∧ s.diagAddr < s.capacity) :=
  ⟨⟨0, 0, [{ req := 7, redecode := false, addr := 0 }], readClass { req := 7, redecode := false, addr := 0 } 0 0, ({ req := 7, redecode := false, addr := 0 }, 0), rdy, by decide +kernel⟩,
   ⟨0, 1, [{ req := 7, redecode := false, addr := 0 }], rdy, by decide +kernel⟩,
   ⟨0, 0, { req := 7, redecode := false, addr := 0x1000000000 }, rdy, by decide +kernel⟩,
   ⟨readsJoin [{ req := 7, redecode := false, addr := 0 }] rdy, 0, readClass { req := 7, redecode := false, addr := 0 } 0 0, ({ req := 7, redecode := false, addr := 0 }, 0), by decide +kernel⟩,
   ⟨0, 20000001, by decide +kernel⟩,
   ⟨0, 0xFFFFFFFC0, [0], rdy, by decide +kernel⟩,
   ⟨0, 0xFFFFFFFFF, [1], rdy, by decide +kernel⟩,
   ⟨0, 1, rdy, by decide +kernel⟩,
   ⟨32000000000, rdy, by decide +kernel⟩,
   ⟨1, { rdy with now := 32000000000 }, by decide +kernel⟩,
   ⟨{ rdy with now := 1000000000000 }, by decide +kernel⟩,
   ⟨16000000000, 1, rdy, by decide +kernel, by decide +kernel, fun u h => nomatch h⟩,
   ⟨0, 1, true, true, 3, { rdy with dram := { rdy.dram with debt := [(31, (11, 0))] } }, by decide +kernel⟩,
   ⟨0, 1, true, true, { rdy with dram := { rdy.dram with debt := [(31, (12, 0))] } }, by decide +kernel⟩,
   ⟨400000, 1, true, rdy, by decide +kernel⟩,
   ⟨1000000000000, 1, true, rdy, by decide +kernel⟩,
   ⟨0, rdy, by decide +kernel⟩,
   ⟨0, { rdy with dram := { rdy.dram with passEnd := 1 } }, by decide +kernel⟩,
   ⟨0, rdy, by decide +kernel⟩,
   ⟨1, { rdy with dram := { rdy.dram with passEnd := 1 } }, by decide +kernel⟩,
   ⟨0, .control, rdy, by unfold Writes; decide +kernel⟩⟩

theorem witness_EngineRowsAct :
    (∃ t : Nat, ∃ s : State, Awake t s) ∧
    (∃ t : Nat, ∃ s : State, Awake t s) ∧
    (∃ t : Nat, ∃ s : State, Awake t s) ∧
    (∃ t : Nat, ∃ n : DmaCh, ∃ d : Desc, ∃ s : State, Awake t s ∧ s.dmaState n = 1 ∧ (s.dmaCh n).cur = some d ∧ (s.dmaCh n).writeBack = false) ∧
    (∃ t : Nat, ∃ n : DmaCh, ∃ d : Desc, ∃ s : State, Awake t s ∧ s.dmaState n = 1 ∧ (s.dmaCh n).cur = some d ∧ (s.dmaCh n).writeBack = true) ∧
    (∃ t : Nat, ∃ n : DmaCh, ∃ s : State, Awake t s ∧ s.dmaState n = 1 ∧ (s.dmaCh n).cur = none) ∧
    (∃ t : Nat, ∃ n : DmaCh, ∃ s : State, Awake t s ∧ s.dmaState n = 1 ∧ (s.dmaCh n).cur = none ∧ (s.dmaCh n).since + s.get R.dmaTimeout_MS * 1000000000 ≤ (atTime t s).now) ∧
    (∃ t : Nat, ∃ n : DmaCh, ∃ d : Desc, ∃ s : State, Awake t s ∧ s.dmaState n = 1 ∧ (s.dmaCh n).cur = some d ∧ addrSpace d.src ≠ 3 ∧ (s.dmaCh n).since + s.get R.dmaTimeout_MS * 1000000000 ≤ (atTime t s).now) ∧
    (∃ t : Nat, ∃ m : Master, ∃ u : CrcUnit, ∃ s : State, Awake t s ∧ WritesCrc m u s) ∧
    (∃ t : Nat, ∃ m : Master, ∃ u : CrcUnit, ∃ s : State, Awake t s ∧ WritesCrc m u s) ∧
    (∃ t : Nat, ∃ u : CrcUnit, ∃ s : State, Awake t s ∧ s.flag R.crcStat_BUSY u = true) ∧
    (∃ t : Nat, ∃ m : Master, ∃ u : CrcUnit, ∃ s : State, Awake t s ∧ WritesCrc m u s) ∧
    (∃ t : Nat, ∃ m : Master, ∃ u : CrcUnit, ∃ s : State, Awake t s ∧ WritesCrc m u s) :=
  ⟨⟨0, rdy, by decide +kernel⟩,
   ⟨0, rdy, by decide +kernel⟩,
   ⟨0, rdy, by decide +kernel⟩,
   ⟨0, 7, { src := 0, dst := 0, len := 0, ctl := 0x2000, next := 0 }, ((rdy.put R.dmaStat_STATE 1 7).setDma 7 { cur := some { src := 0, dst := 0, len := 0, ctl := 0x2000, next := 0 } }), by decide +kernel⟩,
   ⟨0, 7, { src := 0, dst := 0, len := 0, ctl := 0x2000, next := 0 }, ((rdy.put R.dmaStat_STATE 1 7).setDma 7 { cur := some { src := 0, dst := 0, len := 0, ctl := 0x2000, next := 0 }, writeBack := true }), by decide +kernel⟩,
   ⟨0, 7, (rdy.put R.dmaStat_STATE 1 7), by decide +kernel⟩,
   ⟨200000000000, 7, (rdy.put R.dmaStat_STATE 1 7), by decide +kernel⟩,
   ⟨200000000000, 7, { src := 0, dst := 0, len := 0, ctl := 0x2000, next := 0 }, ((rdy.put R.dmaStat_STATE 1 7).setDma 7 { cur := some { src := 0, dst := 0, len := 0, ctl := 0x2000, next := 0 } }), by decide +kernel⟩,
   ⟨0, .control, 0, rdy, by unfold WritesCrc Writes; decide +kernel⟩,
   ⟨0, .host, 3, ((rdy.put R.glbClaim1_CRC3 4).setReg ⟨.glbHostacc, 0, 0⟩ 0xFFFFFFFF), by unfold WritesCrc Writes; decide +kernel⟩,
   ⟨0, 3, (rdy.put R.crcStat_BUSY 1 3), by decide +kernel⟩,
   ⟨0, .control, 0, rdy, by unfold WritesCrc Writes; decide +kernel⟩,
   ⟨0, .control, 0, rdy, by unfold WritesCrc Writes; decide +kernel⟩⟩

theorem witness_StreamAndSliceRowsAct :
    (∃ t : Nat, ∃ ch : Chan, ∃ b : Band, ∃ s : State, Awake t s ∧ ((atTime t s).bandSegs ch b).filter (fun g => (atTime t s).decodeDue (4 * ch.val + b.val / 4) ((atTime t s).seg ch g).y && !((atTime t s).seg ch g).stops) = []) ∧
    (∃ t : Nat, ∃ ch : Chan, ∃ b : Band, ∃ g : Nat, ∃ s : State, Awake t s ∧ ((atTime t s).bandSegs ch b).filter (fun g => (atTime t s).decodeDue (4 * ch.val + b.val / 4) ((atTime t s).seg ch g).y && !((atTime t s).seg ch g).stops) = [g]) ∧
    (∃ t : Nat, ∃ ch : Chan, ∃ g : Seg, ∃ s : State, Awake t s ∧ (∀ k ∈ (s.seg ch g).upcoming, k ∈ (s.seg ch g).fetched.map (·.1) ∨ k ∈ (s.seg ch g).fetchErr)) ∧
    (∃ t : Nat, ∃ ch : Chan, ∃ g : Seg, ∃ k : Nat × Nat, ∃ before : List (Nat × Nat), ∃ after : List (Nat × Nat), ∃ s : State, Awake t s ∧ (s.seg ch g).upcoming = before ++ k :: after ∧ (∀ j ∈ before, j ∈ (s.seg ch g).fetched.map (·.1) ∨ j ∈ (s.seg ch g).fetchErr) ∧ k ∉ (s.seg ch g).fetched.map (·.1) ∧ k ∉ (s.seg ch g).fetchErr) ∧
    (∃ t : Nat, ∃ ch : Chan, ∃ g : Seg, ∃ e : BlockEnd, ∃ rest : List BlockEnd, ∃ s : State, Awake t s ∧ (s.seg ch g).ends = e :: rest ∧ e.name = 0 ∧ e.codesCrc = e.carried ∧ armedFor 8 ch s = false) ∧
    (∃ t : Nat, ∃ ch : Chan, ∃ g : Seg, ∃ e : BlockEnd, ∃ rest : List BlockEnd, ∃ s : State, Awake t s ∧ (s.seg ch g).ends = e :: rest ∧ (e.name ≠ 0 ∨ e.codesCrc ≠ e.carried)) ∧
    (∃ t : Nat, ∃ p : Port, ∃ g : Seg, ∃ y : Int, ∃ inj : Bool, ∃ s : State, Awake t s ∧ (s.seg (p.val / 4) g).late.lookup (p.val, y) = some inj ∧ (s.seg (p.val / 4) g).lateSeen.contains (p.val, y) = false) ∧
    (∃ t : Nat, ∃ p : Port, ∃ r : FaultRec, ∃ s : State, Awake t s ∧ (mapGet [] s.faults (p.val / 4)).find? (fun r => !r.done && decide (homeOf (p.val / 4) r.seg = p.val)) = some r) ∧
    (∃ t : Nat, ∃ m : Master, ∃ ch : Chan, ∃ v : Word, ∃ r : FaultRec, ∃ rest : List FaultRec, ∃ s : State, Awake t s ∧ Writes (1 + ch) m s ∧ mapGet [] s.faults ch.val = r :: rest ∧ fieldOf v 0 1 = 1 ∧ r.done = true) ∧
    (∃ t : Nat, ∃ s : State, Awake t s) ∧
    (∃ t : Nat, ∃ slot : Fin 64, ∃ s : State, Awake t s ∧ slot.val < 48 ∧ (atTime t s).now / 500000 % 64 = slot.val ∧ s.convSlot ≤ (atTime t s).now / 500000) ∧
    (∃ t : Nat, ∃ slot : Fin 64, ∃ s : State, Awake t s ∧ 48 ≤ slot.val ∧ (atTime t s).now / 500000 % 64 = slot.val ∧ s.convSlot ≤ (atTime t s).now / 500000) ∧
    (∃ t : Nat, ∃ g : BistGroup, ∃ inst : Nat, ∃ s : State, Awake t s ∧ s.dev ≠ .boot ∧ s.dev ≠ .held ∧ s.otp.lc ≠ .retired ∧ s.bistPlan.contains (g.val, inst) = true ∧ inst < instancesOf g ∧ s.spareBusy g = false ∧ (s.sliceOf g).isSome = false ∧ s.slices.length < s.get R.bstCtrl_MAXSLICE) ∧
    (∃ t : Nat, ∃ g : BistGroup, ∃ inst : Nat, ∃ s : State, Awake t s ∧ s.dev ≠ .boot ∧ s.dev ≠ .held ∧ s.otp.lc ≠ .retired ∧ s.bistPlan.contains (g.val, inst) = false ∧ s.flag R.bstCtrl_EN = true ∧ s.bistDone.contains (g.val, inst) = false ∧ s.bistAt ≤ (atTime t s).now ∧ inst < instancesOf g ∧ s.spareBusy g = false ∧ (s.sliceOf g).isSome = false ∧ s.slices.length < s.get R.bstCtrl_MAXSLICE) ∧
    (∃ t : Nat, ∃ g : BistGroup, ∃ x : Slice, ∃ s : State, Awake t s ∧ s.sliceOf g = some x ∧ x.step = 1 ∧ (s.cad.prevStart = some (atTime t s).now ∨ x.since + 100000000 ≤ (atTime t s).now)) ∧
    (∃ t : Nat, ∃ g : BistGroup, ∃ x : Slice, ∃ s : State, Awake t s ∧ s.sliceOf g = some x ∧ x.step = 5 ∧ (s.cad.prevStart = some (atTime t s).now ∨ x.since + 100000000 ≤ (atTime t s).now)) ∧
    (∃ t : Nat, ∃ g : BistGroup, ∃ x : Slice, ∃ s : State, Awake t s ∧ s.sliceOf g = some x ∧ x.step = 3 ∧ armedFor 64 g s = false) ∧
    (∃ t : Nat, ∃ g : BistGroup, ∃ x : Slice, ∃ s : State, Awake t s ∧ s.sliceOf g = some x ∧ x.step = 3 ∧ armedFor 64 g s = false) ∧
    (∃ t : Nat, ∃ m : Master, ∃ s : State, Awake t s ∧ Writes 16 m s) :=
  ⟨⟨0, 0, 1, inDev .printing { aJob with y0 := some 0 }, by decide +kernel⟩,
   ⟨0, 0, 0, 0, inDev .printing { aJob with y0 := some 0 }, by decide +kernel⟩,
   ⟨0, 0, 0, conf, by decide +kernel⟩,
   ⟨0, 0, 0, (0, 0x1000000), [], [], (conf.setSeg 0 0 { width := 64, pageLen := 4, posts := [{ page := 0, lines := 4, addr := 0x1000000, len := 1, ring := 64, raw := false, lib := none, pages := 1, index := 0 }] }), by decide +kernel⟩,
   ⟨0, 0, 0, { addr := 0, firstLine := 0, firstCol := 0, span := 1, lastLine := 0, pageLine := 0, page := 0, name := 0, bitPos := 0, codesCrc := 5, carried := 5, giveUp := false }, [], (conf.setSeg 0 0 { width := 64, pageLen := 4, ends := [{ addr := 0, firstLine := 0, firstCol := 0, span := 1, lastLine := 0, pageLine := 0, page := 0, name := 0, bitPos := 0, codesCrc := 5, carried := 5, giveUp := false }] }), by decide +kernel⟩,
   ⟨0, 0, 0, { addr := 0, firstLine := 0, firstCol := 0, span := 1, lastLine := 0, pageLine := 0, page := 0, name := 7, bitPos := 0, codesCrc := 5, carried := 5, giveUp := false }, [], (conf.setSeg 0 0 { width := 64, pageLen := 4, ends := [{ addr := 0, firstLine := 0, firstCol := 0, span := 1, lastLine := 0, pageLine := 0, page := 0, name := 7, bitPos := 0, codesCrc := 5, carried := 5, giveUp := false }] }), by decide +kernel⟩,
   ⟨0, 15, 127, 0, true, (conf.setSeg 3 127 { width := 64, late := [((15, 0), true)] }), by decide +kernel⟩,
   ⟨0, 12, { done := false, name := 7, seg := 0, slot := 0, page := 0, bitPos := 0, addr := 0x1000000, line := 0, w := 64, pageLen := 4, posts := [] }, { conf with faults := [(3, [{ done := false, name := 7, seg := 0, slot := 0, page := 0, bitPos := 0, addr := 0x1000000, line := 0, w := 64, pageLen := 4, posts := [] }])] }, by decide +kernel⟩,
   ⟨0, .control, 3, 1, { done := true, name := 7, seg := 0, slot := 0, page := 0, bitPos := 0, addr := 0x1000000, line := 0, w := 64, pageLen := 4, posts := [] }, [], { conf with faults := [(3, [{ done := true, name := 7, seg := 0, slot := 0, page := 0, bitPos := 0, addr := 0x1000000, line := 0, w := 64, pageLen := 4, posts := [] }])] }, by unfold Writes; decide +kernel⟩,
   ⟨0, rdy, by decide +kernel⟩,
   ⟨23500000, 47, rdy, by decide +kernel⟩,
   ⟨31500000, 63, rdy, by decide +kernel⟩,
   ⟨0, 0, 0, { rdy with bistPlan := [(0, 0)] }, by decide +kernel⟩,
   ⟨1000000000000, 0, 0, (rdy.put R.bstCtrl_EN 1), by decide +kernel⟩,
   ⟨100000000, 0, { g := 0, inst := 0, step := 1, since := 0, asked := true }, { rdy with slices := [{ g := 0, inst := 0, step := 1, since := 0, asked := true }] }, by decide +kernel⟩,
   ⟨100000000, 0, { g := 0, inst := 0, step := 5, since := 0, asked := true }, { rdy with slices := [{ g := 0, inst := 0, step := 5, since := 0, asked := true }] }, by decide +kernel⟩,
   ⟨100000000, 0, { g := 0, inst := 0, step := 3, since := 0, asked := true }, { rdy with slices := [{ g := 0, inst := 0, step := 3, since := 0, asked := true }] }, by decide +kernel⟩,
   ⟨100000000, 0, { g := 0, inst := 0, step := 3, since := 0, asked := true }, { rdy with slices := [{ g := 0, inst := 0, step := 3, since := 0, asked := true }] }, by decide +kernel⟩,
   ⟨0, .control, rdy, by unfold Writes; decide +kernel⟩⟩

theorem witness_StepRunsFront : (∃ c rest, ∃ s : State, s.pending = c :: rest) ∧ ∃ s : State, s.pending = [] :=
  ⟨⟨.compressorBlock 0, [], { rdy with pending := [.compressorBlock 0] }, rfl⟩, rdy, rfl⟩
theorem witness_QueueFirstInFirstOut : ∃ c rest s s', State.pending s = c :: rest ∧ step s = .next s' :=
  ⟨.compressorBlock 7, [.standstill 8], { rdy with pending := [.compressorBlock 7, .standstill 8] }, _, rfl, rfl⟩
theorem witness_StepKeepsSound : ∃ s s', State.sound s ∧ step s = .next s' :=
  ⟨{ State.reset with pending := [.internalResetRelease 50000000 State.reset.straps] }, _, ⟨fun _ _ _ => rfl, by decide, by decide⟩, rfl⟩
theorem witness_OnlyRatingsStop : (∃ rails, beyond rails = true) ∧ ∃ (rail : Fin 8) (mv : Nat), railMax.getD rail 0 < mv :=
  ⟨⟨{ goodRails with vdd := 901 }, by decide⟩, 7, 951, by decide⟩
/-- In full reset: a command other than a packet or an ALIGN pair, and a packet and an ALIGN pair of a port that is not in kickstand; and both
in kickstand. -/
def apart : State := { State.reset with boot := { State.reset.boot with kickstand := false } }
theorem witness_FullResetHolds :
    (∃ c, ∃ s : State, actsInReset c = false ∧ (∀ t, (atTime t s).asserted = true) ∧
      (∀ t q far pair, c = .fabricAlign t q far pair → (atTime t s).kicking = false) ∧ ∀ e, packetOf c = some e → (atTime e.1 s).kicking = false) ∧
    (∃ c e, ∃ s : State, actsInReset c = false ∧ (∀ t, (atTime t s).asserted = true) ∧
      (∀ t q far pair, c = .fabricAlign t q far pair → (atTime t s).kicking = false) ∧ packetOf c = some e ∧ (atTime e.1 s).kicking = false) ∧
    (∃ t far pair, ∃ s : State, actsInReset (.fabricAlign t 3 far pair) = false ∧ (∀ t, (atTime t s).asserted = true) ∧ (atTime t s).kicking = false) ∧
    (∃ c t q p, ∃ s : State, packetOf c = some (t, q, p) ∧ (atTime t s).kicking = true) ∧ ∃ t, ∃ s : State, (atTime t s).kicking = true :=
  ⟨⟨.identify 0 (cmd .q0 []), State.reset, by decide, fun _ => rfl, (fun _ _ _ _ h => nomatch h), fun _ h => nomatch h⟩,
   ⟨.probe 0 0 (pkt 0x22 2 1 []), (0, 0, pkt 0x22 2 1 []), apart, by decide, fun _ => rfl, (fun _ _ _ _ h => nomatch h), rfl, by decide +kernel⟩,
   ⟨0, ⟨0, 0⟩, ⟨0, 0⟩, apart, by decide, fun _ => rfl, by decide +kernel⟩,
   ⟨.probe 0 0 (pkt 0x22 2 1 []), 0, 0, pkt 0x22 2 1 [], State.reset, rfl, by decide +kernel⟩, 0, State.reset, by decide +kernel⟩
theorem witness_SafeStateHoldsStrobes : ∃ c s s', exec c s = .next s' ∧ s'.flag R.rdgStatus_SAFE = true :=
  ⟨.compressorBlock 0, State.reset, conclude (atTime 0 State.reset) (atTime 0 State.reset), rfl, by decide +kernel⟩
theorem witness_NotServedInHeld : (∃ i t c r, ∃ s : State, opRowOf i = some (t, c, r) ∧ Awake t s ∧ takes c.q (atTime t s) = true ∧ s.dev = .held ∧
      r.held = false) ∧
    ∃ i t c r, ∃ s : State, opRowOf i = some (t, c, r) ∧ Awake t s ∧ takes c.q (atTime t s) = true ∧ s.dev = .held ∧
      (s.get R.glbBootstat_HELDCAUSE = 7 ∧ r.op ≠ 0x0101) :=
  ⟨⟨.getState 0 (cmd .q0 []), _, _, _, { rdy with dev := .held }, rfl, by decide +kernel⟩,
   .imgInfo 0 (cmd .q0 []), _, _, _, { rdy.put R.glbBootstat_HELDCAUSE 7 with dev := .held }, rfl, by decide +kernel⟩
theorem allZero {l : List Word} (h : (l.all fun w => decide (w = 0)) = true) : ∀ w ∈ l, w = 0 := by simpa using h

/-- One state for each test: a row turned away, a word that the row does not name, a state not listed; and `RDG_MAINT` outside READY. -/
theorem witness_JudgedInOrder :
    (∃ i t c r, ∃ s : State, opRowOf i = some (t, c, r) ∧ Awake t s ∧ takes c.q (atTime t s) = true ∧
      ¬(s.dev = .held ∧ (r.held = false ∨ (s.get R.glbBootstat_HELDCAUSE = 7 ∧ r.op ≠ 0x0101))) ∧
      c.q = .q8 ∧ (s.get R.fabState_MODE = 3 ∨ s.get R.fabState_MODE = 4) ∧ (r.op / 256 = 5 ∨ r.op / 256 = 7)) ∧
    (∃ i t c r, ∃ s : State, opRowOf i = some (t, c, r) ∧ Awake t s ∧ takes c.q (atTime t s) = true ∧
      ¬(s.dev = .held ∧ (r.held = false ∨ (s.get R.glbBootstat_HELDCAUSE = 7 ∧ r.op ≠ 0x0101))) ∧ c.q ≠ .q8 ∧
      ¬(c.flags = 0 ∧ r.argw ≤ c.args.length ∧ ∀ w ∈ c.args.drop r.argw, w = 0)) ∧
    (∃ i t c r, ∃ s : State, opRowOf i = some (t, c, r) ∧ Awake t s ∧ takes c.q (atTime t s) = true ∧
      ¬(s.dev = .held ∧ (r.held = false ∨ (s.get R.glbBootstat_HELDCAUSE = 7 ∧ r.op ≠ 0x0101))) ∧ c.q ≠ .q8 ∧
      (c.flags = 0 ∧ r.argw ≤ c.args.length ∧ ∀ w ∈ c.args.drop r.argw, w = 0) ∧
      ¬((s.dev = .held ∨ s.dev ∈ r.states) ∧ (r.needsJob = true → s.job ≠ none))) ∧
    ∃ t, ∃ c : Cmd, ∃ s : State, Awake t s ∧ takes c.q (atTime t s) = true ∧ s.dev ≠ .ready ∧ c.q = .ridge ∧ c.flags = 0 ∧ 1 ≤ c.args.length ∧
      ∀ w ∈ c.args.drop 1, w = 0 :=
  ⟨⟨.cadStatus 0 (cmd .q8 []), _, _, _, rdy.put R.fabState_MODE 3, rfl, by decide +kernel⟩,
   ⟨.getState 0 (cmd .q0 [1]), _, _, _, rdy, rfl, by decide +kernel, by decide +kernel, by decide +kernel, by decide,
     fun h => absurd (h.2.2 1 (by decide)) (by decide)⟩,
   ⟨.jobArm 0 (cmd .q0 []), _, _, _, rdy, rfl, by decide +kernel, by decide +kernel, by decide +kernel, by decide,
     ⟨by decide, by decide, allZero (by decide)⟩, by decide⟩,
   0, cmd .ridge [], { rdy with dev := .safe }, by decide +kernel, by decide +kernel, by decide, by decide, by decide, by decide, allZero (by decide)⟩
theorem witness_NothingTakenNothingDone :
    (∃ i t c r, ∃ s : State, opRowOf i = some (t, c, r) ∧ Awake t s ∧ takes c.q (atTime t s) = false) ∧
    ∃ i t op q, ∃ s : State, doneOf i = some (t, op, q) ∧ Awake t s ∧ openFor op q s = none :=
  ⟨⟨.getState 0 (cmd .q3 []), _, _, _, { rdy with dev := .boot }, rfl, by decide +kernel⟩, .tblReadDone 0 .q8, _, _, _, rdy, rfl, by decide +kernel⟩
/-- Channel 15 from the host to the control processor, and its message word 15, LEN 16, and LEN 0, which leaves it. -/
theorem witness_SenderPosts : ∃ m, ∃ n : PnrCh, ∃ s : State, Awake 0 s ∧ s.isSender m n = true ∧ (atTime 0 s).sessionOver m = false ∧
      s.flag R.pnrStatus_FULL n = false :=
  ⟨.host, 15, (rdy.put R.pnrBind_SEND 1 15).put R.pnrBind_RECV 2 15, by decide +kernel⟩
theorem witness_FullChannelHolds : ∃ m, ∃ n : PnrCh, ∃ s : State, Awake 0 s ∧ s.isSender m n = true ∧ (atTime 0 s).sessionOver m = false ∧
      s.flag R.pnrStatus_FULL n = true :=
  ⟨.host, 15, ((rdy.put R.pnrBind_SEND 1 15).put R.pnrBind_RECV 2 15).put R.pnrStatus_FULL 1 15, by decide +kernel⟩
theorem witness_ReceiverTakes : (∃ m, ∃ n : PnrCh, ∃ s : State, Awake 0 s ∧ s.isReceiver m n = true ∧ s.flag R.pnrStatus_FULL n = true) ∧
    ∃ m, ∃ n : PnrCh, ∃ s : State, Awake 0 s ∧ s.isReceiver m n = true ∧ s.flag R.pnrStatus_FULL n = false :=
  ⟨⟨.control, 0, rdy.put R.pnrStatus_FULL 1, by decide +kernel⟩, .control, 0, rdy, by decide +kernel⟩
theorem witness_LockReadAcquires : (∃ n : PnrCh, ∃ s : State, Awake 0 s ∧ s.get R.pnrLock_OWNER n = 0) ∧
    ∃ n : PnrCh, ∃ s : State, Awake 0 s ∧ s.get R.pnrLock_OWNER n ≠ 0 :=
  ⟨⟨15, rdy, by decide +kernel⟩, 15, rdy.put R.pnrLock_OWNER 5 15, by decide +kernel⟩
theorem witness_LockWriteReleases : (∃ m : Master, ∃ n : PnrCh, ∃ owner : BitVec 3, ∃ s : State, Awake 0 s ∧
      (s.get R.pnrLock_OWNER n = m.num ∧ owner.toNat = m.num)) ∧
    ∃ m : Master, ∃ n : PnrCh, ∃ owner : BitVec 3, ∃ s : State, Awake 0 s ∧ ¬(s.get R.pnrLock_OWNER n = m.num ∧ owner.toNat = m.num) :=
  ⟨⟨.debug, 15, 5, rdy.put R.pnrLock_OWNER 5 15, by decide +kernel⟩, .host, 15, 5, rdy.put R.pnrLock_OWNER 5 15, by decide +kernel⟩
theorem witness_HeartbeatKicks :
    (∃ key : Byte, ∃ s : State, Awake 0 s ∧ s.flag R.rdgHbstat_EXPIRED = false ∧ armedFor 54 0 s = false ∧
      key.toNat = s.get R.rdgHbstat_NEXTKEY) ∧
    (∃ key : Byte, ∃ s : State, Awake 0 s ∧ s.flag R.rdgHbstat_EXPIRED = false ∧ armedFor 54 0 s = false ∧
      key.toNat ≠ s.get R.rdgHbstat_NEXTKEY) ∧
    (∃ m : Master, ∃ s : State, Awake 0 s ∧ m ≠ .control) ∧
    ∃ s : State, Awake 0 s ∧ s.flag R.rdgHbstat_ARMED = false :=
  ⟨⟨255, rdy.put R.rdgHbstat_NEXTKEY 255, by decide +kernel⟩, ⟨0, rdy.put R.rdgHbstat_NEXTKEY 255, by decide +kernel⟩, ⟨.host, rdy, by decide +kernel⟩,
   rdy, by decide +kernel⟩
theorem witness_OnlyOwnersWrite : ∃ s : State, ∃ m owner : Master, Awake 0 s ∧ m ≠ .ridge ∧ m ≠ .control ∧ m ≠ owner :=
  ⟨rdy, .host, .debug, by decide +kernel⟩
theorem witness_HostWriteNeedsEnable : ∃ s : State, Awake 0 s ∧ ∀ b ∈ [0, 9, 11, 13, 15, 16, 17], bitOf (s.get R.glbHostacc_WEN) b = false :=
  ⟨rdy, by decide +kernel⟩
theorem witness_RaiseCountsAndRecords : ∃ s : State, Awake 0 s ∧ (atTime 0 s).hostLink = true := ⟨rdy, by decide +kernel⟩

/-- The command answers a next state. -/
def Runs (c : Instr) (s : State) : Prop := ∃ s', exec c s = .next s'

theorem live_runs {t : Nat} {s : State} {f : State → State} : ∃ s', live t s f = .next s' := by
  unfold live; split <;> exact ⟨_, rfl⟩

/-- The unread queue of `conf` holds one whole burst for channel 0. -/
theorem conf_queues : QueuesRight conf
  | 0 => by decide +kernel
  | n + 1 => fun w h => (List.not_mem_nil (show w ∈ ([] : List QWrite) from h)).elim

theorem queries_run (s : State) : Runs (.identify 0 (cmd .q0 [])) s ∧ Runs (.getState 0 (cmd .q0 [])) s ∧ Runs (.imgInfo 0 (cmd .q0 [1])) s ∧
    Runs (.memMap 0 (cmd .q0 [])) s ∧ Runs (.cadStatus 0 (cmd .q0 [])) s ∧ Runs (.motStatus 0 (cmd .q0 [7])) s ∧
    Runs (.rdgIdentify 0 (cmd .ridge [])) s ∧ Runs (.rdgStatus 0 (cmd .ridge [])) s :=
  ⟨live_runs, live_runs, live_runs, live_runs, live_runs, live_runs, live_runs, live_runs⟩
theorem settings_run (s : State) : Runs (.cadSpeed 0 (cmd .q0 [1048575, 1000, 256, 65535])) s ∧ Runs (.errRoute 0 (cmd .q0 [65, 0, 0])) s ∧
    Runs (.eventMask 0 (cmd .q0 [0xFFFFFFFF])) s ∧ Runs (.eccErasure 0 (cmd .q0 [1, 1, 19])) s :=
  ⟨live_runs, live_runs, live_runs, live_runs⟩
theorem tables_run (s : State) : Runs (.chGeometry 0 (cmd .q0 [3, 65536, 64, 4, 0xFF, 0xFF])) s ∧ Runs (.chSegment 0 (cmd .q0 [0, 127, 65472, 64])) s ∧
    Runs (.jetStatus 0 (cmd .q0 [0, 65535, 1, 3])) s := ⟨live_runs, live_runs, live_runs⟩
theorem registers_run (s : State) : Runs (.crcValWrite 0 .control 2 true 5) s ∧ Runs (.lnsInj 0 .control 23 1) s ∧ Runs (.senseCommit 0 .control) s ∧
    Runs (.pnrBindWrite 0 .control 15 5) s ∧ Runs (.pnrBindlockSet 0 .control) s ∧ Runs (.pnrLockRead 0 .control 0 15) s ∧
    Runs (.pnrLockRelease 0 .control 15 2) s ∧ Runs (.pnrBellClear 0 .control .control 1) s ∧ Runs (.wdfaultClear 0 .ridge 1 1) s ∧
    Runs (.cadPosloRead 0 .control) s ∧ Runs (.fabTimeloRead 0 .control) s ∧ Runs (.pmcCntloRead 0 .control 31) s ∧ Runs (.mr4Poll 0 1 true) s ∧
    Runs (.standstillHold 0 7) s ∧ Runs (.lanePllRelock 0 2) s := by
  simp only [Runs, exec, execCrcValWrite, execLnsInj, execSenseCommit, execPnrBindWrite, execPnrBindlockSet, execPnrLockRead, execPnrLockRelease, execPnrBellClear, execWdfaultClear, execCadPosloRead, execFabTimeloRead, execPmcCntloRead, execMr4Poll, execStandstillHold, execLanePllRelock, liveWrite, liveRead, live_runs, and_self]
theorem message_runs (s : State) : Runs (.pnrMsgWrite 0 .host 0 15 5) s ∧ Runs (.pnrCtrlLenWrite 0 .host 0 16) s ∧ Runs (.pnrEpochWrite 0 .control 0 1) s := by
  simp only [Runs, exec, execPnrMsgWrite, execPnrCtrlLenWrite, execPnrEpochWrite, liveWrite, live_runs, and_self]
theorem stores_run (s : State) : Runs (.dramWrite 0 7 0x1000000 (List.replicate 64 5)) s ∧ Runs (.narrowWrite 0 7 1 [5]) s ∧ Runs (.writeDrain 0 0) s ∧
    Runs (.bar2Write 0 0 [5]) s ∧ Runs (.sramWindowWrite 0 .host 0x30FFFC 5) s ∧ Runs (.imgWrite 0 (cmd .q0 [1, 1, 0, 0, 0, 64])) s := by
  simp only [Runs, exec, execDramWrite, execNarrowWrite, execWriteDrain, execBar2Write, execSramWindowWrite, execImgWrite, command, liveWrite, liveReading, live_runs, and_self]

theorem witness_QueriesKeepState : ∃ s : State, NoneWaits s ∧ armedFor 45 11 s = false ∧ armedFor 46 11 s = false ∧ Runs (.identify 0 (cmd .q0 [])) s ∧
    Runs (.getState 0 (cmd .q0 [])) s ∧ Runs (.imgInfo 0 (cmd .q0 [1])) s ∧ Runs (.memMap 0 (cmd .q0 [])) s ∧ Runs (.cadStatus 0 (cmd .q0 [])) s ∧
    Runs (.motStatus 0 (cmd .q0 [7])) s ∧ Runs (.rdgIdentify 0 (cmd .ridge [])) s ∧ Runs (.rdgStatus 0 (cmd .ridge [])) s :=
  ⟨rdy, by decide, by decide, by decide, queries_run rdy⟩
theorem witness_SettingsKeepOthers : ∃ s : State, NoneWaits s ∧ armedFor 45 11 s = false ∧ armedFor 46 11 s = false ∧
    Runs (.cadSpeed 0 (cmd .q0 [1048575, 1000, 256, 65535])) s ∧ Runs (.errRoute 0 (cmd .q0 [65, 0, 0])) s ∧
    Runs (.eventMask 0 (cmd .q0 [0xFFFFFFFF])) s ∧ Runs (.eccErasure 0 (cmd .q0 [1, 1, 19])) s :=
  ⟨rdy, by decide, by decide, by decide, settings_run rdy⟩
theorem witness_TableCommandsKeepOthers : ∃ s : State, NoneWaits s ∧ armedFor 45 11 s = false ∧ armedFor 46 11 s = false ∧
    Runs (.chGeometry 0 (cmd .q0 [3, 65536, 64, 4, 0xFF, 0xFF])) s ∧ Runs (.chSegment 0 (cmd .q0 [0, 127, 65472, 64])) s ∧
    Runs (.jetStatus 0 (cmd .q0 [0, 65535, 1, 3])) s :=
  ⟨conf, by decide +kernel, by decide +kernel, by decide +kernel, tables_run conf⟩
theorem witness_RegisterRowsKeepOthers : ∃ s : State, Awake 0 s ∧ (s.isSender .host 0 = true ∧ s.flag R.pnrStatus_FULL = false ∧
      s.isReceiver .control 0 = true ∧ WritesCrc .control 2 s ∧ Writes 17 .control s ∧ Writes 13 .control s) ∧
    (Runs (.pnrMsgWrite 0 .host 0 15 5) s ∧ Runs (.pnrCtrlLenWrite 0 .host 0 16) s ∧ Runs (.pnrEpochWrite 0 .control 0 1) s) ∧
    Runs (.crcValWrite 0 .control 2 true 5) s ∧ Runs (.lnsInj 0 .control 23 1) s ∧ Runs (.senseCommit 0 .control) s ∧
    Runs (.pnrBindWrite 0 .control 15 5) s ∧ Runs (.pnrBindlockSet 0 .control) s ∧ Runs (.pnrLockRead 0 .control 0 15) s ∧
    Runs (.pnrLockRelease 0 .control 15 2) s ∧ Runs (.pnrBellClear 0 .control .control 1) s ∧ Runs (.wdfaultClear 0 .ridge 1 1) s ∧
    Runs (.cadPosloRead 0 .control) s ∧ Runs (.fabTimeloRead 0 .control) s ∧ Runs (.pmcCntloRead 0 .control 31) s ∧ Runs (.mr4Poll 0 1 true) s ∧
    Runs (.standstillHold 0 7) s ∧ Runs (.lanePllRelock 0 2) s :=
  ⟨rdy, by decide +kernel, by unfold WritesCrc Writes; decide +kernel, message_runs rdy, registers_run rdy⟩
theorem witness_BurstWriteStores : ∃ s : State, Awake 0 s ∧ QueuesRight s ∧ s.trained = true ∧ s.inDram 0x1000000 64 = true ∧
    s.reservedAddr 0x1000000 = false ∧ (∀ e ∈ s.dram.reads, e.1.req ≠ 7) ∧ Runs (.dramWrite 0 7 0x1000000 (List.replicate 64 5)) s :=
  ⟨conf, by decide +kernel, conf_queues, by decide +kernel, by decide +kernel, by decide +kernel, by decide +kernel, (stores_run conf).1⟩
theorem witness_DrainIsInvisible : ∃ s : State, Awake 0 s ∧ QueuesRight s ∧ s.trained = true ∧ s.readWaits 0 = false ∧ armedFor 45 12 s = false ∧
    armedFor 46 12 s = false ∧ (∀ w ∈ s.wq 0, (atTime 0 s).dqsHeld (s.loc w.addr) = false) ∧ Runs (.writeDrain 0 0) s :=
  ⟨conf, by decide +kernel, conf_queues, by decide +kernel, by decide +kernel, by decide +kernel, by decide +kernel, by decide +kernel, (stores_run conf).2.2.1⟩
/-- A read of the write queue's burst, and a read of a poisoned one. -/
def asks : List ReadReq := [{ req := 7, redecode := false, addr := 0x1000000 }]
def poisoned : State := { rdy with dram := { rdy.dram with poison := [(0, { addr := 0x1000000, cause := 3, req := 5, owner := [] })] } }
theorem witness_QueuedAndPoisonedReads :
    (∃ s w c e, State.queued s 0x1000000 = some w ∧ Awake 0 s ∧ s.trained = true ∧ (∀ r ∈ asks, s.inDram (burstOf r.addr) 64 = true) ∧
      (readsJoin asks (atTime 0 s)).nextRead 0 = some (c, e) ∧ e.1.addr = 0x1000000 ∧ s.reservedAddr (burstOf e.1.addr) = false) ∧
    ∃ s c e, State.queued s 0x1000000 = none ∧ (s.poisonOf 0x1000000).isSome = true ∧ Awake 0 s ∧ s.trained = true ∧
      (∀ r ∈ asks, s.inDram (burstOf r.addr) 64 = true) ∧ (readsJoin asks (atTime 0 s)).nextRead 0 = some (c, e) ∧ e.1.addr = 0x1000000 ∧
      s.reservedAddr (burstOf e.1.addr) = false :=
  ⟨⟨conf, { addr := 0x1000000, req := 5, data := List.replicate 64 0 }, 2, ({ req := 7, redecode := false, addr := 0x1000000 }, 0), by decide +kernel⟩,
   poisoned, 2, ({ req := 7, redecode := false, addr := 0x1000000 }, 0), by decide +kernel⟩
theorem witness_StoringRowsKeepForm : ∃ s : State, s.memWf ∧ Awake 0 s ∧ s.inject = none ∧
    Runs (.dramWrite 0 7 0x1000000 (List.replicate 64 5)) s ∧ Runs (.narrowWrite 0 7 1 [5]) s ∧ Runs (.writeDrain 0 0) s ∧ Runs (.bar2Write 0 0 [5]) s ∧
    Runs (.sramWindowWrite 0 .host 0x30FFFC 5) s :=
  ⟨conf, by unfold State.memWf Memory.wf; decide +kernel, by decide +kernel, by decide +kernel, (stores_run conf).1, (stores_run conf).2.1,
   (stores_run conf).2.2.1, (stores_run conf).2.2.2.1, (stores_run conf).2.2.2.2.1⟩
theorem witness_StagingAndFlashWrites :
    (∃ s : State, Awake 0 s ∧ usesBuffer s = true ∧ Runs (.sramWindowWrite 0 .host 0x30FFFC 5) s) ∧
    ∃ s, Taken { op := 0x0201, argw := 7, states := [.ready, .fault], held := true } 0 (cmd .q0 [1, 1, 0, 0, 0, 64]) s ∧
      imgWriteFail (cmd .q0 [1, 1, 0, 0, 0, 64]) (atTime 0 s) = none ∧ s.dev = .held ∧ armedFor 45 11 s = false ∧ armedFor 46 11 s = false ∧
      Runs (.imgWrite 0 (cmd .q0 [1, 1, 0, 0, 0, 64])) s :=
  ⟨⟨{ rdy with dev := .held }, by decide +kernel, by decide +kernel, (stores_run _).2.2.2.2.1⟩,
   { rdy with dev := .held }, by unfold Taken; decide +kernel, by decide +kernel, by decide +kernel, by decide +kernel, by decide +kernel,
   (stores_run _).2.2.2.2.2⟩

/-! Ill-formed commands, each refused by WellFormed. -/

theorem wf_refuses_short : (cmd .q0 []).wf = true ∧ ({ q := .q0, seq := 0, args := List.replicate 5 0 } : Cmd).wf = false := by decide
theorem wf_refuses_long : ({ q := .q0, seq := 0, args := List.replicate 15 0 } : Cmd).wf = false := by decide
theorem wf_refuses_member : ({ cmd .q0 [] with member := 2 }).wf = false ∧ ({ cmd .q8 [] with member := 2 }).wf = true := by decide
theorem wf_refuses_queue : (Instr.rdgStatus 0 (cmd .q0 [])).wf = false ∧ (Instr.identify 0 (cmd .ridge [])).wf = false := by decide
theorem wf_refuses_empty : (Instr.telemetryFrame 0 0 ⟨0, []⟩).wf = false := by decide
theorem wf_refuses_heads : (Instr.laneBlockLock 0 ⟨0, List.replicate 65 1⟩).wf = false ∧ (Instr.laneBlockLoss 0 ⟨0, List.replicate 65 0⟩).wf = false := by decide
theorem wf_refuses_packet : (Instr.probe 0 0 { ty := 0x22, cls := 2, dest := 1, src := 2, ttl := 3, length := 0, tag := 0, payload := [0], crc := 0 }).wf = false := by
  decide
theorem wf_refuses_burst : (Instr.dramWrite 0 0 0 [1]).wf = false ∧ (Instr.dramWrite 0 0 8 (List.replicate 64 0)).wf = false := by decide
theorem wf_refuses_narrow : (Instr.narrowWrite 0 0 0 []).wf = false ∧ (Instr.narrowWrite 0 0 63 [1, 2]).wf = false := by decide
theorem wf_refuses_delay : (Instr.delayMeasure 0 0 [1]).wf = false := by decide

/-! Checks and worked examples of the spec. -/

/-- The ASCII string of the check values. -/
def digits : List Byte := [0x31, 0x32, 0x33, 0x34, 0x35, 0x36, 0x37, 0x38, 0x39]
theorem test_crc16_check : crc16 digits = 0x29B1 := by decide +kernel
theorem test_crc32c_check : crc32c digits = 0xE3069283 := by decide +kernel
/-- R371: the four algorithms' check values. -/
theorem test_crc_algorithms : (List.range 4).map (fun p => crcResult p (crcFeed p (crcStart p) digits)) =
    [0xE3069283, 0xCBF43926, 0x29B1, 0x6C40DF5F0B497347] := by decide +kernel
/-- Spec 16: after INIT and three data writes VALLO reads 0x1CF96D7C. -/
theorem test_crc_unit_feed : crcFeed 0 (crcFeed 0 (crcFeed 0 0xFFFFFFFF (wordBytes 0x34333231)) (wordBytes 0x38373635)) [0x39] = 0x1CF96D7C := by
  decide +kernel

/-- A block through the decoder: its codes and whether its end check agrees (R153, R155). -/
def runBlock (w : Nat) (bs : List Byte) : Nat → DecSt → Option (DecSt × Bool)
  | 0, _ => none
  | n + 1, d =>
    match (if d.inBlock then stepBlock (fun a => bs[a]?.map some) w d else beginBlock (fun a => bs[a]?.map some) 0 w 3 3 bs.length d) with
    | .ok d _ => runBlock w bs n d
    | .done d => some (d, decide (~~~ d.runCrc = BitVec.ofNat 32 (leNat (bs.drop (d.blockLen - 4)))))
    | _ => none
def blockA : List Byte := [0xAB, 0x05, 1, 0, 0x0F, 0, 0, 0, 0xBE, 0xF4, 0x7F, 0x43, 0xAB, 0xA8, 0x62]
def blockB : List Byte := [0xAB, 0x01, 1, 0, 0x10, 0, 0, 0, 0xF7, 0xEF, 0xFF, 0x0F, 0x43, 0xAB, 0xA8, 0x62]
/-- Spec 07, *Worked encoding*: a literal and a run, and a back-copy over a block boundary, each one line of dose 15 with the check 0x62A8AB43. -/
theorem test_blockA : (runBlock 64 blockA 5 {}).map (fun r => (r.1.prev, r.2)) = some (List.replicate 64 15, true) := by decide +kernel
theorem test_blockB : (runBlock 64 blockB 5 { line := 1, prev := List.replicate 64 15, hist := List.replicate 64 15 }).map
    (fun r => (r.1.prev, r.2)) = some (List.replicate 64 15, true) := by decide +kernel

/-- Spec 15: check byte 12 wrong by 0x5A is syndromes 0x5A, 0xEA, 0x03, and is put right. -/
def badWord : List Byte := List.replicate 76 0 ++ [0x5A, 0, 0, 0]
theorem test_syndromes : (rsSyndromes badWord).take 3 = [0x5A, 0xEA, 0x03] := by decide +kernel
theorem test_correction : rsDecode badWord [] = some (List.replicate 80 0) := by decide +kernel

/-- Spec 19: 12,671 at ratio 2,560 is 11,600 mV. -/
theorem test_supply : milliVolts 12671 2560 = 11600 := by decide
/-- Spec 11: at 45 degrees the temperature factor is 4,014, at 11,600 mV the supply factor 4,383, and the width 1,342. -/
theorem test_width : tempFactor [(640, 4096), (800, 3932)] 720 = 4014 ∧ supplyFactor 11600 12000 = 4383 ∧ rawWidth 1280 4014 4383 = 1342 := by decide
/-- Spec 18: of 16,000 and 15,968 steps the axis with more is the master. -/
theorem test_move_master : moveMaster [(0, 16000), (1, 15968)] = (0, 16000) := by decide

/-! One command on a small state. -/

/-- What a next state shows. -/
def shows (c : Instr) (s : State) (f : State → Nat) : Option Nat := match exec c s with | .next s' => some (f s') | _ => none
/-- STATUS of the response in channel 1 (R94). -/
def status (s : State) : Nat := (s.reg ⟨.pnrMsg, 1, 1⟩).toNat % 256

/-- R96: `EVENT_MASK` word 1 is the mask. R466: an argument beyond the row's is BAD_ARGUMENT (3), a state not listed WRONG_STATE (4). -/
theorem test_event_mask : shows (.eventMask 0 (cmd .q0 [5])) rdy (fun s => s.fw.mask.toNat) = some 5 := by decide +kernel
theorem test_ok : shows (.getState 0 (cmd .q0 [])) rdy status = some 0 := by decide +kernel
theorem test_bad_argument : shows (.getState 0 (cmd .q0 [0, 1])) rdy status = some 3 := by decide +kernel
theorem test_wrong_state : shows (.jobStart 0 (cmd .q0 [])) rdy status = some 4 := by decide +kernel
/-- R219: a minimum period below 5,000 ns is refused; spec 10: 6,500 ns is kept in `CAD_FIRECFG`. -/
theorem test_cad_speed_low : shows (.cadSpeed 0 (cmd .q0 [0, 1, 0, 4999])) rdy status = some 3 := by decide +kernel
theorem test_cad_speed : shows (.cadSpeed 0 (cmd .q0 [6800, 50, 8, 6500])) rdy (fun s => s.get R.cadFirecfg_MINPER) = some 6500 := by decide +kernel
/-- R84, R85: a free lock read by the host is the host's; another master's number releases nothing. -/
theorem test_lock_read : shows (.pnrLockRead 0 .host 0 15) rdy (fun s => s.get R.pnrLock_OWNER 15) = some 1 := by decide +kernel
theorem test_lock_release : shows (.pnrLockRelease 0 .control 15 1) (rdy.put R.pnrLock_OWNER 1 15) (fun s => s.get R.pnrLock_OWNER 15) = some 1 := by
  decide +kernel
/-- R383: keys count up and wrap. -/
theorem test_key_wraps : shows (.heartbeatKick 0 .control 255) (rdy.put R.rdgHbstat_NEXTKEY 255) (fun s => s.get R.rdgHbstat_NEXTKEY) = some 0 := by
  decide +kernel
/-- R78: a post sets FULL and counts PSEQ. -/
theorem test_post : shows (.pnrPost 0 .host 0 8) { rdy with fw := { rdy.fw with running := false } } (fun s => s.get R.pnrStatus_PSEQ) = some 1 := by
  decide +kernel
/-- R450: a rail beyond its absolute maximum rating. -/
theorem test_rating : exec (.brownOut 0 0 901 5000) rdy = .fault .beyondRatings := rfl
/-- R46: 22,499 kHz starts a full reset, 27,500 kHz does not; 60,001 kHz of the ridge oscillator is the ridge's fault. -/
theorem test_sysclk_low : shows (.sysclkFreq 0 ⟨22499, 0⟩) rdy (fun s => b2n s.boot.inReset) = some 1 := by decide +kernel
theorem test_sysclk_high : shows (.sysclkFreq 0 ⟨27500, 0⟩) rdy (fun s => b2n s.boot.inReset) = some 0 := by decide +kernel
theorem test_ridge_osc : shows (.ridgeOsc 0 60001) rdy (fun s => s.get R.rdgStatus_SAFE) = some 1 := by decide +kernel
/-- R267: 64 valid sync headers give block lock, 63 do not. -/
theorem test_block_lock : shows (.laneBlockLock 0 ⟨23, List.replicate 64 1⟩) ((rdy.put R.fabPctrl_EN 1 3).put R.lnsStat_ADAPTED 1 23)
    (fun s => s.get R.lnsStat_LOCK 23) = some 1 := by decide +kernel
theorem test_block_lock_short : shows (.laneBlockLock 0 ⟨23, List.replicate 63 1⟩) ((rdy.put R.fabPctrl_EN 1 3).put R.lnsStat_ADAPTED 1 23)
    (fun s => s.get R.lnsStat_LOCK 23) = some 0 := by decide +kernel
/-- R319: a burst write stands in the queue and is read back. -/
theorem test_burst : shows (.dramWrite 0 0 0x2000000 (List.replicate 64 7)) rdy (fun s => (s.dramByte 0x200003F).toNat) = some 7 := by decide +kernel
/-- The table gives no bits, so no word spells a command. -/
theorem test_no_words : decodeTableWord 32 0 = none ∧ State.reset.withFetchWord 32 0 = State.reset := by decide

end Sys2Proof.Tests
end

section
/-!
PROOFS. Fields and registers that a write does not name: the rules by which every statement about a register write is read off.
-/
namespace Sys2Proof.Machine

/-- The bits above a field that is replaced stay. -/
theorem fieldSet_toNat_div (x : Word) (lo w v : Nat) (h : lo + w ≤ 32) :
    (fieldSet x lo w v).toNat / 2 ^ (lo + w) = x.toNat / 2 ^ (lo + w) := by
  have hw : v % 2 ^ w < 2 ^ w := Nat.mod_lt _ (Nat.two_pow_pos w)
  have hr : x.toNat % 2 ^ lo < 2 ^ lo := Nat.mod_lt _ (Nat.two_pow_pos lo)
  have hx : x.toNat = 2 ^ (lo + w) * (x.toNat / 2 ^ (lo + w)) + (x.toNat / 2 ^ lo % 2 ^ w * 2 ^ lo + x.toNat % 2 ^ lo) := by
    rw [Nat.pow_add, ← Nat.div_div_eq_div_mul, Nat.mul_assoc, Nat.mul_comm _ (2 ^ lo), ← Nat.add_assoc, ← Nat.mul_add, Nat.div_add_mod,
      Nat.div_add_mod]
  have hset : x.toNat - fieldOf x lo w * 2 ^ lo + v % 2 ^ w * 2 ^ lo =
      2 ^ (lo + w) * (x.toNat / 2 ^ (lo + w)) + (v % 2 ^ w * 2 ^ lo + x.toNat % 2 ^ lo) := by unfold fieldOf; omega
  have hlow : v % 2 ^ w * 2 ^ lo + x.toNat % 2 ^ lo < 2 ^ (lo + w) := by
    calc v % 2 ^ w * 2 ^ lo + x.toNat % 2 ^ lo < (v % 2 ^ w + 1) * 2 ^ lo := by rw [Nat.succ_mul]; omega
      _ ≤ 2 ^ w * 2 ^ lo := Nat.mul_le_mul_right _ hw
      _ = 2 ^ (lo + w) := by rw [← Nat.pow_add, Nat.add_comm]
  have hdiv : (x.toNat - fieldOf x lo w * 2 ^ lo + v % 2 ^ w * 2 ^ lo) / 2 ^ (lo + w) = x.toNat / 2 ^ (lo + w) := by
    rw [hset, Nat.mul_add_div (Nat.two_pow_pos _), Nat.div_eq_of_lt hlow, Nat.add_zero]
  have hfits : x.toNat - fieldOf x lo w * 2 ^ lo + v % 2 ^ w * 2 ^ lo < 2 ^ 32 := by
    refine Nat.lt_of_div_lt_div (c := 2 ^ (lo + w)) ?_
    rw [hdiv]
    refine Nat.div_lt_of_lt_mul ?_
    rw [Nat.mul_div_cancel' (Nat.pow_dvd_pow 2 h)]
    exact x.isLt
  rw [fieldSet, BitVec.toNat_ofNat, Nat.mod_eq_of_lt hfits, hdiv]

/-- The bits below a field that is replaced stay. -/
theorem fieldSet_toNat_mod (x : Word) (lo w v : Nat) (h : lo + w ≤ 32) : (fieldSet x lo w v).toNat % 2 ^ lo = x.toNat % 2 ^ lo := by
  have hle : fieldOf x lo w * 2 ^ lo ≤ x.toNat :=
    (Nat.mul_le_mul_right _ (Nat.mod_le _ _)).trans (Nat.div_mul_le_self _ _)
  rw [fieldSet, BitVec.toNat_ofNat, Nat.mod_mod_of_dvd _ (Nat.pow_dvd_pow 2 (by omega)), Nat.add_mul_mod_self_right, Nat.mul_comm,
    Nat.sub_mul_mod (by rwa [Nat.mul_comm])]

/-- A field beside the one that is replaced stays. -/
theorem fieldOf_fieldSet_disjoint (x : Word) {lo w lo' w' : Nat} (v : Nat) (h : lo + w ≤ 32) (hd : lo + w ≤ lo' ∨ lo' + w' ≤ lo) :
    fieldOf (fieldSet x lo w v) lo' w' = fieldOf x lo' w' := by
  unfold fieldOf
  rcases hd with hd | hd
  · have above (n : Nat) : n / 2 ^ lo' = n / 2 ^ (lo + w) / 2 ^ (lo' - (lo + w)) := by
      rw [Nat.div_div_eq_div_mul, ← Nat.pow_add, Nat.add_sub_cancel' hd]
    rw [above, fieldSet_toNat_div x lo w v h, ← above]
  · have below (n : Nat) : n / 2 ^ lo' % 2 ^ w' = n % 2 ^ lo % 2 ^ (lo' + w') / 2 ^ lo' := by
      rw [Nat.mod_mod_of_dvd _ (Nat.pow_dvd_pow 2 hd), Nat.pow_add, Nat.mod_mul_right_div_self]
    rw [below, fieldSet_toNat_mod x lo w v h, ← below]

/-- A field fits its width. -/
theorem get_lt (s : State) (f : Fld) (i j : Nat) : s.get f i j < 2 ^ f.w := Nat.mod_lt _ (Nat.two_pow_pos _)

/-- A register other than the one whose field is put. -/
theorem reg_put_ne (s : State) (f : Fld) (v i j : Nat) {r : RegId} (h : (⟨f.k, i, j⟩ : RegId) ≠ r) : (s.put f v i j).reg r = s.reg r :=
  reg_setReg_ne s _ h

/-- A field of another kind of register, or of other bits of the same: the side condition is closed by `decide` for fields of the tables. -/
theorem get_put_disjoint (s : State) {f g : Fld} (v i j i' j' : Nat)
    (h : f.lo + f.w ≤ 32 ∧ (f.k ≠ g.k ∨ f.lo + f.w ≤ g.lo ∨ g.lo + g.w ≤ f.lo)) : (s.put f v i j).get g i' j' = s.get g i' j' := by
  obtain ⟨hfits, hd⟩ := h
  by_cases hr : (⟨f.k, i, j⟩ : RegId) = ⟨g.k, i', j'⟩
  · have hbits : f.lo + f.w ≤ g.lo ∨ g.lo + g.w ≤ f.lo := hd.resolve_left fun hk => hk (congrArg RegId.k hr)
    simp only [State.get, State.put, ← hr, reg_setReg_same, fieldOf_fieldSet_disjoint _ _ hfits hbits]
  · exact get_put_reg_ne s f g v i j i' j' hr

/-- Fields are a matter of the register store alone. -/
theorem get_of_regs {s s' : State} (h : s'.regs = s.regs) (f : Fld) (i j : Nat) : s'.get f i j = s.get f i j := by
  simp only [State.get, reg_of_regs h]

theorem isSender_of_regs {s s' : State} (h : s'.regs = s.regs) (m : Master) (n : Nat) : s'.isSender m n = s.isSender m n := by
  simp only [State.isSender, State.bound, get_of_regs h]

theorem isReceiver_of_regs {s s' : State} (h : s'.regs = s.regs) (m : Master) (n : Nat) : s'.isReceiver m n = s.isReceiver m n := by
  simp only [State.isReceiver, State.bound, get_of_regs h]

end Sys2Proof.Machine
end

section
/-!
PROOFS. What a register access of a master finds: the state at its instant, in which only a counter of the host's bytes has moved (R430).
-/
namespace Sys2Proof.Machine
open Sys2Proof.Claim

variable (m : Master) (t : Nat) (s : State)

@[simp] theorem written_regs : (written m t s).regs = s.regs := by unfold written; split <;> rfl
@[simp] theorem asked_regs : (asked m t s).regs = s.regs := by unfold asked; split <;> rfl
@[simp] theorem asked_out : (asked m t s).out = [] := by unfold asked; split <;> rfl
@[simp] theorem written_reg (r : RegId) : (written m t s).reg r = s.reg r := reg_of_regs (written_regs m t s) r
@[simp] theorem asked_reg (r : RegId) : (asked m t s).reg r = s.reg r := reg_of_regs (asked_regs m t s) r
@[simp] theorem written_get (f : Fld) (i j : Nat) : (written m t s).get f i j = s.get f i j := get_of_regs (written_regs m t s) f i j
@[simp] theorem asked_get (f : Fld) (i j : Nat) : (asked m t s).get f i j = s.get f i j := get_of_regs (asked_regs m t s) f i j
@[simp] theorem written_flag (f : Fld) (i j : Nat) : (written m t s).flag f i j = s.flag f i j := by simp [State.flag]
@[simp] theorem asked_flag (f : Fld) (i j : Nat) : (asked m t s).flag f i j = s.flag f i j := by simp [State.flag]
@[simp] theorem written_isSender (m' : Master) (n : Nat) : (written m t s).isSender m' n = s.isSender m' n :=
  isSender_of_regs (written_regs m t s) m' n
@[simp] theorem asked_isReceiver (m' : Master) (n : Nat) : (asked m t s).isReceiver m' n = s.isReceiver m' n :=
  isReceiver_of_regs (asked_regs m t s) m' n
@[simp] theorem written_sessionOver (m' : Master) (member : Nat) :
    (written m t s).sessionOver m' member = (atTime t s).sessionOver m' member := by unfold written; split <;> rfl

variable {m t s} {f : State → State}

/-- A register write acts on the state it finds. -/
theorem liveWrite_becomes (h : Awake t s) : liveWrite m t s f = becomes t s (f (written m t s)) := liveWrite_next h

/-- A register read acts on the state it finds. -/
theorem liveRead_becomes (h : Awake t s) : liveRead m t s f = becomes t s (f (asked m t s)) := liveRead_next h

end Sys2Proof.Machine
end

section
/-!
PROOFS. Bells (R82), posts (R78) and takes (R80): what each leaves in the registers.
-/
namespace Sys2Proof.Machine

@[simp] theorem sendMsix_regs (v : Nat) (s : State) : (sendMsix v s).regs = s.regs := by
  unfold sendMsix
  split
  · rfl
  · split <;> rfl

/-- A bell's ring sets a bit of one register, whether or not it interrupts the host. -/
theorem ringBell_regs (m b : Nat) (s : State) : (ringBell m b s).regs =
    (s.setReg ⟨.pnrBell, m, 0⟩ (BitVec.ofNat 32 ((s.reg ⟨.pnrBell, m, 0⟩).toNat ||| 2 ^ b))).regs := by
  simp only [ringBell]
  split
  · exact sendMsix_regs _ _
  · rfl

theorem reg_ringBell_ne (m b : Nat) (s : State) {r : RegId} (h : r.k ≠ .pnrBell) : (ringBell m b s).reg r = s.reg r := by
  rw [reg_of_regs (ringBell_regs m b s), reg_setReg_ne]
  exact fun e => h (congrArg RegId.k e).symm

theorem get_ringBell_ne (m b : Nat) (s : State) {f : Fld} (i j : Nat) (h : f.k ≠ .pnrBell) : (ringBell m b s).get f i j = s.get f i j := by
  simp only [State.get, reg_ringBell_ne m b s (r := ⟨f.k, i, j⟩) h]

theorem bitOf_eq_testBit (v n : Nat) : bitOf v n = v.testBit n := (Nat.testBit_eq_decide_div_mod_eq).symm

/-- The bit that rings is set (R82). -/
theorem bell_ringBell (m : Nat) {b : Nat} (s : State) (h : b < 32) : bitOf ((ringBell m b s).reg ⟨.pnrBell, m, 0⟩).toNat b = true := by
  rw [reg_of_regs (ringBell_regs m b s), reg_setReg_same, bitOf_eq_testBit, BitVec.toNat_ofNat, Nat.testBit_mod_two_pow]
  simp [h]

variable (n : Nat) (s : State)

/-! A post (R78). -/

theorem postMessage_full : (postMessage n s).flag R.pnrStatus_FULL n = true := by
  simp (disch := decide) [State.flag, postMessage, State.bumpWrap, get_ringBell_ne, get_put_disjoint, get_put_same]

theorem postMessage_pseq : (postMessage n s).get R.pnrStatus_PSEQ n = (s.get R.pnrStatus_PSEQ n + 1) % 256 := by
  simp (disch := decide) [postMessage, State.bumpWrap, get_ringBell_ne, get_put_disjoint, get_put_same]

theorem postMessage_stamp : (postMessage n s).get R.pnrEpoch_STAMP n = s.get R.pnrEpoch_EPOCH n := by
  have hlt : s.get R.pnrEpoch_EPOCH n < 65536 := get_lt s R.pnrEpoch_EPOCH n 0
  simp (disch := decide) [postMessage, State.bumpWrap, get_ringBell_ne, get_put_disjoint, get_put_same, Nat.mod_eq_of_lt hlt]

theorem postMessage_wfull : (postMessage n s).flag R.pnrStatus_WFULL n = false := by
  simp (disch := decide) [State.flag, postMessage, State.bumpWrap, get_ringBell_ne, get_put_disjoint, get_put_same]

theorem postMessage_takeLen : (postMessage n s).get R.pnrTake_LEN n = s.get R.pnrCtrl_LEN n := by
  have hlt : s.get R.pnrCtrl_LEN n < 32 := get_lt s R.pnrCtrl_LEN n 0
  simp (disch := decide) [postMessage, State.bumpWrap, get_ringBell_ne, get_put_disjoint, get_put_same, Nat.mod_eq_of_lt hlt]

theorem postMessage_msg (i : Nat) : (postMessage n s).reg ⟨.pnrMsg, n, i⟩ = s.reg ⟨.pnrMsg, n, i⟩ := by
  simp [postMessage, State.bumpWrap, reg_ringBell_ne, reg_put_ne]

theorem postMessage_bell (h : n < 32) : bitOf ((postMessage n s).reg ⟨.pnrBell, s.get R.pnrBind_RECV n, 0⟩).toNat n = true := by
  have hbell (u : State) (hu : u.get R.pnrBind_RECV n = s.get R.pnrBind_RECV n) :
      bitOf ((ringBell (u.get R.pnrBind_RECV n) n u).reg ⟨.pnrBell, s.get R.pnrBind_RECV n, 0⟩).toNat n = true := hu ▸ bell_ringBell _ u h
  exact hbell _ (by simp (disch := decide) [State.bumpWrap, get_put_disjoint])

/-! LEN of a write to `CTRL` (R78). -/

theorem lenWrite_len (len : BitVec 5) : (lenWrite n len.toNat s).get R.pnrCtrl_LEN n =
    if 8 ≤ len.toNat ∧ len.toNat ≤ 16 then len.toNat else s.get R.pnrCtrl_LEN n := by
  have hlt : len.toNat < 32 := len.isLt
  unfold lenWrite
  split
  · simp (disch := decide) [get_put_same, Nat.mod_eq_of_lt hlt]
  · rfl

theorem reg_lenWrite_ne (len : Nat) {r : RegId} (h : r.k ≠ .pnrCtrl) : (lenWrite n len s).reg r = s.reg r := by
  unfold lenWrite
  split
  · exact reg_put_ne s _ _ _ _ fun e => h (congrArg RegId.k e).symm
  · rfl

theorem get_lenWrite_ne (len : Nat) {f : Fld} (i j : Nat) (h : f.k ≠ .pnrCtrl) : (lenWrite n len s).get f i j = s.get f i j := by
  simp only [State.get, reg_lenWrite_ne n s len (r := ⟨f.k, i, j⟩) h]

/-! A take (R80). -/

theorem takeMessage_empties : (takeMessage n s).flag R.pnrStatus_FULL n = false := by
  simp (disch := decide) [State.flag, takeMessage, get_ringBell_ne, get_put_same]

theorem takeMessage_bell (h : 16 + n < 32) : bitOf ((takeMessage n s).reg ⟨.pnrBell, s.get R.pnrBind_SEND n, 0⟩).toNat (16 + n) = true :=
  bell_ringBell _ _ h

/-- The word that `TAKE` returns, as a number: its fields do not overlap. -/
theorem takeValue_toNat : (takeValue n s).toNat = s.get R.pnrStatus_PSEQ n * 65536 + s.get R.pnrTake_LEN n * 256 +
    b2n (decide (s.get R.pnrEpoch_STAMP n ≠ s.get R.pnrEpoch_EPOCH n)) * 2 + 1 := by
  have hseq : s.get R.pnrStatus_PSEQ n < 256 := get_lt s R.pnrStatus_PSEQ n 0
  have hlen : s.get R.pnrTake_LEN n < 32 := get_lt s R.pnrTake_LEN n 0
  rw [takeValue, BitVec.toNat_ofNat, Nat.mod_eq_of_lt]
  unfold b2n
  split <;> omega

theorem takeValue_valid : fieldOf (takeValue n s) 0 1 = 1 := by
  rw [fieldOf, takeValue_toNat]
  omega

theorem takeValue_stale : fieldOf (takeValue n s) 1 1 = 1 ↔ s.get R.pnrEpoch_STAMP n ≠ s.get R.pnrEpoch_EPOCH n := by
  have hstale : fieldOf (takeValue n s) 1 1 = b2n (decide (s.get R.pnrEpoch_STAMP n ≠ s.get R.pnrEpoch_EPOCH n)) := by
    rw [fieldOf, takeValue_toNat]
    unfold b2n
    split <;> omega
  simp [hstale, b2n]

theorem takeValue_len : fieldOf (takeValue n s) 8 5 = s.get R.pnrTake_LEN n := by
  have hlen : s.get R.pnrTake_LEN n < 32 := get_lt s R.pnrTake_LEN n 0
  rw [fieldOf, takeValue_toNat]
  unfold b2n
  split <;> omega

theorem takeValue_seq : fieldOf (takeValue n s) 16 8 = s.get R.pnrStatus_PSEQ n := by
  have hseq : s.get R.pnrStatus_PSEQ n < 256 := get_lt s R.pnrStatus_PSEQ n 0
  have hlen : s.get R.pnrTake_LEN n < 32 := get_lt s R.pnrTake_LEN n 0
  rw [fieldOf, takeValue_toNat]
  unfold b2n
  split <;> omega

end Sys2Proof.Machine
end

section
/-!
PROOFS. The obligations of the panniers: what a post, a take, a lock's read and a lock's write do.
-/
namespace Sys2Proof.Machine
open Sys2Proof.Claim

/-! What the sender may do while FULL is 0, and the receiver's read. -/

section
variable {m : Master} {n : Nat} {s : State}

theorem msgWrite_stores (hsend : s.isSender m n = true) (hlive : s.sessionOver m = false) (hfull : s.flag R.pnrStatus_FULL n = false)
    (i : Nat) (v : Word) : msgWrite m n i v s = s.setReg ⟨.pnrMsg, n, i⟩ v := by
  simp [msgWrite, hsend, hlive, hfull]

theorem ctrlWrite_stores (hsend : s.isSender m n = true) (len : Nat) : ctrlWrite m n len s = lenWrite n len s := by
  simp [ctrlWrite, hsend]

theorem goWrite_posts (hsend : s.isSender m n = true) (hlive : s.sessionOver m = false) (hfull : s.flag R.pnrStatus_FULL n = false)
    (len : Nat) : goWrite m n len s = postMessage n (lenWrite n len s) := by
  simp [goWrite, hsend, hlive, hfull]

theorem takeBy_full (hrecv : s.isReceiver m n = true) (hfull : s.flag R.pnrStatus_FULL n = true) :
    takeBy m n s = afterTake n ((takeMessage n s).emit (.readData (takeValue n s))) := by
  simp [takeBy, takeRead, hrecv, hfull]

theorem takeBy_empty (hrecv : s.isReceiver m n = true) (hfull : s.flag R.pnrStatus_FULL n = false) :
    takeBy m n s = s.emit (.readData 0) := by
  simp [takeBy, takeRead, hrecv, hfull]

end

/-! The rows of the panniers, at a device that is not in reset: each acts on what the access finds. -/

section
variable {t : Nat} {m : Master} {n : PnrCh} {s : State}

theorem exec_pnrMsgWrite (h : Awake t s) (i : Fin 16) (v : Word) :
    exec (.pnrMsgWrite t m n i v) s = becomes t s (msgWrite m n i v (written m t s)) := by
  have hrow : exec (.pnrMsgWrite t m n i v) s = liveWrite m t s (msgWrite m n i v) := rfl
  rw [hrow, liveWrite_becomes h]

theorem exec_pnrCtrlLenWrite (h : Awake t s) (len : BitVec 5) :
    exec (.pnrCtrlLenWrite t m n len) s = becomes t s (ctrlWrite m n len.toNat (written m t s)) := by
  have hrow : exec (.pnrCtrlLenWrite t m n len) s = liveWrite m t s (ctrlWrite m n len.toNat) := rfl
  rw [hrow, liveWrite_becomes h]

theorem exec_pnrPost (h : Awake t s) (len : BitVec 5) :
    exec (.pnrPost t m n len) s = becomes t s (serve (goWrite m n len.toNat (written m t s))) := by
  have hrow : exec (.pnrPost t m n len) s = liveWrite m t s fun u => serve (goWrite m n len.toNat u) := rfl
  rw [hrow, liveWrite_becomes h]

theorem exec_pnrTake (h : Awake t s) : exec (.pnrTake t m n) s = becomes t s (takeBy m n (asked m t s)) := by
  have hrow : exec (.pnrTake t m n) s = liveRead m t s (takeBy m n) := rfl
  rw [hrow, liveRead_becomes h]

theorem exec_pnrLockRead (h : Awake t s) (member : Byte) : exec (.pnrLockRead t m member n) s =
    becomes t s ((lockRead m member.toNat n (asked m t s)).2.emit (.readData (lockRead m member.toNat n (asked m t s)).1)) := by
  have hrow : exec (.pnrLockRead t m member n) s =
    liveRead m t s fun u => (lockRead m member.toNat n u).2.emit (.readData (lockRead m member.toNat n u).1) := rfl
  rw [hrow, liveRead_becomes h]

theorem exec_pnrLockRelease (h : Awake t s) (owner : BitVec 3) :
    exec (.pnrLockRelease t m n owner) s = becomes t s (lockWrite m n owner.toNat (written m t s)) := by
  have hrow : exec (.pnrLockRelease t m n owner) s = liveWrite m t s (lockWrite m n owner.toNat) := rfl
  rw [hrow, liveWrite_becomes h]

end

/-- Settles O43: the writes of words and LEN are stored, and the post is `postMessage` after the LEN of the same write. -/
theorem senderPosts : Obligations.SenderPosts := by
  intro t m n len s hawake hsend hover hfull l
  have hsend' : (written m t s).isSender m n = true := by rwa [written_isSender]
  have hover' : (written m t s).sessionOver m = false := by rwa [written_sessionOver]
  have hfull' : (written m t s).flag R.pnrStatus_FULL n = false := by rwa [written_flag]
  have hlen : (lenWrite n len.toNat (written m t s)).get R.pnrCtrl_LEN n = l := by rw [lenWrite_len, written_get]
  refine ⟨fun i v => ⟨_, exec_pnrMsgWrite hawake i v, ?_⟩, ⟨_, exec_pnrCtrlLenWrite hawake len, ?_⟩, _, exec_pnrPost hawake len, ?_⟩
  · rw [msgWrite_stores hsend' hover' hfull', reg_setReg_same]
  · rw [ctrlWrite_stores hsend', hlen]
  · rw [goWrite_posts hsend' hover' hfull']
    refine ⟨postMessage_full _ _, ?_, ?_, postMessage_wfull _ _, ?_, fun i => ?_, ?_⟩
    · rw [postMessage_pseq, get_lenWrite_ne _ _ _ _ _ (by decide), written_get]
    · rw [postMessage_stamp, get_lenWrite_ne _ _ _ _ _ (by decide), written_get]
    · rw [postMessage_takeLen, hlen]
    · rw [postMessage_msg, reg_lenWrite_ne _ _ _ (by simp), written_reg]
    · have hbell := postMessage_bell n (lenWrite n len.toNat (written m t s)) (by omega)
      rwa [get_lenWrite_ne _ _ _ _ _ (by decide), written_get] at hbell

/-- Settles O45: the message's word, FULL and the bell are those of `takeMessage`; what is posted and served after it is `afterTake`. -/
theorem receiverTakes : Obligations.ReceiverTakes := by
  intro t m n s hawake hrecv
  have hrecv' : (asked m t s).isReceiver m n = true := by rwa [asked_isReceiver]
  refine ⟨fun hfull => ?_, fun hfull => ?_⟩
  · have hfull' : (asked m t s).flag R.pnrStatus_FULL n = true := by rwa [asked_flag]
    refine ⟨(takeMessage n (asked m t s)).emit (.readData (takeValue n (asked m t s))), takeValue n (asked m t s), ?_, by simp,
      takeValue_valid _ _, ?_, ?_, ?_, takeMessage_empties _ _, ?_⟩
    · rw [exec_pnrTake hawake, takeBy_full hrecv' hfull']
    · rw [takeValue_stale, asked_get, asked_get]
    · rw [takeValue_len, asked_get]
    · rw [takeValue_seq, asked_get]
    · have hbell := takeMessage_bell n (asked m t s) (by omega)
      rwa [asked_get] at hbell
  · rw [exec_pnrTake hawake, takeBy_empty hrecv' (by rwa [asked_flag])]

/-! Locks (R84, R85). -/

/-- A master's number fits the field of the lock's owner. -/
theorem masterNum_mod (m : Master) : m.num % 8 = m.num := by cases m <;> rfl

@[simp] theorem markLockLost_regs (n : Nat) (s : State) : (markLockLost n s).regs = s.regs := by
  unfold markLockLost
  split <;> rfl

theorem freeLock_owner (n : Nat) (s : State) : (freeLock n s).get R.pnrLock_OWNER n = 0 := by
  rw [freeLock, get_of_regs (markLockLost_regs _ _), get_put_disjoint _ _ _ _ _ _ (by decide), get_put_same _ _ _ _ _ (by decide)]
  rfl

/-- What a read of a free lock writes: the reader's number, and the remote requester for the fabric proxy (R84). -/
def acquired (m : Master) (member n : Nat) (s : State) : State :=
  (s.put R.pnrLock_OWNER m.num n).put R.pnrLock_MEMBER (if m = .proxy then member else 0) n

section
variable (m : Master) (member : Byte) (n : Nat) (s : State)

theorem lockRead_free (h : s.get R.pnrLock_OWNER n = 0) : lockRead m member.toNat n s = (0, acquired m member.toNat n s) := by
  rw [lockRead, if_pos h, acquired]

theorem lockRead_owned (h : s.get R.pnrLock_OWNER n ≠ 0) : lockRead m member.toNat n s = (s.reg ⟨.pnrLock, n, 0⟩, s) := by
  rw [lockRead, if_neg h]

theorem acquired_owner : (acquired m member.toNat n s).get R.pnrLock_OWNER n = m.num := by
  rw [acquired, get_put_disjoint _ _ _ _ _ _ (by decide), get_put_same _ _ _ _ _ (by decide)]
  exact masterNum_mod m

theorem acquired_member (h : m = .proxy) : (acquired m member.toNat n s).get R.pnrLock_MEMBER n = member.toNat := by
  rw [acquired, get_put_same _ _ _ _ _ (by decide), if_pos h]
  exact Nat.mod_eq_of_lt member.isLt

theorem reg_acquired_ne {r : RegId} (h : r ≠ ⟨.pnrLock, n, 0⟩) : (acquired m member.toNat n s).reg r = s.reg r := by
  rw [acquired, reg_put_ne _ _ _ _ _ h.symm, reg_put_ne _ _ _ _ _ h.symm]

end

/-- Settles O46, by whether the lock is free. -/
theorem lockReadAcquires : Obligations.LockReadAcquires := by
  intro t m member n s hawake
  refine ⟨fun hfree => ⟨_, exec_pnrLockRead hawake member, ?_⟩,
    fun howned => ⟨_, s.reg ⟨.pnrLock, n, 0⟩, exec_pnrLockRead hawake member, ?_⟩⟩
  · rw [lockRead_free m member n _ (by rwa [asked_get])]
    refine ⟨by simp [acquired], ?_, fun hproxy => ?_, fun r hr => ?_⟩
    · rw [get_of_regs (emit_regs _ _), acquired_owner]
    · rw [get_of_regs (emit_regs _ _), acquired_member _ _ _ _ hproxy]
    · rw [reg_of_regs (emit_regs _ _), reg_acquired_ne _ _ _ _ hr, asked_reg]
  · rw [lockRead_owned m member n _ (by rwa [asked_get]), asked_reg]
    exact ⟨by simp, rfl, by simp⟩

/-- Settles O47: the owner's write of its number frees the lock, every other leaves the state as the access found it. -/
theorem lockWriteReleases : Obligations.LockWriteReleases := by
  intro t m n owner s hawake
  refine ⟨_, exec_pnrLockRelease hawake owner, fun hown => ?_, fun hown => ?_⟩
  · rw [lockWrite, written_get, if_pos hown, freeLock_owner]
  · rw [lockWrite, written_get, if_neg hown]

end Sys2Proof.Machine
end

section
/-!
PROOFS. The heartbeat of the ridge (R383, R384): what a kick of the expected key, one of another key and one of another master do, and the
watchdog before its first kick.
-/
namespace Sys2Proof.Machine
open Sys2Proof.Claim

/-! A register write finds the ridge's own state and the armed injection as they were. -/

section
variable (m : Master) (t : Nat) (s : State)

@[simp] theorem written_rdg : (written m t s).rdg = s.rdg := by unfold written; split <;> rfl
@[simp] theorem written_inject : (written m t s).inject = s.inject := by unfold written; split <;> rfl
@[simp] theorem written_armedFor (id inst : Nat) : armedFor id inst (written m t s) = armedFor id inst s := by
  simp only [armedFor, written_inject]

end

/-! The ways in which a write of `RDG_KICK` ends (R383). -/

section
variable {m : Master} {key : Nat} {s : State}

theorem kick_of_ne_control (hm : m ≠ .control) : kick m key s = s := by
  rw [kick, if_pos (Or.inl hm)]

/-- Without an expiry or an armed injection the key alone decides what a kick of the control core does. -/
theorem kick_control (hexp : s.flag R.rdgHbstat_EXPIRED = false) (hinj : armedFor 54 0 s = false) :
    kick .control key s = if key = s.get R.rdgHbstat_NEXTKEY then kickAccepted s
      else raise 53 0 none ((s.bump R.rdgHbstat_BADKEYS).reg ⟨.rdgHbstat, 0, 0⟩).toNat false (s.bump R.rdgHbstat_BADKEYS) := by
  cases hat : s.rdg.expiredAt <;> simp [kick, hexp, hinj, hat]

end

/-! What an accepted kick leaves, and the count of one with a wrong key (R383). -/

section
variable (s : State)

theorem kickAccepted_nextkey : (kickAccepted s).get R.rdgHbstat_NEXTKEY = (s.get R.rdgHbstat_NEXTKEY + 1) % 256 := by
  rw [kickAccepted, get_of_regs (setRdg_regs _ _), get_put_disjoint _ _ _ _ _ _ (by decide), State.bumpWrap, get_put_same _ _ _ _ _ (by decide)]
  rfl

theorem kickAccepted_armed : (kickAccepted s).flag R.rdgHbstat_ARMED = true := by
  rw [kickAccepted, State.flag, get_of_regs (setRdg_regs _ _), get_put_same _ _ _ _ _ (by decide)]
  rfl

/-- The watchdog counts anew from the instant of the kick. -/
theorem kickAccepted_hbAt : (kickAccepted s).rdg.hbAt = (kickAccepted s).now := rfl

theorem bump_badkeys : (s.bump R.rdgHbstat_BADKEYS).get R.rdgHbstat_BADKEYS = min 255 (s.get R.rdgHbstat_BADKEYS + 1) := by
  rw [State.bump, get_put_same _ _ _ _ _ (by decide)]
  exact Nat.mod_eq_of_lt (Nat.lt_succ_of_le (Nat.min_le_left 255 _))

theorem nextkey_bump_badkeys : (s.bump R.rdgHbstat_BADKEYS).get R.rdgHbstat_NEXTKEY = s.get R.rdgHbstat_NEXTKEY :=
  get_put_disjoint _ _ _ _ _ _ (by decide)

end

/-! The rows of the heartbeat, at a device that is not in reset. -/

section
variable {t : Nat} {s : State}

theorem exec_heartbeatKick (h : Awake t s) (m : Master) (key : Byte) :
    exec (.heartbeatKick t m key) s = becomes t s (kick m key.toNat (written m t s)) := by
  have hrow : exec (.heartbeatKick t m key) s = liveWrite m t s (kick m key.toNat) := rfl
  rw [hrow, liveWrite_becomes h]

/-- A watchdog that no kick has armed does not run (R383). -/
theorem exec_heartbeatExpired_unarmed (h : Awake t s) (harmed : s.flag R.rdgHbstat_ARMED = false) :
    exec (.heartbeatExpired t) s = becomes t s (atTime t s) := by
  have hrow : exec (.heartbeatExpired t) s = execHeartbeatExpired t s := rfl
  rw [hrow, execHeartbeatExpired, live_next h, if_neg (by simp [harmed]), becomes]

end

/-- Settles O48, by who kicks and with which key; the last clause is the watchdog that is not armed. -/
theorem heartbeatKicks : Obligations.HeartbeatKicks := by
  refine ⟨by decide, fun t key s hawake hexp hinj => ?_, fun t m key s hawake hm => ?_,
    fun t s hawake harmed => exec_heartbeatExpired_unarmed hawake harmed⟩
  · have hkick := exec_heartbeatKick hawake .control key
    rw [kick_control (by rwa [written_flag]) (by rwa [written_armedFor]), written_get] at hkick
    refine ⟨fun hkey => ?_, fun hkey => ?_⟩
    · rw [hkick, if_pos hkey]
      refine ⟨_, rfl, ?_, kickAccepted_armed _, kickAccepted_hbAt _⟩
      rw [kickAccepted_nextkey, written_get]
    · rw [hkick, if_neg hkey]
      refine ⟨_, _, rfl, ?_, ?_, ?_⟩
      · rw [nextkey_bump_badkeys, written_get]
      · rw [bump_badkeys, written_get]
      · rw [bump_rdg, written_rdg]
  · rw [exec_heartbeatKick hawake, kick_of_ne_control hm]

end Sys2Proof.Machine
end

section
/-!
PROOFS. What every command ends with: the invariant of every step, the queue and the time, and which rows can stop the block or act in full reset.
-/
namespace Sys2Proof.Machine
open Sys2Proof.Claim

theorem step_cons {c : Instr} {rest : List Instr} {s : State} (h : s.pending = c :: rest) : step s = exec c { s with pending := rest } := by
  rw [step, h]

theorem step_nil {s : State} (h : s.pending = []) : step s = .next s := by
  rw [step, h]

/-- Settles O32: the two arms of `step`. -/
theorem stepRunsFront : Obligations.StepRunsFront :=
  ⟨fun _ _ _ h => step_cons h, fun _ h => step_nil h⟩

/-- The end of every command shows a sound state. -/
theorem conclude_sound (s0 s : State) : (conclude s0 s).sound := by
  refine ⟨conclude_gated s0 s, ?_⟩
  rw [State.shownRight, conclude_dev, conclude_job]
  exact conclude_shownRight s0 s

/-- Settles O36: a step of an empty queue stays where it is, and every command's next state is the end of a command. -/
theorem stepKeepsSound : Obligations.StepKeepsSound := by
  intro s s' hsound hstep
  cases hq : s.pending with
  | nil =>
    rw [step_nil hq] at hstep
    cases hstep
    exact hsound
  | cons c rest =>
    rw [step_cons hq] at hstep
    obtain ⟨t, s1, rfl⟩ := exec_concludes _ _ _ hstep
    exact conclude_sound _ _

/-- Settles O35: no port is listed at reset, and `GLB_DEVSTATE` shows BOOT and no job. -/
theorem resetIsSound : Obligations.ResetIsSound :=
  ⟨fun _ _ _ => rfl, by decide, by decide⟩

/-- Settles O33: the end of a command leaves the queue and the instant that it found. -/
theorem queueFirstInFirstOut : Obligations.QueueFirstInFirstOut := by
  intro c rest s s' hq hstep
  rw [step_cons hq] at hstep
  obtain ⟨t, s1, rfl⟩ := exec_concludes _ _ _ hstep
  exact ⟨rfl, Nat.le_max_left _ _⟩

/-- A port whose `HPEN` is asserted is evidence that the safe state is not held (R377). -/
theorem hpen_of_safe {s : State} (h : s.flag R.rdgStatus_SAFE = true) (p : Nat) : hpen s p = false := by
  simp [hpen, h]

/-- Settles O39: in the safe state every `HPEN` is low, and the end of a command leaves no strobe high at such a port. -/
theorem safeStateHoldsStrobes : Obligations.SafeStateHoldsStrobes := by
  intro c s s' hexec hsafe p k
  obtain ⟨t, s1, rfl⟩ := exec_concludes _ _ _ hexec
  exact ⟨hpen_of_safe hsafe p, conclude_gated _ _ p k (hpen_of_safe hsafe p)⟩

/-! The rows by the wrapper that runs them: commands and completions, register accesses, events, packets, and the rows of resets. -/

/-- Every command message but `RDG_MAINT` is judged by its row of the opcode tables. -/
theorem exec_command {i : Instr} {t : Nat} {c : Cmd} {r : OpRow} (s : State) (h : opRowOf i = some (t, c, r)) :
    ∃ own act, exec i s = command t c s (runCommand r own act) := by
  cases i
  all_goals cases h
  all_goals exact ⟨_, _, rfl⟩

theorem exec_completion {i : Instr} {t op : Nat} {q : Queue} (s : State) (h : doneOf i = some (t, op, q)) :
    ∃ f, exec i s = completion t op q s f := by
  cases i
  all_goals cases h
  all_goals simp only [exec, execImgWriteDone, execBundleApplyDone, execTblLoadDone, execTblReadDone, execJobArmDone, execLibStoreDone,
    execJobRestoreDone, execHpTemptableDone, execHpLinkDone, execChainDiscoverDone, execChainForwardDone, execCalSaveDone, execCalRestoreDone,
    execCalRunDone, execMotMoveDone, execBistRunDone, execLaneTestDone, execDmaRunDone]
  all_goals exact ⟨_, rfl⟩

theorem exec_packetRow {i : Instr} {t : Nat} {q : FabPort} {p : Pkt} (s : State) (h : packetOf i = some (t, q, p)) :
    ∃ f, exec i s = packetRow t q s p f := by
  cases i
  all_goals cases h
  all_goals simp only [exec, execCadencePacket, execEdgePacket, execHaltPacket, execReadReq, execReadData, execProxyPost, execProxyResponse,
    execProxyLockRead, execProxyLockRelease, execProxyLockResult, execProxyDone, execProbe, execAssign, execRoute, execHeartbeat, execJoin,
    execLost, execTsync, execBreak]
  all_goals exact ⟨_, rfl⟩

/-- A row that waits for the release of internal reset: every one but the rows of resets, ALIGN pairs and packets. -/
theorem exec_live {i : Instr} (s : State) (hreset : actsInReset i = false) (hpkt : packetOf i = none)
    (halign : ∀ t q far pair, i ≠ .fabricAlign t q far pair) : ∃ t f, exec i s = live t s f := by
  rcases hop : opRowOf i with _ | ⟨t, c, r⟩
  case some =>
    obtain ⟨own, act, hexec⟩ := exec_command s hop
    exact ⟨_, _, hexec⟩
  rcases hdone : doneOf i with _ | ⟨t, op, q⟩
  case some =>
    obtain ⟨f, hexec⟩ := exec_completion s hdone
    exact ⟨_, _, hexec⟩
  cases i
  case fabricAlign t q far pair => exact absurd rfl (halign t q far pair)
  case powerOn | brownOut | resetNAssert | internalResetRelease | estop | orderlyTimeout | sysclkLoss | sysclkFreq => cases hreset
  case cadencePacket | edgePacket | haltPacket | readReq | readData | proxyPost | proxyResponse | proxyLockRead | proxyLockRelease | proxyLockResult
    | proxyDone | probe | assign | route | heartbeat | join | lost | tsync => cases hpkt
  case pnrMsgWrite | pnrPost | pnrCtrlLenWrite | pnrLockRelease | pnrEpochWrite | pnrBindWrite | pnrBindlockSet | claimWrite | sramWindowWrite |
    bfpop | lnsInj | diagRawWrite | diagRawRead | diagEncode | dmaStart | dmaAbort | dmaResume | crcInit | crcGo | crcDataFeed | crcValWrite |
    heartbeatKick | safeEnter | safeRelease | safeResetreq | rdgCauseClear | rdgGrantWrite | wdfaultClear | senseCommit | errCfgClr | pmcSnap |
    pmcUsnap =>
    simp only [exec, execPnrMsgWrite, execPnrPost, execPnrCtrlLenWrite, execPnrLockRelease, execPnrEpochWrite, execPnrBindWrite, execPnrBindlockSet,
      execClaimWrite, execSramWindowWrite, execBfpop, execLnsInj, execDiagRawWrite, execDiagRawRead, execDiagEncode, execDmaStart, execDmaAbort,
      execDmaResume, execCrcInit, execCrcGo, execCrcDataFeed, execCrcValWrite, execHeartbeatKick, execSafeEnter, execSafeRelease, execSafeResetreq,
      execRdgCauseClear, execRdgGrantWrite, execWdfaultClear, execSenseCommit, execErrCfgClr, execPmcSnap, execPmcUsnap, liveWrite]
    exact ⟨_, _, rfl⟩
  case pnrTake | pnrLockRead | cadPosloRead | fabTimeloRead | pmcCntloRead =>
    simp only [exec, execPnrTake, execPnrLockRead, execCadPosloRead, execFabTimeloRead, execPmcCntloRead, liveRead]
    exact ⟨_, _, rfl⟩
  case bar2Read | bar2Write | lineStart | lineDecodeStart | blockFetch | redecodeDone | compressorBlock | lineFrameSend | dramRead | writeDrain |
    narrowWrite | scrubRead | dmaDescriptor =>
    simp only [exec, execBar2Read, execBar2Write, execLineStart, execLineDecodeStart, execBlockFetch, execRedecodeDone, execCompressorBlock,
      execLineFrameSend, execDramRead, execWriteDrain, execNarrowWrite, execScrubRead, execDmaDescriptor, liveReading]
    exact ⟨_, _, rfl⟩
  case rdgMaint => exact ⟨_, _, rfl⟩
  case tblCommitEffect | copyForwardDone | pnrBellClear | pnrBellenWrite | jtagTapReset | registerWrite | registerReadClear | resetBegin |
    bootImageCheck | bootComplete | ridgeOsc | pllUnlock | lanePllRelock | encoderCount | zEdge | cadenceLock | standstill | ledgerRecordLimit |
    ledgerNewTimer | strobeDue | strobeFall | strobeWatchdog | widthCompute | ridgeThetaTimeout | markEdge | boundaryFix | cadenceRecordSend |
    cadRecordLost | blockVerify | decodeLate | sosEdge | sosWindowClose | telemetryFrame | headAlignBlock | headLinkDown | moduleLost |
    laneBlockLock | laneBlockLoss | laneEnable | pcieReset | pcieError | fabricPortUp | fabricPortDown | tc1Timeout | proxyRetry | heartbeatSend |
    memberLost | tsyncSend | dramWrite | rowWindowEnd | dramRefresh | mr4Poll | dqsRemeasure | dramAlert | scrubLate | dmaAccessTimeout |
    crcScanDone | tableScan | heartbeatExpired | heartbeatResetRequest | motionStep | limitSwitchEdge | standstillHold | senseConversion |
    delayMeasure | senseCommitApply | bistSliceStart | bistSliceSwap | bistMarchDone | traceAbandon | cdrLockLoss | tableScanLate =>
    simp only [exec, execTblCommitEffect, execCopyForwardDone, execPnrBellClear, execPnrBellenWrite, execJtagTapReset, execRegisterWrite,
      execRegisterReadClear, execResetBegin, execBootImageCheck, execBootComplete, execRidgeOsc, execPllUnlock, execLanePllRelock, execEncoderCount,
      execZEdge, execCadenceLock, execStandstill, execLedgerRecordLimit, execLedgerNewTimer, execStrobeDue, execStrobeFall, execStrobeWatchdog,
      execWidthCompute, execRidgeThetaTimeout, execMarkEdge, execBoundaryFix, execCadenceRecordSend, execCadRecordLost, execBlockVerify,
      execDecodeLate, execSosEdge, execSosWindowClose, execTelemetryFrame, execHeadAlignBlock, execHeadLinkDown, execModuleLost, execLaneBlockLock,
      execLaneBlockLoss, execLaneEnable, execPcieReset, execPcieError, execFabricPortUp, execFabricPortDown, execTc1Timeout, execProxyRetry,
      execHeartbeatSend, execMemberLost, execTsyncSend, execDramWrite, execRowWindowEnd, execDramRefresh, execMr4Poll, execDqsRemeasure,
      execDramAlert, execScrubLate, execDmaAccessTimeout, execCrcScanDone, execTableScan, execHeartbeatExpired, execHeartbeatResetRequest,
      execMotionStep, execLimitSwitchEdge, execStandstillHold, execSenseConversion, execDelayMeasure, execSenseCommitApply, execBistSliceStart,
      execBistSliceSwap, execBistMarchDone, execTraceAbandon, execCdrLockLoss, execTableScanLate]
    exact ⟨_, _, rfl⟩
  case identify | getState | sysReset | logRead | unlock | lifecycle | eventMask | imgWrite | imgInfo | bundleApply | chGeometry | chSegment |
    tblLoad | tblCommit | tblRead | jetStatus | jobDefine | jobPost | jobArm | jobStart | jobPause | jobResume | jobAbort | jobDisarm | runway |
    libStore | jobRestore | cadConfig | cadSpeed | cadMark | cadStatus | hpConfig | hpRowgroup | hpStrobe | hpTemptable | hpLink | ledgerConfig |
    ledgerAdvance | chainDiscover | chainStatus | chainForward | chainCadence | chainEdge | calSave | calRestore | calRun | motConfig | motMove |
    motHome | motStop | motStatus | bistRun | errRead | errInject | errRoute | laneTest | memMap | dmaRun | eccErasure | poisonList | scrubPeriod |
    pmcSelect | pmcSnapshot | traceSet | traceRead | rdgIdentify | rdgStatus | rdgLimits | rdgSafeEnter | rdgSafeRelease | rdgPortClear => cases hop
  case imgWriteDone | bundleApplyDone | tblLoadDone | tblReadDone | jobArmDone | libStoreDone | jobRestoreDone | hpTemptableDone | hpLinkDone |
    chainDiscoverDone | chainForwardDone | calSaveDone | calRestoreDone | calRunDone | motMoveDone | bistRunDone | laneTestDone | dmaRunDone =>
    cases hdone
  -- What is left is the BREAK packet, whose name cannot stand as a case's tag.
  next => cases hpkt

/-- Settles O37: only the two rows that bring rails can stop the block. -/
theorem onlyRatingsStop : Obligations.OnlyRatingsStop := by
  refine ⟨fun c s => ?_, fun t rails s hbeyond => ?_, fun t rail mv d s hmax => ?_⟩
  · rcases hpkt : packetOf c with _ | ⟨t, q, p⟩
    case some =>
      obtain ⟨f, hexec⟩ := exec_packetRow s hpkt
      exact .inl ⟨_, hexec⟩
    by_cases hreset : actsInReset c = true
    · cases c
      case powerOn t rails =>
        by_cases hbeyond : beyond rails = true
        · exact .inr ⟨if_pos hbeyond, .inl ⟨t, rails, rfl, hbeyond⟩⟩
        · exact .inl ⟨_, if_neg hbeyond⟩
      case brownOut t rail mv d =>
        by_cases hmax : railMax.getD rail 0 < mv
        · exact .inr ⟨if_pos hmax, .inr ⟨t, rail, mv, d, rfl, hmax⟩⟩
        · exact .inl ⟨_, if_neg hmax⟩
      case resetNAssert | orderlyTimeout | internalResetRelease | sysclkLoss | sysclkFreq | estop => exact .inl ⟨_, rfl⟩
      all_goals cases hreset
    · by_cases halign : ∃ t q far pair, c = .fabricAlign t q far pair
      · obtain ⟨t, q, far, pair, rfl⟩ := halign
        exact .inl ⟨_, rfl⟩
      · obtain ⟨t, f, hexec⟩ := exec_live s (by simpa using hreset) hpkt fun t q far pair h => halign ⟨t, q, far, pair, h⟩
        exact .inl ⟨_, hexec⟩
  · exact if_pos hbeyond
  · exact if_pos hmax

/-- Settles O38: rows that wait for the release do nothing, and a packet or an ALIGN pair passes on in kickstand alone. -/
theorem fullResetHolds : Obligations.FullResetHolds := by
  refine ⟨fun c s hreset hasserted halign hkick => ?_, fun c t q p s hpkt hkick => ?_, fun t q far pair s hkick => ?_⟩
  · rcases hpkt : packetOf c with _ | ⟨t, q, p⟩
    case some =>
      obtain ⟨f, hexec⟩ := exec_packetRow s hpkt
      exact ⟨t, by simp [hexec, packetRow, becomes, hkick _ hpkt, hasserted]⟩
    by_cases hrow : ∃ t q far pair, c = .fabricAlign t q far pair
    · obtain ⟨t, q, far, pair, rfl⟩ := hrow
      exact ⟨t, by simp [exec, execFabricAlign, always, becomes, halign t q far pair rfl, hasserted]⟩
    · obtain ⟨t, f, hexec⟩ := exec_live s hreset hpkt fun t q far pair h => hrow ⟨t, q, far, pair, h⟩
      exact ⟨t, hexec.trans (live_asserted (hasserted t))⟩
  · obtain ⟨f, hexec⟩ := exec_packetRow s hpkt
    simp only [hexec, packetRow, hkick, if_true, becomes]
  · simp only [exec, execFabricAlign, always, hkick, if_true, becomes]

/-- A command that is not taken waits where it is (R93, R99). -/
theorem command_waits {t : Nat} {c : Cmd} {s : State} {run : Cmd → State → State} (hawake : Awake t s) (htakes : takes c.q (atTime t s) = false) :
    command t c s run = becomes t s (atTime t s) := by
  rw [command, live_next hawake, if_neg (by simp [htakes]), becomes]

theorem completion_none {t op : Nat} {q : Queue} {s : State} {f : OpenCmd → State → State} (hawake : Awake t s)
    (hopen : openFor op q s = none) : completion t op q s f = becomes t s (atTime t s) := by
  have hopen' : openFor op q (atTime t s) = none := hopen
  rw [completion, live_next hawake, hopen', becomes]

/-- Settles O42: by the wrapper of commands and by that of completions. -/
theorem nothingTakenNothingDone : Obligations.NothingTakenNothingDone := by
  refine ⟨fun i t c r s hrow hawake htakes => ?_, fun i t op q s hrow hawake hopen => ?_⟩
  · obtain ⟨own, act, hexec⟩ := exec_command s hrow
    rw [hexec, command_waits hawake htakes]
  · obtain ⟨f, hexec⟩ := exec_completion s hrow
    rw [hexec, completion_none hawake hopen]

/-- Settles O40: the first test of `judge`. -/
theorem notServedInHeld : Obligations.NotServedInHeld := by
  intro i t c r s hrow hawake htakes hheld hserved
  obtain ⟨own, act, hexec⟩ := exec_command s hrow
  have hjudge : judge r own c (atTime t s) = some (stHeld, 0) := if_pos ⟨hheld, hserved⟩
  rw [hexec, command_refused hawake htakes hjudge, ends]

end Sys2Proof.Machine
end

section
/-!
PROOFS. The frame of what a command does besides its own effect: bells, posts, events, responses, raises and the proxy change registers of their own kinds
alone, and no memory, unit or job.
-/
namespace Sys2Proof.Machine
open Sys2Proof.Claim

/-- `s'` is `s` but for registers of the kinds `ks` and for what the firmware, the fabric, the counters and the outputs hold. -/
structure Frames (ks : List RegKind) (s s' : State) : Prop where
  reg : ∀ r : RegId, r.k ∉ ks → s'.reg r = s.reg r
  now : s'.now = s.now
  mem : s'.mem = s.mem
  chk : s'.chk = s.chk
  flash : s'.flash = s.flash
  stage : s'.stage = s.stage
  capacity : s'.capacity = s.capacity
  dev : s'.dev = s.dev
  job : s'.job = s.job
  otp : s'.otp = s.otp
  chans : s'.chans = s.chans
  /-- a response that lines wait for makes them join the runway (R121) -/
  segs : NoneWaits s → s'.segs = s.segs
  axes : s'.axes = s.axes
  lib : s'.lib = s.lib
  dram : s'.dram = s.dram
  inject : s'.inject = s.inject
  boot : s'.boot = s.boot
  ctxRec : RegKind.errCount ∉ ks → s'.ctxRec = s.ctxRec

namespace Frames
variable {ks : List RegKind} {s s' s'' : State}

theorem refl (ks : List RegKind) (s : State) : Frames ks s s := by constructor <;> intros <;> rfl

theorem trans (h : Frames ks s s') (h' : Frames ks s' s'') : Frames ks s s'' where
  reg r hr := (h'.reg r hr).trans (h.reg r hr)
  now := h'.now.trans h.now
  mem := h'.mem.trans h.mem
  chk := h'.chk.trans h.chk
  flash := h'.flash.trans h.flash
  stage := h'.stage.trans h.stage
  capacity := h'.capacity.trans h.capacity
  dev := h'.dev.trans h.dev
  job := h'.job.trans h.job
  otp := h'.otp.trans h.otp
  chans := h'.chans.trans h.chans
  segs hw := (h'.segs (by rw [NoneWaits, h.segs hw]; exact hw)).trans (h.segs hw)
  axes := h'.axes.trans h.axes
  lib := h'.lib.trans h.lib
  dram := h'.dram.trans h.dram
  inject := h'.inject.trans h.inject
  boot := h'.boot.trans h.boot
  ctxRec hr := (h'.ctxRec hr).trans (h.ctxRec hr)

theorem mono {ks' : List RegKind} (h : Frames ks s s') (hsub : ks ⊆ ks') : Frames ks' s s' :=
  { h with reg := fun r hr => h.reg r fun hk => hr (hsub hk), ctxRec := fun hr => h.ctxRec fun hk => hr (hsub hk) }

theorem ite {c : Prop} [Decidable c] (h : Frames ks s s') (h' : Frames ks s s'') : Frames ks s (if c then s' else s'') := by
  split <;> assumption

theorem forEach {α : Type} {f : α → State → State} (h : ∀ a s, Frames ks s (f a s)) (l : List α) (s : State) :
    Frames ks s (Machine.forEach l s f) := by
  induction l generalizing s with
  | nil => exact refl ks s
  | cons a l ih => exact (h a s).trans (ih (f a s))

theorem get (h : Frames ks s s') {f : Fld} (hf : f.k ∉ ks) (i j : Nat) : s'.get f i j = s.get f i j := by
  simp only [State.get, h.reg ⟨f.k, i, j⟩ hf]

theorem flag (h : Frames ks s s') {f : Fld} (hf : f.k ∉ ks) (i j : Nat) : s'.flag f i j = s.flag f i j := by
  simp only [State.flag, h.get hf]

theorem armedFor (h : Frames ks s s') (id inst : Nat) : armedFor id inst s' = Machine.armedFor id inst s := by
  simp only [Machine.armedFor, h.inject]

end Frames

/-! The updates of which every operation below is made. -/

section
variable {ks : List RegKind} (s : State)

theorem setReg_frames {r : RegId} (v : Word) (h : r.k ∈ ks) : Frames ks s (s.setReg r v) := by
  constructor
  case reg => exact fun r' hr => reg_setReg_ne s v fun e => hr (e ▸ h)
  all_goals intros; rfl

theorem put_frames {f : Fld} (v i j : Nat) (h : f.k ∈ ks) : Frames ks s (s.put f v i j) := setReg_frames s _ h
theorem bump_frames {f : Fld} (i j n : Nat) (h : f.k ∈ ks) : Frames ks s (s.bump f i j n) := put_frames s _ _ _ h
theorem bumpWrap_frames {f : Fld} (i j n : Nat) (h : f.k ∈ ks) : Frames ks s (s.bumpWrap f i j n) := put_frames s _ _ _ h
theorem setFw_frames (f : Fw) : Frames ks s { s with fw := f } := by constructor <;> intros <;> rfl
theorem setFab_frames (f : Fab) : Frames ks s (s.setFab f) := by constructor <;> intros <;> rfl
theorem emit_frames (o : Output) : Frames ks s (s.emit o) := by constructor <;> intros <;> rfl
theorem tally_frames (ev inst n : Nat) : Frames ks s (s.tally ev inst n) := by constructor <;> intros <;> rfl
theorem setPcie_frames (p : Pcie) : Frames ks s { s with pcie := p } := by constructor <;> intros <;> rfl

end

theorem setCtxRec_frames {ks : List RegKind} (s : State) (l : List (Nat × List Byte × List Byte)) (h : RegKind.errCount ∈ ks) :
    Frames ks s { s with ctxRec := l } := by
  constructor
  case ctxRec => exact fun hk => absurd h hk
  all_goals intros; rfl

/-! Messages, bells and events (R78, R82, R96). -/

theorem sendMsix_frames (v : Nat) (s : State) : Frames ks s (sendMsix v s) :=
  .ite (.refl _ s) (.ite (setPcie_frames s _) (emit_frames s _))

theorem ringBell_frames (m b : Nat) (s : State) : Frames answerKinds s (ringBell m b s) :=
  have hbell := setReg_frames (ks := answerKinds) s (r := ⟨.pnrBell, m, 0⟩) (BitVec.ofNat 32 ((s.reg ⟨.pnrBell, m, 0⟩).toNat ||| 2 ^ b))
    (by simp [answerKinds])
  .ite (hbell.trans (sendMsix_frames _ _)) hbell

theorem postMessage_frames (n : Nat) (s : State) : Frames answerKinds s (postMessage n s) :=
  (put_frames s (f := R.pnrStatus_FULL) _ _ _ (by decide)).trans <| (bumpWrap_frames _ (f := R.pnrStatus_PSEQ) _ _ _ (by decide)).trans <|
    (put_frames _ (f := R.pnrEpoch_STAMP) _ _ _ (by decide)).trans <| (put_frames _ (f := R.pnrStatus_WFULL) _ _ _ (by decide)).trans <|
    (put_frames _ (f := R.pnrTake_LEN) _ _ _ (by decide)).trans (ringBell_frames _ _ _)

theorem writeWords_frames (n : Nat) (ws : List Word) (i : Nat) (s : State) : Frames answerKinds s (writeWords n i ws s) := by
  induction ws generalizing i s with
  | nil => exact .refl _ s
  | cons w ws ih => exact (setReg_frames s w (by simp [answerKinds])).trans (ih (i + 1) _)

theorem postWords_frames (n : Nat) (ws : List Word) (s : State) : Frames answerKinds s (postWords n ws s) :=
  (writeWords_frames n ws 0 s).trans <| (put_frames _ (f := R.pnrCtrl_LEN) _ _ _ (by decide)).trans (postMessage_frames n _)

theorem pumpEvents_frames (s : State) : Frames answerKinds s (pumpEvents s) := by
  unfold pumpEvents
  split
  · exact .refl _ s
  · exact .ite (.refl _ s) ((postWords_frames _ _ s).trans (setFw_frames _ _))

theorem reportLost_frames (s : State) : Frames answerKinds s (reportLost s) := .ite (setFw_frames s _) (.refl _ s)

theorem pumpChannel2_frames (s : State) : Frames answerKinds s (pumpChannel2 s) :=
  (pumpEvents_frames s).trans <| (reportLost_frames _).trans (pumpEvents_frames _)

theorem event_frames (code subject : Nat) (ws : List Nat) (s : State) : Frames answerKinds s (event code subject ws s) :=
  .ite (.refl _ s) <| .ite (setFw_frames s _) ((setFw_frames s _).trans (pumpChannel2_frames _))

/-! Responses (R94): with no posted line waiting for its response, none joins the runway. -/

theorem joinPosts_none {s : State} (h : NoneWaits s) (q : Queue) (ws : List Word) : joinPosts q ws s = (ws, s) := by
  have hfind : s.segs.find? (fun e => e.2.posts.any fun p => decide (p.waits = some (q, ws.headD 0))) = none := by
    rw [List.find?_eq_none]
    intro e he
    simp only [List.any_eq_true, decide_eq_true_eq, not_exists, not_and]
    intro p hp
    simp [h e he p hp]
  rw [joinPosts, hfind]

theorem joinPosts_frames (q : Queue) (ws : List Word) (s : State) : Frames ks s (joinPosts q ws s).2 := by
  constructor
  case segs =>
    intro hw
    rw [joinPosts_none hw]
  all_goals
    intros
    unfold joinPosts
    split <;> rfl

theorem pumpReplies_frames (n : Nat) (s : State) : Frames answerKinds s (pumpReplies n s) := by
  unfold pumpReplies
  refine .ite (.refl _ s) ?_
  split
  · exact .refl _ s
  · exact (joinPosts_frames _ _ s).trans <| (postWords_frames _ _ _).trans (setFw_frames _ _)

theorem respond_frames (op : Nat) (c : Cmd) (status detail : Nat) (ws : List Nat) (s : State) :
    Frames answerKinds s (respond op c status detail ws s) :=
  (setFw_frames s _).trans (pumpReplies_frames _ _)

/-! The fabric proxy (R103, R290). -/

theorem takeMessage_frames (n : Nat) (s : State) : Frames answerKinds s (takeMessage n s) :=
  (put_frames s (f := R.pnrStatus_FULL) _ _ _ (by decide)).trans (ringBell_frames _ _ _)

theorem queuePacket_frames (q : Nat) (p : Pkt) (s : State) (after : Nat) : Frames ks s (queuePacket q p s after) := by
  constructor <;> intros <;> rfl

theorem sendPacket_frames (q : Nat) (p : Pkt) (s : State) (after : Nat) : Frames ks s (sendPacket q p s after) := by
  refine Frames.trans ?_ (queuePacket_frames q p _ after)
  split
  · exact .ite (.refl _ s) (tally_frames s _ _ _)
  · exact tally_frames s _ _ _
  · exact tally_frames s _ _ _

theorem sendUnicast_frames (from_ : Option Nat) (p : Pkt) (s : State) : Frames ks s (sendUnicast from_ p s) := by
  unfold sendUnicast
  refine .ite (.refl _ s) ?_
  split
  · exact .ite (sendPacket_frames _ _ _ _) (.refl _ s)
  · exact .refl _ s

theorem proxyTake_frames (s : State) : Frames answerKinds s (proxyTake s) := by
  unfold proxyTake
  refine .ite (.refl _ s) (Frames.trans ?_ ((takeMessage_frames 9 _).trans (pumpReplies_frames 9 _)))
  split
  · exact .refl _ s
  · exact (setFab_frames s _).trans (sendUnicast_frames none _ _)

theorem proxyServe_frames (s : State) : Frames answerKinds s (proxyServe s) := by
  have htakes := (proxyTake_frames s).trans (proxyTake_frames _)
  simp only [proxyServe]
  split
  · exact .ite htakes (htakes.trans <| (setFab_frames _ _).trans <| (setFab_frames _ _).trans (postWords_frames _ _ _))
  · exact htakes

/-! Raises (R423, R424). -/

/-- Registers that a raise changes: counts, pending bits, and those of the event that reports it. -/
def raiseKinds : List RegKind := [.errCount, .errHostpend] ++ answerKinds

theorem recordRaise_frames (id inst : Nat) (addr : Option Nat) (status : Nat) (inj : Bool) (s : State) :
    Frames [.errCount] s (recordRaise id inst addr status inj s) :=
  (bump_frames s (f := R.errCount_COUNT) _ _ _ (by decide)).trans (setCtxRec_frames _ _ (by decide))

theorem routeHost_frames (id : Nat) (s : State) : Frames [.errHostpend] s (routeHost id s) :=
  have hpend := setReg_frames (ks := [.errHostpend]) s (r := hostPend id) (BitVec.ofNat 32 ((s.reg (hostPend id)).toNat ||| 2 ^ (id % 32)))
    (List.mem_singleton.mpr rfl)
  .ite hpend (hpend.trans (sendMsix_frames _ _))

theorem routeControl_frames (id : Nat) (s : State) : Frames answerKinds s (routeControl id s) :=
  .ite (Frames.trans (by constructor <;> intros <;> rfl) (event_frames _ _ _ _)) (.refl _ s)

theorem raise_frames (id inst : Nat) (addr : Option Nat) (status : Nat) (inj : Bool) (s : State) :
    Frames raiseKinds s (raise id inst addr status inj s) := by
  have hrec := (recordRaise_frames id inst addr status inj s).mono (ks' := raiseKinds) (by decide)
  have hhost (u : State) (b : Bool) : Frames raiseKinds u (if b then routeHost id u else u) :=
    .ite ((routeHost_frames id u).mono (by decide)) (.refl _ u)
  have hcontrol (u : State) (b : Bool) : Frames raiseKinds u (if b then routeControl id u else u) :=
    .ite ((routeControl_frames id u).mono (by decide)) (.refl _ u)
  exact hrec.trans (.ite (.refl _ _) ((hhost _ _).trans (hcontrol _ _)))

/-! SRAM reads of the firing path, and the end of every command. -/

theorem sramRead_unarmed {group inst : Nat} {s : State} (h45 : armedFor 45 group s = false) (h46 : armedFor 46 group s = false) :
    sramRead group inst s = s := by
  simp [sramRead, h45, h46]

/-- Reads of groups for which no injection is armed do nothing (R352). -/
theorem reads_unarmed {groups : List Nat} {s : State} (h : ∀ g ∈ groups, armedFor 45 g s = false ∧ armedFor 46 g s = false) :
    reads groups s = s := by
  induction groups with
  | nil => rfl
  | cons g groups ih =>
    obtain ⟨h45, h46⟩ := h g (by simp)
    rw [reads, forEach, List.foldl_cons, sramRead_unarmed h45 h46]
    exact ih fun g' hg' => h g' (by simp [hg'])

end Sys2Proof.Machine
end

section
/-!
PROOFS. The frame of a whole command: queries (R94, R101, R102, R223, R403) and the commands that set registers (R206, R213, R214, R349, R424).
-/
namespace Sys2Proof.Machine
open Sys2Proof.Claim

/-- The end of a command leaves what its effect left, but for `GLB_DEVSTATE` (R98). -/
theorem keeps_of_frames {ks : List RegKind} {t : Nat} {s u : State} (hw : NoneWaits s) (h : Frames ks (atTime t s) u) : Keeps ks s (conclude (atTime t s) u) := by
  refine ⟨fun r hr hdev => ?_, fun a => ⟨?_, ?_, ?_, ?_⟩, ?_, ?_, h.otp, ?_, ?_, ?_, h.lib, ?_, ?_⟩
  · rw [conclude_reg _ _ _ fun e => hdev (congrArg RegId.k e), h.reg r hr, atTime_reg]
  · rw [conclude_mem, h.mem, atTime_mem]
  · rw [conclude_chk, h.chk, atTime_chk]
  · rw [conclude_flash, h.flash]
    rfl
  · rw [conclude_stage, h.stage]
    rfl
  · rw [conclude_dev, h.dev, atTime_dev]
  · rw [conclude_job, h.job, atTime_job]
  · rw [conclude_chans, h.chans]
    rfl
  · rw [conclude_segs, h.segs hw]
    rfl
  · rw [conclude_axes, h.axes]
    rfl
  · rw [conclude_dram, h.dram]
    rfl
  · rw [conclude_inject, h.inject, atTime_inject]

/-- A command that is judged and answered changes what its action changes, and what an answer changes. -/
theorem runCommand_frames {ks : List RegKind} (hsub : answerKinds ⊆ ks) {r : OpRow} {own : Cmd → State → Option (Nat × Nat)}
    {act : Cmd → State → Reply} {c : Cmd} {u : State} (hact : Frames ks u (act c u).s) :
    Frames ks u (runCommand r own act c u) := by
  unfold runCommand
  split
  · exact (respond_frames _ _ _ _ _ _).mono hsub
  · exact hact.trans (.ite (setFw_frames _ _) ((respond_frames _ _ _ _ _ _).mono hsub))

/-- The frame of a command, taken or not, whatever its status. -/
theorem command_keeps {ks : List RegKind} (hsub : answerKinds ⊆ ks) {r : OpRow} {own : Cmd → State → Option (Nat × Nat)}
    {act : Cmd → State → Reply} {t : Nat} {c : Cmd} {s s' : State} (hw : NoneWaits s) (h45 : armedFor 45 11 s = false)
    (h46 : armedFor 46 11 s = false) (hact : ∀ u, Frames ks u (act c u).s) (h : command t c s (runCommand r own act) = .next s') :
    Keeps ks s s' := by
  have hrun := runCommand_frames hsub (r := r) (own := own) (u := atTime t s) (hact _)
  have hreads : reads [11] (runCommand r own act c (atTime t s)) = runCommand r own act c (atTime t s) := by
    refine reads_unarmed fun g hg => ?_
    rw [List.mem_singleton.mp hg, hrun.armedFor, hrun.armedFor]
    exact ⟨h45, h46⟩
  have hserved := hrun.trans ((proxyServe_frames _).mono hsub)
  cases h
  refine keeps_of_frames hw (.ite (.refl _ _) (.ite ?_ (.refl _ _)))
  rw [hreads]
  exact hserved

/-- Settles O52: the action of each query gives back the state that it reads. -/
theorem queriesKeepState : Obligations.QueriesKeepState := by
  intro i t c s s' hi hw h45 h46 hexec
  have hquery {r : OpRow} {own : Cmd → State → Option (Nat × Nat)} {act : Cmd → State → Reply} (hact : ∀ u, (act c u).s = u)
      (h : command t c s (runCommand r own act) = .next s') : Keeps answerKinds s s' :=
    command_keeps (List.Subset.refl _) hw h45 h46 (fun u => by rw [hact u]; exact .refl _ u) h
  simp only [List.mem_cons, List.not_mem_nil, or_false] at hi
  rcases hi with rfl | rfl | rfl | rfl | rfl | rfl | rfl | rfl
  · exact hquery (act := identifyAct) (fun _ => rfl) hexec
  · exact hquery (act := getStateAct) (fun _ => rfl) hexec
  · exact hquery (act := imgInfoAct) (fun _ => rfl) hexec
  · exact hquery (act := memMapAct) (fun _ => rfl) hexec
  · exact hquery (act := cadStatusAct) (fun _ => rfl) hexec
  · exact hquery (act := motStatusAct) (fun _ => rfl) hexec
  · exact hquery (act := rdgIdentifyAct) (fun _ => rfl) hexec
  · exact hquery (act := rdgStatusAct) (fun _ => rfl) hexec

theorem eraseEn_kind (sub : Nat) : (eraseEn sub).k = .eccErase := by unfold eraseEn; split <;> rfl
theorem eraseDev_kind (sub : Nat) : (eraseDev sub).k = .eccErase := by unfold eraseDev; split <;> rfl

/-- Settles O53: each action puts fields of the registers that the row names. -/
theorem settingsKeepOthers : Obligations.SettingsKeepOthers := by
  intro t c s s' hw h45 h46
  refine ⟨fun h => ?_, fun h => ?_, fun h => ?_, fun h => ?_⟩
  · refine command_keeps (act := cadSpeedAct) (by decide) hw h45 h46 (fun u => ?_) h
    exact (put_frames u (f := R.cadWarncfg_WARNPER) _ _ _ (by decide)).trans <|
      (put_frames _ (f := R.cadWarncfg_HORIZON) _ _ _ (by decide)).trans <| (put_frames _ (f := R.cadFirecfg_SLACK) _ _ _ (by decide)).trans
      (put_frames _ (f := R.cadFirecfg_MINPER) _ _ _ (by decide))
  · refine command_keeps (act := errRouteAct) (by decide) hw h45 h46 (fun u => ?_) h
    exact (put_frames u (f := R.errCfg_MASK) _ _ _ (by decide)).trans (put_frames _ (f := R.errCfg_ROUTE) _ _ _ (by decide))
  · exact command_keeps (act := eventMaskAct) (by decide) hw h45 h46 (fun u => setFw_frames u _) h
  · refine command_keeps (act := eccErasureAct) (by decide) hw h45 h46 (fun u => ?_) h
    exact (put_frames u _ _ _ (by simp [eraseDev_kind])).trans (put_frames _ _ _ _ (by simp [eraseEn_kind]))

end Sys2Proof.Machine
end

section
/-!
PROOFS. The error collector: what a raise leaves of counts and context records (R423), and what CLR clears.
-/
namespace Sys2Proof.Machine
open Sys2Proof.Claim

/-! A number as bytes and back (R2). -/

theorem leBytes_length (n v : Nat) : (leBytes n v).length = n := by
  induction n generalizing v with
  | zero => rfl
  | succ n ih => simp [leBytes, ih]

theorem leNat_leBytes (n v : Nat) : leNat (leBytes n v) = v % 256 ^ n := by
  induction n generalizing v with
  | zero => simp [leBytes, leNat, Nat.mod_one]
  | succ n ih =>
    rw [leBytes, leNat, ih, BitVec.toNat_ofNat, Nat.pow_succ' (m := 256), Nat.mod_mul]

/-- A field of a record that is laid out byte by byte. -/
theorem fieldAt_append (pre post : List Byte) (n v : Nat) {off : Nat} (h : pre.length = off) :
    fieldAt (pre ++ leBytes n v ++ post) off n = v % 256 ^ n := by
  subst h
  rw [fieldAt, List.append_assoc, List.drop_left, List.take_left' (leBytes_length n v), leNat_leBytes]

section
variable (id inst : Nat) (addr : Option Nat) (status count : Nat) (inj : Bool) (s : State)

theorem contextRecord_id : fieldAt (contextRecord id inst addr status count inj s) 8 2 = id % 65536 := by
  simp only [contextRecord, List.append_assoc]
  rw [← List.append_assoc]
  exact fieldAt_append _ _ 2 id (leBytes_length 8 _)

theorem contextRecord_count : fieldAt (contextRecord id inst addr status count inj s) 0x0C 4 = count % 4294967296 := by
  simp only [contextRecord]
  rw [List.append_assoc, List.append_assoc]
  exact fieldAt_append _ _ 4 count (by simp [leBytes_length])

/-- The record of a raise, with its count in it (R423). -/
def raiseRecord : List Byte := contextRecord id inst addr status (satAdd (2 ^ 32 - 1) (s.get R.errCount_COUNT id) 1) inj s

end

section
variable (id inst : Nat) (addr : Option Nat) (status : Nat) (inj : Bool) (s : State)

/-- The routes of a raise change neither counts nor records (R424). -/
theorem raise_of_record : ∃ u, Frames (.errHostpend :: answerKinds) (recordRaise id inst addr status inj s) u ∧ raise id inst addr status inj s = u := by
  refine ⟨_, ?_, rfl⟩
  have hhost (u : State) (b : Bool) : Frames (.errHostpend :: answerKinds) u (if b then routeHost id u else u) :=
    .ite ((routeHost_frames id u).mono (by decide)) (.refl _ u)
  have hcontrol (u : State) (b : Bool) : Frames (.errHostpend :: answerKinds) u (if b then routeControl id u else u) :=
    .ite ((routeControl_frames id u).mono (by decide)) (.refl _ u)
  exact .ite (.refl _ _) ((hhost _ _).trans (hcontrol _ _))

theorem raise_count : (raise id inst addr status inj s).get R.errCount_COUNT id = min 0xFFFFFFFF (s.get R.errCount_COUNT id + 1) := by
  obtain ⟨u, hu, hraise⟩ := raise_of_record id inst addr status inj s
  have hrec : (recordRaise id inst addr status inj s).get R.errCount_COUNT id = (s.bump R.errCount_COUNT id).get R.errCount_COUNT id := rfl
  rw [hraise, hu.get (by decide), hrec, State.bump, get_put_same _ _ _ _ _ (by decide)]
  exact Nat.mod_eq_of_lt (Nat.lt_succ_of_le (Nat.min_le_left _ _))

theorem raise_ctxRec : mapGet ([], []) (raise id inst addr status inj s).ctxRec id =
    (if s.get R.errCount_COUNT id = 0 then raiseRecord id inst addr status inj s else (mapGet ([], []) s.ctxRec id).1, raiseRecord id inst addr status inj s) := by
  obtain ⟨u, hu, hraise⟩ := raise_of_record id inst addr status inj s
  rw [hraise, hu.ctxRec (by decide)]
  exact mapGet_mapSet_same _ _ _ _ _

end

theorem clearDetector_regs {i : Nat} (s : State) (h : isDetector i = true) : (clearDetector i s).regs = (s.put R.errCount_COUNT 0 i).regs := by
  rw [clearDetector, if_pos h]

theorem clearDetector_count {i : Nat} (s : State) (h : isDetector i = true) : (clearDetector i s).get R.errCount_COUNT i = 0 := by
  rw [get_of_regs (clearDetector_regs s h), get_put_same _ _ _ _ _ (by decide)]
  rfl

theorem clearDetector_ctxRec {i : Nat} (s : State) (h : isDetector i = true) : mapGet ([], []) (clearDetector i s).ctxRec i = ([], []) := by
  rw [clearDetector, if_pos h]
  exact mapGet_mapSet_same natLt ([], []) s.ctxRec i ([], [])

theorem conclude_ctxRec (s0 s : State) : (conclude s0 s).ctxRec = s.ctxRec := rfl

theorem conclude_get (s0 s : State) {f : Fld} (i j : Nat) (h : f.k ≠ .glbDevstate) : (conclude s0 s).get f i j = s.get f i j := by
  simp only [State.get]
  rw [conclude_reg _ _ _ fun e => h (congrArg RegId.k e)]

/-- Settles O51: the uncorrectable error is a raise of detector 27, and CLR puts back an empty entry. -/
theorem raiseCountsAndRecords : Obligations.RaiseCountsAndRecords := by
  refine ⟨fun t s hawake hlink => ?_, fun t s hawake => ?_⟩
  · have hrow : exec (.pcieError t true) s = execPcieError t true s := rfl
    have hexec : exec (.pcieError t true) s = becomes t s (raise 27 0 none 0 false (logHeader (atTime t s))) := by
      rw [hrow, execPcieError, live_next hawake, if_neg (by simp [hlink]), if_pos rfl, becomes]
    have hcount : (logHeader (atTime t s)).get R.errCount_COUNT 27 = s.get R.errCount_COUNT 27 := rfl
    refine ⟨_, raiseRecord 27 0 none 0 false (logHeader (atTime t s)), hexec, ?_, ?_, ?_, ?_, ?_⟩
    · rw [conclude_get _ _ _ _ (by decide), raise_count, hcount]
    · rw [conclude_ctxRec, raise_ctxRec]
    · rw [conclude_ctxRec, raise_ctxRec, hcount]
      rfl
    · rw [raiseRecord, contextRecord_id]
    · rw [conclude_get _ _ _ _ (by decide), raise_count, raiseRecord, contextRecord_count]
      exact Nat.mod_eq_of_lt (Nat.lt_succ_of_le (Nat.min_le_left _ _))
  · have hrow : exec (.errCfgClr t .control 27) s = liveWrite .control t s (clearDetector 27) := rfl
    refine ⟨_, by rw [hrow, liveWrite_next hawake], ?_, ?_⟩
    · rw [conclude_get _ _ _ _ (by decide), clearDetector_count _ rfl]
    · rw [conclude_ctxRec, clearDetector_ctxRec _ rfl]

end Sys2Proof.Machine
end

section
/-!
PROOFS. DRAM behind the write queue (R319, R320): what the bookkeeping of accesses leaves, and that a drain is seen by no read.
-/
namespace Sys2Proof.Machine
open Sys2Proof.Claim

/-- `s'` is `s` but for the bookkeeping of accesses: the mapping, the byte memories, the write queues and the armed injection are as they were. -/
structure Undisturbed (s s' : State) : Prop where
  cfg : s'.reg ⟨.dmcCfg, 0, 0⟩ = s.reg ⟨.dmcCfg, 0, 0⟩
  mem : s'.mem = s.mem
  chk : s'.chk = s.chk
  flash : s'.flash = s.flash
  stage : s'.stage = s.stage
  inject : s'.inject = s.inject
  queues : s'.dram.queues = s.dram.queues

namespace Undisturbed
variable {s s' s'' : State}

theorem refl (s : State) : Undisturbed s s := ⟨rfl, rfl, rfl, rfl, rfl, rfl, rfl⟩

theorem trans (h : Undisturbed s s') (h' : Undisturbed s' s'') : Undisturbed s s'' :=
  ⟨h'.cfg.trans h.cfg, h'.mem.trans h.mem, h'.chk.trans h.chk, h'.flash.trans h.flash, h'.stage.trans h.stage, h'.inject.trans h.inject,
    h'.queues.trans h.queues⟩

theorem ite {c : Prop} [Decidable c] (h : Undisturbed s s') (h' : Undisturbed s s'') : Undisturbed s (if c then s' else s'') := by
  split <;> assumption

theorem of_frames {ks : List RegKind} (h : Frames ks s s') (hk : RegKind.dmcCfg ∉ ks) : Undisturbed s s' :=
  ⟨h.reg _ hk, h.mem, h.chk, h.flash, h.stage, h.inject, by rw [h.dram]⟩

theorem loc (h : Undisturbed s s') (a : Nat) : s'.loc a = s.loc a := by
  simp only [State.loc, State.get, h.cfg]

theorem wq (h : Undisturbed s s') (c : Nat) : s'.wq c = s.wq c := by rw [State.wq, State.wq, h.queues]

theorem queued (h : Undisturbed s s') (a : Nat) : s'.queued a = s.queued a := by rw [State.queued, State.queued, h.loc, h.wq]

theorem dramByte (h : Undisturbed s s') (a : Nat) : s'.dramByte a = s.dramByte a := by rw [State.dramByte, State.dramByte, h.queued, h.mem]

theorem queuesRight (h : Undisturbed s s') (hq : QueuesRight s) : QueuesRight s' := by
  intro c w hw
  rw [h.wq] at hw
  rw [h.loc]
  exact hq c w hw

theorem memWf (h : Undisturbed s s') (hm : s.memWf) : s'.memWf := by
  rw [State.memWf, h.mem, h.chk, h.flash, h.stage]
  exact hm

end Undisturbed

/-- An update of the controller's records other than the write queues. -/
theorem dram_undisturbed (s : State) (d : Dram) (h : d.queues = s.dram.queues) : Undisturbed s { s with dram := d } :=
  ⟨rfl, rfl, rfl, rfl, rfl, rfl, h⟩

theorem raise_undisturbed (id inst : Nat) (addr : Option Nat) (status : Nat) (inj : Bool) (s : State) :
    Undisturbed s (raise id inst addr status inj s) := .of_frames (raise_frames id inst addr status inj s) (by decide)

theorem put_undisturbed (s : State) (f : Fld) (v i j : Nat) (h : f.k ≠ .dmcCfg) : Undisturbed s (s.put f v i j) :=
  .of_frames (put_frames s (ks := [f.k]) v i j (by simp)) (by simpa using h.symm)

theorem bump_undisturbed (s : State) (f : Fld) (i j n : Nat) (h : f.k ≠ .dmcCfg) : Undisturbed s (s.bump f i j n) := put_undisturbed s f _ _ _ h

theorem tally_undisturbed (s : State) (ev inst n : Nat) : Undisturbed s (s.tally ev inst n) := ⟨rfl, rfl, rfl, rfl, rfl, rfl, rfl⟩

theorem atTime_undisturbed (t : Nat) (s : State) : Undisturbed s (atTime t s) := ⟨rfl, rfl, rfl, rfl, rfl, rfl, rfl⟩

theorem conclude_undisturbed (s0 s : State) : Undisturbed s (conclude s0 s) :=
  ⟨conclude_reg _ _ _ (by decide), conclude_mem _ _, conclude_chk _ _, conclude_flash _ _, conclude_stage _ _, conclude_inject _ _,
    by rw [conclude_dram]⟩

theorem noteUse_undisturbed (a : Nat) (s : State) : Undisturbed s (noteUse a s) := dram_undisturbed s _ rfl

theorem takeTurn_undisturbed (req d : Nat) (s : State) : Undisturbed s (takeTurn req d s) := dram_undisturbed s _ rfl

/-! Activations (R317, R322, R323). -/

theorem rowCrossing_undisturbed (req : Nat) (l : DramLoc) (s : State) : Undisturbed s (rowCrossing req l s) := by
  unfold rowCrossing
  refine .trans ?_ (raise_undisturbed _ _ _ _ _ _)
  refine .trans ?_ (dram_undisturbed _ _ rfl)
  refine .trans ?_ (tally_undisturbed _ _ _ _)
  refine .trans ?_ (put_undisturbed _ (levelField req) _ _ _ (by simp [levelField]))
  refine .trans ?_ (put_undisturbed _ R.dmcRhstat_BANK _ _ _ (by decide))
  refine .trans ?_ (put_undisturbed _ R.dmcRhstat_RANK _ _ _ (by decide))
  refine .trans ?_ (put_undisturbed _ R.dmcRhstat_SUB _ _ _ (by decide))
  refine .trans ?_ (put_undisturbed _ R.dmcRhstat_CHAN _ _ _ (by decide))
  refine .trans ?_ (put_undisturbed _ R.dmcRhstat_LASTREQ _ _ _ (by decide))
  exact bump_undisturbed s R.dmcRhstat_COUNT _ _ _ (by decide)

theorem activate_undisturbed (req a : Nat) (s : State) : Undisturbed s (activate req a s) := by
  simp only [activate]
  split
  · refine .trans ?_ (rowCrossing_undisturbed _ _ _)
    refine .trans ?_ (dram_undisturbed _ _ rfl)
    exact tally_undisturbed s _ _ _
  · refine .trans ?_ (dram_undisturbed _ _ rfl)
    exact tally_undisturbed s _ _ _

/-- A read of a burst moves nothing (R317). -/
theorem issue_none_undisturbed (req a : Nat) (s : State) : Undisturbed s (issue req a none s) := by
  unfold issue
  refine .trans ?_ (dram_undisturbed _ _ rfl)
  exact (noteUse_undisturbed a s).trans (activate_undisturbed req a _)

theorem storeBurst_congr {s s' : State} (h : Undisturbed s s') (a : Nat) (bs : List Byte) : Undisturbed (storeBurst a bs s) (storeBurst a bs s') := by
  refine ⟨h.cfg, ?_, ?_, h.flash, h.stage, h.inject, h.queues⟩
  · simp only [storeBurst, h.mem]
  · simp only [storeBurst, h.chk]

theorem issue_some_stores (req a : Nat) (bs : List Byte) (s : State) : Undisturbed (storeBurst a bs s) (issue req a (some bs) s) := by
  unfold issue
  apply storeBurst_congr
  refine .trans ?_ (dram_undisturbed _ _ rfl)
  exact (noteUse_undisturbed a s).trans (activate_undisturbed req a _)

/-! Bursts. -/

theorem burstOf_aligned (a : Nat) : burstOf a % 64 = 0 := by unfold burstOf; omega
theorem burstOf_of_aligned {a : Nat} (h : a % 64 = 0) : burstOf a = a := by unfold burstOf; omega
theorem burstOf_add_mod (a : Nat) : burstOf a + a % 64 = a := by unfold burstOf; omega

/-- An address outside an aligned burst lies below or above it. -/
theorem outside_of_burstOf_ne {a b : Nat} (hb : b % 64 = 0) (h : burstOf a ≠ b) : a < b ∨ b + 64 ≤ a := by unfold burstOf at h; omega

/-- The DIMM channel is a matter of the burst (R314). -/
theorem loc_burstOf_c (s : State) (a : Nat) : (s.loc (burstOf a)).c = (s.loc a).c := by
  simp only [State.loc, dramLoc, bitsOf, burstOf]
  omega

/-! The oldest write of a queue leaves it for the DIMM. -/

/-- The oldest write `w` of a queue stored, the writes after it left in the queue: a drain but for its bookkeeping. -/
def popStore (c : Nat) (w : QWrite) (rest : List QWrite) (s : State) : State :=
  storeBurst w.addr w.data (s.setDram { s.dram with queues := nset [] s.dram.queues c rest })

theorem drainOne_pops {c : Nat} {w : QWrite} {rest : List QWrite} {s : State} (h : s.wq c = w :: rest) :
    Undisturbed (popStore c w rest s) (drainOne c s) := by
  rw [drainOne, h]
  refine .trans (storeBurst_congr ?_ w.addr w.data) (issue_some_stores w.req w.addr w.data _)
  exact ⟨rfl, rfl, rfl, rfl, rfl, rfl, rfl⟩

theorem drainOne_nil {c : Nat} {s : State} (h : s.wq c = []) : drainOne c s = s := by rw [drainOne, h]

section
variable {c : Nat} {w : QWrite} {rest : List QWrite} {s : State}

theorem wq_popStore_same : (popStore c w rest s).wq c = rest := mapGet_mapSet_same _ _ _ _ _

theorem wq_popStore_ne {c' : Nat} (h : c ≠ c') : (popStore c w rest s).wq c' = s.wq c' := mapGet_mapSet_ne _ _ _ _ h

theorem loc_popStore (a : Nat) : (popStore c w rest s).loc a = s.loc a := rfl

theorem mem_popStore : (popStore c w rest s).mem = Memory.writeN 0 s.mem w.addr (w.data.take 64) := rfl

theorem queuesRight_popStore (h : s.wq c = w :: rest) (hq : QueuesRight s) : QueuesRight (popStore c w rest s) := by
  intro c' x hx
  rw [loc_popStore]
  by_cases hc : c = c'
  · subst hc
    rw [wq_popStore_same] at hx
    exact hq c x (by simp [h, hx])
  · rw [wq_popStore_ne hc] at hx
    exact hq c' x hx

/-- A byte of another burst than the one stored. -/
theorem read_popStore_ne (hw : w.addr % 64 = 0) {a : Nat} (ha : burstOf a ≠ w.addr) :
    Memory.read 0 (popStore c w rest s).mem a = Memory.read 0 s.mem a := by
  rw [mem_popStore]
  refine read_writeN_outside _ _ _ _ _ ?_
  rw [List.length_take]
  have := outside_of_burstOf_ne hw ha
  omega

/-- A byte of the burst that is stored. -/
theorem read_popStore_same (hlen : 64 ≤ w.data.length) {a : Nat} (ha : burstOf a = w.addr) :
    Memory.read 0 (popStore c w rest s).mem a = w.data.getD (a % 64) 0 := by
  have hlt : a % 64 < (w.data.take 64).length := by rw [List.length_take]; omega
  have hread := read_writeN_inside 0 (w.data.take 64) s.mem w.addr (a % 64) hlt
  rw [← ha, burstOf_add_mod, ha] at hread
  rw [mem_popStore, hread, List.getElem_take, List.getD_eq_getElem]

/-- A drained write is what reads of its bytes gave before and give after (R320). -/
theorem dramByte_popStore (h : s.wq c = w :: rest) (hq : QueuesRight s) (a : Nat) : (popStore c w rest s).dramByte a = s.dramByte a := by
  obtain ⟨hc, halign, hlen⟩ := hq c w (by simp [h])
  have hlen' : 64 ≤ w.data.length := by omega
  simp only [State.dramByte, State.queued, loc_popStore]
  by_cases hchan : c = (s.loc a).c
  · rw [← hchan, wq_popStore_same, h]
    by_cases ha : w.addr = burstOf a
    · rw [List.filter_cons_of_pos (by simpa using ha), List.getLast?_cons]
      cases hrest : (rest.filter fun x => decide (x.addr = burstOf a)).getLast? with
      | some x => simp
      | none => simpa using read_popStore_same hlen' ha.symm
    · rw [List.filter_cons_of_neg (by simpa using ha), read_popStore_ne halign fun e => ha e.symm]
  · have ha : burstOf a ≠ w.addr := fun e => hchan (by rw [← hc, ← e, loc_burstOf_c])
    rw [wq_popStore_ne hchan, read_popStore_ne halign ha]

end

/-- What a drain leaves as it was: the bytes that reads give, the form of the queues, flash and the staging
buffer. -/
structure Unseen (s s' : State) : Prop where
  bytes : ∀ a, s'.dramByte a = s.dramByte a
  loc : ∀ a, s'.loc a = s.loc a
  queues : QueuesRight s'
  flash : s'.flash = s.flash
  stage : s'.stage = s.stage
  inject : s'.inject = s.inject

namespace Unseen
variable {s s' s'' : State}

theorem of_undisturbed (h : Undisturbed s s') (hq : QueuesRight s) : Unseen s s' :=
  ⟨h.dramByte, h.loc, h.queuesRight hq, h.flash, h.stage, h.inject⟩

theorem trans (h : Unseen s s') (h' : Unseen s' s'') : Unseen s s'' :=
  ⟨fun a => (h'.bytes a).trans (h.bytes a), fun a => (h'.loc a).trans (h.loc a), h'.queues, h'.flash.trans h.flash, h'.stage.trans h.stage,
    h'.inject.trans h.inject⟩

end Unseen

theorem popStore_unseen {c : Nat} {w : QWrite} {rest : List QWrite} {s : State} (h : s.wq c = w :: rest) (hq : QueuesRight s) :
    Unseen s (popStore c w rest s) :=
  ⟨dramByte_popStore h hq, fun _ => rfl, queuesRight_popStore h hq, rfl, rfl, rfl⟩

theorem drainOne_unseen {s : State} (hq : QueuesRight s) (c : Nat) : Unseen s (drainOne c s) := by
  cases h : s.wq c with
  | nil =>
    rw [drainOne_nil h]
    exact .of_undisturbed (.refl s) hq
  | cons w rest =>
    have hpop := popStore_unseen h hq
    exact hpop.trans (.of_undisturbed (drainOne_pops h) hpop.queues)

theorem loc_drainOne (c x : Nat) (s : State) : (drainOne c s).loc x = s.loc x := by
  cases h : s.wq c with
  | nil => rw [drainOne_nil h]
  | cons w rest => rw [(drainOne_pops h).loc, loc_popStore]

theorem wq_drainOne (c : Nat) (s : State) : (drainOne c s).wq c = (s.wq c).tail := by
  cases h : s.wq c with
  | nil => rw [drainOne_nil h, h, List.tail_nil]
  | cons w rest => rw [(drainOne_pops h).wq, wq_popStore_same, List.tail_cons]

theorem drainN_unseen {s : State} (hq : QueuesRight s) (n c : Nat) : Unseen s (drainN n c s) := by
  induction n generalizing s with
  | zero => exact .of_undisturbed (.refl s) hq
  | succ n ih =>
    have hone := drainOne_unseen hq c
    exact hone.trans (ih hone.queues)

theorem wq_drainN (n c : Nat) (s : State) : (drainN n c s).wq c = (s.wq c).drop n := by
  induction n generalizing s with
  | zero => rfl
  | succ n ih => rw [drainN, ih, wq_drainOne, List.drop_tail]

theorem drainHigh_unseen {s : State} (hq : QueuesRight s) (c : Nat) : Unseen s (drainHigh c s) := by
  unfold drainHigh
  split
  · exact drainN_unseen hq _ c
  · exact .of_undisturbed (.refl s) hq

/-- Settles O57: the drained writes are those that no hold keeps, and a drain is seen by no read. -/
theorem drainIsInvisible : Obligations.DrainIsInvisible := by
  intro t d s s' hawake hq htrained hreads h45 h46 hexec
  have htime := Unseen.of_undisturbed (atTime_undisturbed t s) hq
  have hdrain := htime.trans (drainN_unseen htime.queues ((atTime t s).drainable d) d)
  have hrow : exec (.writeDrain t d) s = execWriteDrain t d s := rfl
  have hready : (atTime t s).trained ∧ (atTime t s).readWaits d = false := ⟨htrained, hreads⟩
  have hsram : reads [12] (drainN ((atTime t s).drainable d) d (atTime t s)) = drainN ((atTime t s).drainable d) d (atTime t s) := by
    refine reads_unarmed fun g hg => ?_
    rw [List.mem_singleton.mp hg, armedFor, armedFor, hdrain.inject]
    exact ⟨h45, h46⟩
  rw [hrow, execWriteDrain, liveReading_next hawake, if_pos hready, hsram] at hexec
  cases hexec
  have hend := conclude_undisturbed (atTime t s) (drainN ((atTime t s).drainable d) d (atTime t s))
  have hall := hdrain.trans (.of_undisturbed hend hdrain.queues)
  refine ⟨fun hfree => ?_, hall.bytes, hall.queues, hall.flash, hall.stage⟩
  have hlen : (atTime t s).drainable d = (s.wq d).length := by
    have htake : ((atTime t s).wq d).takeWhile (fun w => !(atTime t s).dqsHeld ((atTime t s).loc w.addr)) = (atTime t s).wq d :=
      List.takeWhile_eq_self_iff.mpr fun w hw => by rw [(atTime_undisturbed t s).loc, hfree w hw, Bool.not_false]
    rw [State.drainable, htake]
    rfl
  rw [hend.wq, wq_drainN, hlen]
  exact List.drop_length

end Sys2Proof.Machine
end

section
/-!
PROOFS. A write of a whole burst (R319, R320, R338): it is accepted at the end of its queue, and its bytes stand before those stored.
-/
namespace Sys2Proof.Machine
open Sys2Proof.Claim

/-- A write at the end of its DIMM channel's queue. -/
def pushWrite (req a : Nat) (bs : List Byte) (s : State) : State :=
  let c := (s.loc a).c
  { s with dram := { s.dram with queues := nset [] s.dram.queues c (s.wq c ++ [{ addr := burstOf a, req := req, data := bs }]) } }

section
variable (req : Nat) {a : Nat} {bs : List Byte} {s : State}

theorem loc_pushWrite (x : Nat) : (pushWrite req a bs s).loc x = s.loc x := rfl

theorem wq_pushWrite_same : (pushWrite req a bs s).wq (s.loc a).c = s.wq (s.loc a).c ++ [{ addr := burstOf a, req := req, data := bs }] :=
  mapGet_mapSet_same _ _ _ _ _

theorem wq_pushWrite_ne {c : Nat} (h : (s.loc a).c ≠ c) : (pushWrite req a bs s).wq c = s.wq c := mapGet_mapSet_ne _ _ _ _ h

theorem queuesRight_pushWrite (hlen : bs.length = 64) (hq : QueuesRight s) : QueuesRight (pushWrite req a bs s) := by
  intro c x hx
  rw [loc_pushWrite]
  by_cases hc : (s.loc a).c = c
  · subst hc
    rw [wq_pushWrite_same, List.mem_append, List.mem_singleton] at hx
    rcases hx with hx | rfl
    · exact hq _ x hx
    · exact ⟨loc_burstOf_c s a, burstOf_aligned a, .inl hlen⟩
  · rw [wq_pushWrite_ne req hc] at hx
    exact hq c x hx

/-- The bytes of the burst read as the write gave them. -/
theorem dramByte_pushWrite_same {x : Nat} (h : burstOf x = burstOf a) : (pushWrite req a bs s).dramByte x = bs.getD (x % 64) 0 := by
  have hc : (s.loc x).c = (s.loc a).c := by rw [← loc_burstOf_c, h, loc_burstOf_c]
  simp only [State.dramByte, State.queued, loc_pushWrite, hc, wq_pushWrite_same, List.filter_append, h]
  simp

theorem dramByte_pushWrite_ne {x : Nat} (h : burstOf x ≠ burstOf a) : (pushWrite req a bs s).dramByte x = s.dramByte x := by
  simp only [State.dramByte, State.queued, loc_pushWrite]
  by_cases hc : (s.loc a).c = (s.loc x).c
  · rw [← hc, wq_pushWrite_same, List.filter_append, List.filter_cons_of_neg (by simpa using h.symm), List.filter_nil, List.append_nil]
    rfl
  · rw [wq_pushWrite_ne req hc]
    rfl

end

/-- What a write of a whole burst leaves for reads: its bytes, and every other byte as it was. -/
structure Written (a : Nat) (bs : List Byte) (s s' : State) : Prop where
  inside : ∀ x, burstOf x = burstOf a → s'.dramByte x = bs.getD (x % 64) 0
  outside : ∀ x, burstOf x ≠ burstOf a → s'.dramByte x = s.dramByte x
  queues : QueuesRight s'
  flash : s'.flash = s.flash
  stage : s'.stage = s.stage

namespace Written
variable {a : Nat} {bs : List Byte} {s s' s'' : State}

theorem after (h : Unseen s s') (h' : Written a bs s' s'') : Written a bs s s'' :=
  ⟨h'.inside, fun x hx => (h'.outside x hx).trans (h.bytes x), h'.queues, h'.flash.trans h.flash, h'.stage.trans h.stage⟩

theorem before (h : Written a bs s s') (h' : Unseen s' s'') : Written a bs s s'' :=
  ⟨fun x hx => (h'.bytes x).trans (h.inside x hx), fun x hx => (h'.bytes x).trans (h.outside x hx), h'.queues, h'.flash.trans h.flash,
    h'.stage.trans h.stage⟩

end Written

theorem pushWrite_written (req : Nat) {a : Nat} {bs : List Byte} {s : State} (hlen : bs.length = 64) (hq : QueuesRight s) :
    Written a bs s (pushWrite req a bs s) :=
  ⟨fun _ => dramByte_pushWrite_same req, fun _ => dramByte_pushWrite_ne req, queuesRight_pushWrite req hlen hq, rfl, rfl⟩

/-- The room that a full queue makes for a write (R319). -/
def makeRoomFor (a : Nat) (s : State) : State :=
  if 64 ≤ ((noteUse a s).wq (s.loc a).c).length then drainOne (s.loc a).c (noteUse a s) else noteUse a s

theorem makeRoomFor_unseen (a : Nat) {s : State} (hq : QueuesRight s) : Unseen s (makeRoomFor a s) := by
  have huse := Unseen.of_undisturbed (noteUse_undisturbed a s) hq
  unfold makeRoomFor
  split
  · exact huse.trans (drainOne_unseen huse.queues _)
  · exact huse

theorem loc_makeRoomFor (a x : Nat) (s : State) : (makeRoomFor a s).loc x = s.loc x := by
  unfold makeRoomFor
  split
  · rw [loc_drainOne, (noteUse_undisturbed a s).loc]
  · exact (noteUse_undisturbed a s).loc x

theorem queueWrite_eq (req a : Nat) (bs : List Byte) (s : State) :
    queueWrite req a bs s = drainHigh (s.loc a).c (pushWrite req a bs (makeRoomFor a s)) := by
  simp only [pushWrite, loc_makeRoomFor]
  rfl

theorem queueWrite_written (req : Nat) {a : Nat} {bs : List Byte} {s : State} (hlen : bs.length = 64) (hq : QueuesRight s) :
    Written a bs s (queueWrite req a bs s) := by
  have hroom := makeRoomFor_unseen a hq
  have hpush := pushWrite_written req (a := a) hlen hroom.queues
  rw [queueWrite_eq]
  exact (hpush.after hroom).before (drainHigh_unseen hpush.queues _)

theorem showPoison_undisturbed (s : State) : Undisturbed s (showPoison s) := put_undisturbed s R.eccPoisonstat_ENTRIES _ _ _ (by decide)

theorem showTracker_undisturbed (s : State) : Undisturbed s (showTracker s) := put_undisturbed s R.eccTrkstat_ENTRIES _ _ _ (by decide)

theorem untrack_undisturbed (a : Nat) (s : State) : Undisturbed s (untrack a s) := by
  unfold untrack
  refine .trans ?_ (showTracker_undisturbed _)
  exact dram_undisturbed s _ rfl

theorem enqueue_undisturbed (req a : Nat) (bs : List Byte) (s : State) : Undisturbed (queueWrite req a bs s) (enqueue req a bs s) := by
  unfold enqueue
  refine .trans ?_ (untrack_undisturbed a _)
  refine .trans ?_ (showPoison_undisturbed _)
  exact dram_undisturbed _ _ rfl

/-- A write of a whole burst leaves its burst out of the poison table (R338). -/
theorem poisonOf_enqueue (req a : Nat) (bs : List Byte) (s : State) : (enqueue req a bs s).poisonOf a = none := by
  have hpoison : (enqueue req a bs s).dram.poison = (queueWrite req a bs s).dram.poison.filter fun e => decide (e.2.addr ≠ burstOf a) := rfl
  rw [State.poisonOf, hpoison, List.find?_eq_none]
  intro e he
  have hne := (List.mem_filter.mp he).2
  simpa using hne

/-- One burst, in one piece. -/
theorem splitWrite_burst {a : Nat} {bs : List Byte} (ha : a % 64 = 0) (hlen : bs.length = 64) :
    splitWrite (bs.length / 64 + 2) a bs = [(a, 0, bs)] := by
  obtain ⟨b, rest, rfl⟩ := List.exists_cons_of_length_pos (l := bs) (by omega)
  rw [hlen]
  simp only [splitWrite, ha, burstOf_of_aligned ha, Nat.sub_zero]
  rw [List.take_of_length_le (by omega), List.drop_of_length_le (by omega)]
  rfl

/-- The waiting reads of a requester that has none. -/
theorem serveOwn_none {fuel req : Nat} {s : State} (h : ∀ e ∈ s.dram.reads, e.1.req.val ≠ req) : serveOwn fuel req s = s := by
  cases fuel with
  | zero => rfl
  | succ fuel =>
    have hfind : s.dram.reads.find? (fun e => decide (e.1.req.val = req)) = none := List.find?_eq_none.mpr fun e he => by simpa using h e he
    rw [serveOwn, hfind]

/-- A write of a whole burst by a requester none of whose reads waits. -/
theorem dramWrite_burst {req a : Nat} {bs : List Byte} {s : State} (ha : a % 64 = 0) (hlen : bs.length = 64) (htrained : s.trained = true)
    (hres : s.reservedAddr a = false) (hreads : ∀ e ∈ s.dram.reads, e.1.req.val ≠ req) :
    dramWrite req a bs s = enqueue req a bs (takeTurn req (s.loc a).c s) := by
  rw [dramWrite, splitWrite_burst ha hlen]
  simp [forEach, writeBurst, htrained, hres, serveOwn_none hreads, hlen]

/-- Settles O56: the write is pushed onto its queue, before and after which the queue may drain. -/
theorem burstWriteStores : Obligations.BurstWriteStores := by
  intro t req addr data s s' hawake hq htrained ha hlen hdram hres hreads hexec
  have hrow : exec (.dramWrite t req addr data) s = execDramWrite t req addr data s := rfl
  have hin : (atTime t s).inDram addr data.length = true := by rw [hlen]; exact hdram
  have hown : ∀ e ∈ (atTime t s).dram.reads, e.1.req.val ≠ req := fun e he heq => hreads e he (Fin.ext heq)
  have heff : dramWrite req addr data (atTime t s) = enqueue req addr data (takeTurn req ((atTime t s).loc addr).c (atTime t s)) :=
    dramWrite_burst ha hlen htrained hres hown
  rw [hrow, execDramWrite, live_next hawake, if_pos hin, heff] at hexec
  cases hexec
  have htime := Unseen.of_undisturbed ((atTime_undisturbed t s).trans (takeTurn_undisturbed req ((atTime t s).loc addr).c _)) hq
  have hwrite := (queueWrite_written req (a := addr) hlen htime.queues).after htime
  have hall := hwrite.before (.of_undisturbed ((enqueue_undisturbed _ _ _ _).trans (conclude_undisturbed (atTime t s) _)) hwrite.queues)
  have hburst : burstOf addr = addr := burstOf_of_aligned ha
  refine ⟨fun i hi => ?_, fun a hout => ?_, ?_, hall.queues, hall.flash, hall.stage⟩
  · rw [hall.inside _ (by unfold burstOf; omega), show (addr + i) % 64 = i by omega]
  · exact hall.outside a (by unfold burstOf; omega)
  · rw [State.poisonOf, conclude_dram]
    exact poisonOf_enqueue _ _ _ _

end Sys2Proof.Machine
end

section
/-!
PROOFS. The read that a DIMM channel chooses (R318): it is answered from the queue (R320), or ends as a bus error where its burst is poisoned (R335).
-/
namespace Sys2Proof.Machine
open Sys2Proof.Claim

/-! Reads that join those that wait change nothing that an answer depends on. -/

/-- `s'` is `s` but for which reads wait, which have had their turn, and when requests were noted. -/
structure SameStore (s s' : State) : Prop where
  undisturbed : Undisturbed s s'
  capacity : s'.capacity = s.capacity
  poison : s'.dram.poison = s.dram.poison

namespace SameStore
variable {s s' s'' : State}

theorem refl (s : State) : SameStore s s := ⟨.refl s, rfl, rfl⟩

theorem trans (h : SameStore s s') (h' : SameStore s' s'') : SameStore s s'' :=
  ⟨h.undisturbed.trans h'.undisturbed, h'.capacity.trans h.capacity, h'.poison.trans h.poison⟩

theorem trained (h : SameStore s s') : s'.trained = s.trained := by
  unfold State.trained State.flag State.get
  rw [h.undisturbed.cfg]

theorem regions (h : SameStore s s') : s'.regions = s.regions := by
  unfold State.regions State.big
  rw [h.capacity]

theorem reservedAddr (h : SameStore s s') (a : Nat) : s'.reservedAddr a = s.reservedAddr a := by
  unfold State.reservedAddr State.regionBase
  rw [h.regions]

theorem poisonOf (h : SameStore s s') (a : Nat) : s'.poisonOf a = s.poisonOf a := by rw [State.poisonOf, State.poisonOf, h.poison]

end SameStore

theorem readsJoin_sameStore (made : List ReadReq) (s : State) : SameStore s (readsJoin made s) := by
  induction made generalizing s with
  | nil => exact .refl s
  | cons r made ih =>
    refine SameStore.trans (s' := noteUse r.addr (s.setDram { s.dram with reads := s.dram.reads ++ [(r, s.now)] })) ⟨?_, rfl, rfl⟩ (ih _)
    refine .trans ?_ (noteUse_undisturbed _ _)
    exact dram_undisturbed s _ rfl

theorem readTaken_sameStore (d : Dimm) (c : Nat) (e : ReadReq × Nat) (s : State) : SameStore s (readTaken d c e s) := by
  refine ⟨?_, rfl, rfl⟩
  exact dram_undisturbed s _ rfl

/-! The choice (R318, R324). -/

theorem nextRead_mem {s : State} {d : Nat} {x : Nat × ReadReq × Nat} (h : s.nextRead d = some x) : x ∈ s.choices d := by
  simp only [State.nextRead] at h
  split at h
  · cases h
  · exact (List.mem_filter.mp (List.mem_of_find?_eq_some h)).1

/-- A read that is chosen is for the channel that chooses it, and its requester is admitted now. -/
theorem admitted_of_nextRead {s : State} {d c : Nat} {e : ReadReq × Nat} (h : s.nextRead d = some (c, e)) :
    (s.loc e.1.addr).c = d ∧ s.admitAt e.1.req d = s.now := by
  obtain ⟨x, hx, hxe⟩ := List.mem_map.mp (nextRead_mem h)
  obtain rfl : x = e := (Prod.mk.inj hxe).2
  have hchoice := (List.mem_filter.mp hx).2
  simp only [Bool.and_eq_true, decide_eq_true_eq] at hchoice
  obtain ⟨⟨hchan, hle⟩, -⟩ := hchoice
  refine ⟨hchan, Nat.le_antisymm hle ?_⟩
  unfold State.admitAt
  split
  · exact Nat.le_max_left _ _
  · exact Nat.le_refl _

theorem claimTurn_chosen {s : State} {d : Dimm} {c : Nat} {e : ReadReq × Nat} (h : s.nextRead d = some (c, e)) :
    claimTurn c e s = readTaken d c e s := by
  obtain ⟨hchan, hadmit⟩ := admitted_of_nextRead h
  have hadmit' (r : List (ReadReq × Nat)) (u : List (Nat × Nat)) :
      State.admitAt { s with dram := { s.dram with reads := r, turns := u } } e.1.req d = s.now := hadmit
  simp only [claimTurn, takeTurn, hchan, hadmit']
  rfl

/-! What the chosen read gives. -/

section
variable {req cause a : Nat} {s : State}

theorem readChosen_queued {w : QWrite} (ht : s.trained = true) (hres : s.reservedAddr a = false) (hw : s.queued a = some w) :
    readChosen req cause a s = (some (w.data.take 64), noteUse a s) := by
  simp [readChosen, ht, hres, hw]

theorem readChosen_poisoned (ht : s.trained = true) (hres : s.reservedAddr a = false) (hw : s.queued a = none)
    (hp : (s.poisonOf a).isSome = true) : readChosen req cause a s = (none, s) := by
  simp [readChosen, ht, hres, hw, hp]

end

/-- The reads made of DRAM that is trained, within its capacity, join those that wait (R313, R318). -/
theorem forEach_served {made : List ReadReq} {u : State} (htrained : u.trained = true)
    (hmade : ∀ r ∈ made, u.inDram (burstOf r.addr) 64 = true) :
    forEach (made.filter fun r => u.trained && u.inDram (burstOf r.addr) 64)
      (forEach (made.filter fun r => !(u.trained && u.inDram (burstOf r.addr) 64)) u fun r s => s.emit (.burst r.req none))
      (fun r s => noteUse r.addr (s.setDram { s.dram with reads := s.dram.reads ++ [(r, s.now)] })) = readsJoin made u := by
  have hserved : ∀ r ∈ made, (u.trained && u.inDram (burstOf r.addr) 64) = true := fun r hr => by
    rw [htrained, Bool.true_and]
    exact hmade r hr
  have hnone : made.filter (fun r => !(u.trained && u.inDram (burstOf r.addr) 64)) = [] :=
    List.filter_eq_nil_iff.mpr fun r hr => by rw [hserved r hr]; decide
  rw [hnone, List.filter_eq_self.mpr hserved]
  rfl

theorem exec_dramRead {t : Nat} {d : Dimm} {made : List ReadReq} {c : Nat} {e : ReadReq × Nat} {s : State} (hawake : Awake t s)
    (htrained : s.trained = true) (hmade : ∀ r ∈ made, s.inDram (burstOf r.addr) 64 = true)
    (hnext : (readsJoin made (atTime t s)).nextRead d = some (c, e)) :
    exec (.dramRead t d made) s = becomes t s (reads [13, 14] (answerRead c e (readsJoin made (atTime t s)))) := by
  have hrow : exec (.dramRead t d made) s = execDramRead t d made s := rfl
  rw [hrow, execDramRead, liveReading_next hawake, becomes]
  dsimp only
  rw [forEach_served (u := atTime t s) htrained hmade, hnext]

/-- With none of the reads that wait to be served now, those made only join them. -/
theorem exec_dramRead_joins {t : Nat} {d : Dimm} {made : List ReadReq} {s : State} (hawake : Awake t s) (htrained : s.trained = true)
    (hmade : ∀ r ∈ made, s.inDram (burstOf r.addr) 64 = true) (hnext : (readsJoin made (atTime t s)).nextRead d = none) :
    exec (.dramRead t d made) s = becomes t s (reads [13, 14] (readsJoin made (atTime t s))) := by
  have hrow : exec (.dramRead t d made) s = execDramRead t d made s := rfl
  rw [hrow, execDramRead, liveReading_next hawake, becomes]
  dsimp only
  rw [forEach_served (u := atTime t s) htrained hmade, hnext]

/-- Settles O58: the claim of the turn is `readTaken`, and the queue and the poison table are those that the command found. -/
theorem queuedAndPoisonedReads : Obligations.QueuedAndPoisonedReads := by
  intro t d made c e s hawake htrained hmade hnext hres u
  have hstore : SameStore s u := (SameStore.trans ⟨atTime_undisturbed t s, rfl, rfl⟩ (readsJoin_sameStore made _)).trans (readTaken_sameStore d c e _)
  have htrained' : u.trained = true := hstore.trained.trans htrained
  have hres' : u.reservedAddr (burstOf e.1.addr) = false := (hstore.reservedAddr _).trans hres
  have hanswer := exec_dramRead hawake htrained hmade hnext
  rw [answerRead, claimTurn_chosen hnext] at hanswer
  refine ⟨fun w hw => ?_, fun hw hp => ?_⟩
  · rw [hanswer, readChosen_queued htrained' hres' ((hstore.undisturbed.queued _).trans hw)]
  · rw [hanswer, readChosen_poisoned htrained' hres' ((hstore.undisturbed.queued _).trans hw) (by rwa [hstore.poisonOf])]

end Sys2Proof.Machine
end

section
/-!
PROOFS. Writes to DRAM keep the memories in canonical form (log entry 6): the path of a write through the queue, the reads that go before it and the
read-modify-write (R319, R320, R332 to R345).
-/
namespace Sys2Proof.Machine
open Sys2Proof.Claim

/-- The memories are in canonical form and no injection is armed, so that no read of an SRAM stops the job (R352). -/
def Formed (s : State) : Prop := s.memWf ∧ s.inject = none

theorem Formed.undisturbed {s s' : State} (hf : Formed s) (h : Undisturbed s s') : Formed s' := ⟨h.memWf hf.1, h.inject.trans hf.2⟩

theorem armedFor_none {s : State} (h : s.inject = none) (id inst : Nat) : armedFor id inst s = false := by simp [armedFor, h]

/-- A read of an SRAM changes nothing without an armed injection. -/
theorem Formed.reads {s : State} (hf : Formed s) (groups : List Nat) : reads groups s = s :=
  reads_unarmed fun _ _ => ⟨armedFor_none hf.2 _ _, armedFor_none hf.2 _ _⟩

theorem Formed.ite {c : Prop} [Decidable c] {s s' : State} (h : Formed s) (h' : Formed s') : Formed (if c then s else s') := by
  split <;> assumption

/-! Queues and drains. -/

theorem storeBurst_formed {s : State} (hf : Formed s) (a : Nat) (bs : List Byte) : Formed (storeBurst a bs s) := by
  obtain ⟨⟨hmem, hchk, hflash, hstage⟩, hinj⟩ := hf
  exact ⟨⟨writeN_wf _ _ _ _ hmem, writeN_wf _ _ _ _ hchk, hflash, hstage⟩, hinj⟩

theorem drainOne_formed {s : State} (hf : Formed s) (c : Nat) : Formed (drainOne c s) := by
  cases h : s.wq c with
  | nil => rwa [drainOne_nil h]
  | cons w rest =>
    have hqueue : Formed (s.setDram { s.dram with queues := nset [] s.dram.queues c rest }) := hf
    exact (storeBurst_formed hqueue w.addr w.data).undisturbed (drainOne_pops h)

theorem drainN_formed {s : State} (hf : Formed s) (n c : Nat) : Formed (drainN n c s) := by
  induction n generalizing s with
  | zero => exact hf
  | succ n ih => exact ih (drainOne_formed hf c)

theorem drainHigh_formed {s : State} (hf : Formed s) (c : Nat) : Formed (drainHigh c s) := by
  unfold drainHigh
  split
  · exact drainN_formed hf _ c
  · exact hf

theorem makeRoomFor_formed {s : State} (hf : Formed s) (a : Nat) : Formed (makeRoomFor a s) := by
  have huse := hf.undisturbed (noteUse_undisturbed a s)
  unfold makeRoomFor
  split
  · exact drainOne_formed huse _
  · exact huse

theorem queueWrite_formed {s : State} (hf : Formed s) (req a : Nat) (bs : List Byte) : Formed (queueWrite req a bs s) := by
  have hpush : Formed (pushWrite req a bs (makeRoomFor a s)) := makeRoomFor_formed hf a
  rw [queueWrite_eq]
  exact drainHigh_formed hpush _

theorem enqueue_formed {s : State} (hf : Formed s) (req a : Nat) (bs : List Byte) : Formed (enqueue req a bs s) :=
  (queueWrite_formed hf req a bs).undisturbed (enqueue_undisturbed req a bs s)

/-! The code's bookkeeping: devices, the tracker and the poison table (R335 to R349). -/

theorem eraseEn_ne_cfg (sub : Nat) : (eraseEn sub).k ≠ .dmcCfg := by simp [eraseEn_kind]
theorem eraseDev_ne_cfg (sub : Nat) : (eraseDev sub).k ≠ .dmcCfg := by simp [eraseDev_kind]

theorem judgeDevice_undisturbed (l : DramLoc) (n : Nat) (s : State) : Undisturbed s (judgeDevice l n s) := by
  simp only [judgeDevice]
  refine .ite (.refl s) (.ite (.ite (.refl s) ?_) ?_)
  · refine .trans ?_ (raise_undisturbed _ _ _ _ _ _)
    exact dram_undisturbed s _ rfl
  · refine .trans ?_ (raise_undisturbed _ _ _ _ _ _)
    refine .trans ?_ (put_undisturbed _ _ _ _ _ (eraseEn_ne_cfg _))
    exact put_undisturbed s _ _ _ _ (eraseDev_ne_cfg _)

theorem countDevice_undisturbed (l : DramLoc) (n k : Nat) (s : State) : Undisturbed s (countDevice l n k s) :=
  (bump_undisturbed s R.eccDev_COUNT _ _ _ (by decide)).trans (judgeDevice_undisturbed l n _)

theorem trackCorrected_undisturbed (a : Nat) (dev : List (Nat × Nat)) (s : State) : Undisturbed s (trackCorrected a dev s) := by
  simp only [trackCorrected]
  split
  · refine .ite ?_ ?_
    · refine .trans ?_ (untrack_undisturbed a _)
      refine .trans ?_ (raise_undisturbed _ _ _ _ _ _)
      exact (bump_undisturbed s R.eccDev_HARD _ _ _ (by decide)).trans (countDevice_undisturbed _ _ _ _)
    · refine .trans ?_ (showTracker_undisturbed _)
      exact dram_undisturbed s _ rfl
  · split
    · exact .refl s
    · refine .trans ?_ (showTracker_undisturbed _)
      exact dram_undisturbed s _ rfl

theorem event_undisturbed (code subject : Nat) (ws : List Nat) (s : State) : Undisturbed s (event code subject ws s) :=
  .of_frames (event_frames code subject ws s) (by decide)

theorem poisonBurst_undisturbed (cause req a : Nat) (s : State) : Undisturbed s (poisonBurst cause req a s) := by
  simp only [poisonBurst]
  refine .ite (.refl s) (.ite ?_ ?_)
  · exact (bump_undisturbed s R.eccPoisonstat_OVERFLOW _ _ _ (by decide)).trans (raise_undisturbed _ _ _ _ _ _)
  · refine .trans ?_ (event_undisturbed _ _ _ _)
    refine .trans ?_ (showPoison_undisturbed _)
    exact dram_undisturbed s _ rfl

theorem rewriteTracked_formed {s : State} (hf : Formed s) (a : Nat) (w : List Byte) : Formed (rewriteTracked a w s) := by
  simp only [rewriteTracked]
  split
  · split
    · exact hf
    · exact (queueWrite_formed hf _ _ _).undisturbed
        ((bump_undisturbed _ R.eccTrkstat_REWRITES 0 0 1 (by decide)).trans (dram_undisturbed _ _ rfl))
  · exact hf

/-- Without an armed injection a word is received as it is stored (R427). -/
theorem decodeRead_undisturbed {s : State} (h : s.inject = none) (a : Nat) : Undisturbed s (decodeRead a s).2.2 := by
  simp only [decodeRead, receiveWord, armedFor_none h]
  split
  · exact tally_undisturbed s _ _ _
  · exact .ite (tally_undisturbed s _ _ _) ((tally_undisturbed s _ _ _).trans (tally_undisturbed _ _ _ _))

/-! Reads. -/

theorem readChosen_formed {s : State} (hf : Formed s) (req cause a : Nat) : Formed (readChosen req cause a s).2 := by
  have hissue := hf.undisturbed (issue_none_undisturbed req a s)
  have hdec := hissue.undisturbed (decodeRead_undisturbed hissue.2 a)
  simp only [readChosen]
  split
  · exact hf
  split
  · exact hf.undisturbed (raise_undisturbed _ _ _ _ _ _)
  split
  · exact hf.undisturbed (noteUse_undisturbed a s)
  split
  · exact hf
  split
  · exact hdec.undisturbed <| (bump_undisturbed _ R.eccUncorr_COUNT 0 0 1 (by decide)).trans <|
      (raise_undisturbed _ _ _ _ _ _).trans (poisonBurst_undisturbed _ _ _ _)
  · split
    · split
      · exact hdec.undisturbed (untrack_undisturbed a _)
      · exact hdec
    · exact hdec
  · refine rewriteTracked_formed (hdec.undisturbed ?_) a _
    exact (bump_undisturbed _ R.eccCorr_COUNT 0 0 1 (by decide)).trans <| (raise_undisturbed _ _ _ _ _ _).trans
      (trackCorrected_undisturbed _ _ _)

theorem claimTurn_undisturbed (c : Nat) (e : ReadReq × Nat) (s : State) : Undisturbed s (claimTurn c e s) := by
  unfold claimTurn
  refine .trans ?_ (takeTurn_undisturbed _ _ _)
  exact dram_undisturbed s _ rfl

theorem answerRead_formed {s : State} (hf : Formed s) (c : Nat) (e : ReadReq × Nat) : Formed (answerRead c e s) :=
  readChosen_formed (hf.undisturbed (claimTurn_undisturbed c e s)) _ _ _

theorem serveBefore_formed (fuel : Nat) (e : ReadReq × Nat) {s : State} (hf : Formed s) : Formed (serveBefore fuel e s) := by
  induction fuel generalizing s with
  | zero => exact hf.undisturbed (claimTurn_undisturbed _ e s)
  | succ fuel ih =>
    simp only [serveBefore]
    split
    · exact hf
    · split
      · split
        · exact hf.undisturbed (claimTurn_undisturbed _ e s)
        · exact ih (answerRead_formed hf _ _)
      · split
        · exact hf.undisturbed (claimTurn_undisturbed _ e s)
        · exact ih (answerRead_formed hf _ _)

theorem awaitTurn_formed {s : State} (hf : Formed s) (redec : Bool) (req a : Nat) : Formed (awaitTurn redec req a s) := by
  simp only [awaitTurn]
  split
  · exact hf.undisturbed (takeTurn_undisturbed _ _ _)
  · exact serveBefore_formed _ _ (hf.undisturbed (dram_undisturbed s _ rfl))

theorem serveOwn_formed (fuel req : Nat) {s : State} (hf : Formed s) : Formed (serveOwn fuel req s) := by
  induction fuel generalizing s with
  | zero => exact hf
  | succ fuel ih =>
    simp only [serveOwn]
    split
    · exact hf
    · exact ih (answerRead_formed hf _ _)

/-! Writes. -/

theorem narrowBurst_formed {s : State} (hf : Formed s) (req b off : Nat) (bs : List Byte) : Formed (narrowBurst req b off bs s) := by
  have hturn := awaitTurn_formed (hf.undisturbed (tally_undisturbed s 0x0203 (s.loc b).c 1)) false req b
  have hissue := hturn.undisturbed (issue_none_undisturbed req b _)
  have hdec := hissue.undisturbed (decodeRead_undisturbed hissue.2 b)
  simp only [narrowBurst]
  split
  · refine Formed.undisturbed ?_ (untrack_undisturbed b _)
    exact hf
  split
  · exact hf.undisturbed (raise_undisturbed _ _ _ _ _ _)
  split
  · exact hdec.undisturbed <| (bump_undisturbed _ R.eccUncorr_COUNT 0 0 1 (by decide)).trans <| (raise_undisturbed _ _ _ _ _ _).trans <|
      (raise_undisturbed _ _ _ _ _ _).trans (poisonBurst_undisturbed _ _ _ _)
  · refine enqueue_formed ?_ req b _
    split
    · exact hdec
    · exact hdec.undisturbed <| (bump_undisturbed _ R.eccCorr_COUNT 0 0 1 (by decide)).trans <| (raise_undisturbed _ _ _ _ _ _).trans
        (trackCorrected_undisturbed _ _ _)

theorem writeBurst_formed {s : State} (hf : Formed s) (req b off : Nat) (bs : List Byte) : Formed (writeBurst req b off bs s) := by
  have hown := serveOwn_formed s.dram.reads.length req hf
  simp only [writeBurst]
  split
  · exact hf
  split
  · exact hf.undisturbed (raise_undisturbed _ _ _ _ _ _)
  split
  · exact enqueue_formed (hown.undisturbed (takeTurn_undisturbed _ _ _)) _ _ _
  · exact narrowBurst_formed hown _ _ _ _

theorem forEach_formed {α : Type} {f : α → State → State} (h : ∀ a s, Formed s → Formed (f a s)) (l : List α) {s : State} (hf : Formed s) :
    Formed (forEach l s f) := by
  induction l generalizing s with
  | nil => exact hf
  | cons a l ih => exact ih (h a s hf)

theorem dramWrite_formed {s : State} (hf : Formed s) (req a : Nat) (bs : List Byte) : Formed (dramWrite req a bs s) :=
  forEach_formed (fun e _ hs => writeBurst_formed hs req e.1 e.2.1 e.2.2) _ hf

/-! The windows of BAR0 (R66, R446). -/

theorem hostViolation_undisturbed (off : Nat) (s : State) : Undisturbed s (hostViolation off s) :=
  (bump_undisturbed s R.glbHostviol_COUNT 0 0 1 (by decide)).trans <| (put_undisturbed _ R.glbHostviol_OFFSET _ 0 0 (by decide)).trans <|
    (put_undisturbed _ R.glbHostviol_VALID _ 0 0 (by decide)).trans (raise_undisturbed _ _ _ _ _ _)

theorem setStage_formed {s : State} (hf : Formed s) (a : Nat) (bs : List Byte) : Formed { s with stage := Memory.writeN 0 s.stage a bs } := by
  obtain ⟨⟨hmem, hchk, hflash, hstage⟩, hinj⟩ := hf
  exact ⟨⟨hmem, hchk, hflash, writeN_wf _ _ _ _ hstage⟩, hinj⟩

theorem setChan_formed {s : State} (hf : Formed s) (ch : Nat) (x : ChanSt) : Formed (s.setChan ch x) := hf

theorem windowWrite_formed {s : State} (hf : Formed s) (m : Master) (off : Nat) (v : Word) : Formed (windowWrite m off v s) := by
  unfold windowWrite
  refine .ite (.ite (setStage_formed hf _ _) hf) ?_
  split
  · exact .ite (hf.undisturbed (hostViolation_undisturbed _ _)) (.ite (setChan_formed hf _ _) (setChan_formed hf _ _))
  · exact hf

theorem windowAccess_formed {s : State} (hf : Formed s) (m : Master) (off : Nat) (v : Word) : Formed (windowAccess m off v s) := by
  simp only [windowAccess, gated]
  split
  · exact hf
  split
  · exact windowWrite_formed hf m off v
  split
  · exact hf
  split
  · exact hf.undisturbed (hostViolation_undisturbed _ _)
  · exact windowWrite_formed hf m off v

/-! The storing rows. -/

section
variable {t : Nat} {s s' : State}

/-- An effect that keeps the form, and what ends the command after it. -/
theorem live_memWf {f : State → State} (hf : Formed s) (hawake : Awake t s) (h : ∀ u, Formed u → Formed (f u)) (hexec : live t s f = .next s') :
    s'.memWf := by
  rw [live_next hawake] at hexec
  cases hexec
  exact (conclude_undisturbed _ _).memWf (h _ (hf.undisturbed (atTime_undisturbed t s))).1

theorem liveReading_memWf {groups : List Nat} {f : State → State} (hf : Formed s) (hawake : Awake t s) (h : ∀ u, Formed u → Formed (f u))
    (hexec : liveReading groups t s f = .next s') : s'.memWf :=
  live_memWf hf hawake (fun u hu => by rw [(h u hu).reads]; exact h u hu) hexec

end

theorem logUnsupported_undisturbed (off len : Nat) (s : State) : Undisturbed s (logUnsupported off len s) := by
  unfold logUnsupported
  refine .trans ?_ (raise_undisturbed _ _ _ _ _ _)
  exact ⟨rfl, rfl, rfl, rfl, rfl, rfl, rfl⟩

/-- Settles O59, row by row. -/
theorem storingRowsKeepForm : Obligations.StoringRowsKeepForm := by
  intro t s s' hwf hawake hinj
  have hf : Formed s := ⟨hwf, hinj⟩
  refine ⟨fun req addr data h => ?_, fun req addr bytes h => ?_, fun d h => ?_, fun addr bytes h => ?_, fun m off v h => ?_⟩
  · simp only [exec, execDramWrite] at h
    exact live_memWf hf hawake (fun u hu => .ite (dramWrite_formed hu req addr data) hu) h
  · simp only [exec, execNarrowWrite] at h
    exact liveReading_memWf hf hawake (fun u hu => .ite (dramWrite_formed hu req addr bytes) hu) h
  · simp only [exec, execWriteDrain] at h
    exact liveReading_memWf hf hawake (fun u hu => .ite (drainN_formed hu (u.drainable d) d) hu) h
  · simp only [exec, execBar2Write] at h
    refine liveReading_memWf hf hawake (fun u hu => .ite hu (.ite (hu.undisturbed (logUnsupported_undisturbed addr bytes.length u)) ?_)) h
    exact dramWrite_formed (hu.undisturbed (tally_undisturbed u _ _ _)) 5 addr bytes
  · simp only [exec, execSramWindowWrite, liveWrite] at h
    refine live_memWf hf hawake (fun u hu => ?_) h
    have hwritten : Formed (if m = .host then u.tally 0x0601 0 4 else u) := .ite (hu.undisturbed (tally_undisturbed u _ _ _)) hu
    exact .ite hwritten (windowAccess_formed hwritten m off v)

end Sys2Proof.Machine
end

section
/-!
PROOFS. The staging buffer takes no write of a debug port that R67 keeps from the SRAMs (log entry 75).
-/
namespace Sys2Proof.Machine
open Sys2Proof.Claim

/-- A debug port without direct SRAM access changes nothing through a window, the staging buffer included (R67). -/
theorem windowAccess_debug {s : State} (h : debugSram s = false) (off : Nat) (v : Word) : windowAccess .debug off v s = s := by
  rw [windowAccess, if_pos ⟨rfl, h⟩]

/-- A device out of internal reset, before boot has trained DRAM, in the life-cycle state FIELD and without a token: the staging buffer is in
use, and the debug port has no access to it. -/
def fieldState : State :=
  { State.reset with boot := { State.reset.boot with inReset := false }, otp := { State.reset.otp with lc := .field } }

/-- Refutes O60: the first clause names every master but the fabric proxy, and the debug port writes the staging buffer only where R67 permits it; in
FIELD its write of 1 leaves the word 0. -/
theorem not_stagingAndFlashWrites : ¬ Obligations.StagingAndFlashWrites := by
  intro h
  obtain ⟨hwindow, -⟩ := h
  have hexec : exec (.sramWindowWrite 0 .debug 0x300000 1) fieldState = .next (conclude (atTime 0 fieldState) (atTime 0 fieldState)) := by
    have hno : debugSram (atTime 0 fieldState) = false := by decide
    have hrow : exec (.sramWindowWrite 0 .debug 0x300000 1) fieldState = execSramWindowWrite 0 .debug 0x300000 1 fieldState := rfl
    rw [hrow, execSramWindowWrite, liveWrite_next (by decide), if_neg (by decide), if_neg (by decide), windowAccess_debug hno]
  obtain ⟨hword, -⟩ := hwindow 0 .debug 0x300000 1 fieldState _ (by decide) (by decide) (by decide) (by decide) (by decide) (by decide) hexec
  rw [conclude_stage] at hword
  exact absurd hword (by decide)

end Sys2Proof.Machine
end

section
/-!
PROOFS. A command that is taken and passes its own tests ends with what its action answers; a completion ends with what it does to its open command.
-/
namespace Sys2Proof.Machine
open Sys2Proof.Claim

section
variable {r : OpRow} {own : Cmd → State → Option (Nat × Nat)} {act : Cmd → State → Reply} {t : Nat} {c : Cmd} {s : State}

theorem command_ends (h : Taken r t c s) (hown : own c (atTime t s) = none) :
    command t c s (runCommand r own act) = ends t s (answer r.op c (act c (atTime t s))) :=
  command_taken h.1 h.2.1 h.2.2 hown

/-- A command whose action gives a reply is answered with it (R94). -/
theorem command_answers {x : Reply} (h : Taken r t c s) (hown : own c (atTime t s) = none) (hact : act c (atTime t s) = x) (hwait : x.wait = false) :
    command t c s (runCommand r own act) = ends t s (respond r.op c x.status x.detail x.words x.s) := by
  rw [command_ends h hown, hact, answer, if_neg (by simp [hwait])]

end

theorem completion_completes {t op : Nat} {q : Queue} {s : State} {f : OpenCmd → State → State} {o : OpenCmd} (h : Open op q o t s) :
    completion t op q s f = completes t s (f o (atTime t s)) := completion_open h.1 h.2

theorem live_becomes {t : Nat} {s : State} {f : State → State} (h : Awake t s) : live t s f = becomes t s (f (atTime t s)) := live_next h

theorem liveReading_becomes {groups : List Nat} {t : Nat} {s : State} {f : State → State} (h : Awake t s) :
    liveReading groups t s f = becomes t s (reads groups (f (atTime t s))) := liveReading_next h

theorem always_becomes {t : Nat} {s : State} {f : State → State} : always t s f = becomes t s (f (atTime t s)) := rfl

/-! The first of several tests that fails. -/

theorem firstFail_none {α : Type} {l : List (Bool × α)} : firstFail l = none ↔ ∀ e ∈ l, e.1 = false := by
  induction l with
  | nil => simp [firstFail]
  | cons e l ih => cases h : e.1 <;> simp [firstFail, h, ih]

end Sys2Proof.Machine
end

section
/-!
PROOFS. The commands of group 0x01 that ask and set (R52, R96, R101, R102), and the memory map.
-/
namespace Sys2Proof.Machine
open Sys2Proof.Claim

/-- The job's ID, 0 without a job, among the words of `GET_STATE`. -/
theorem getStateAct_words (c : Cmd) (s : State) : getStateAct c s =
    { words := [s.dev.code, (s.job.map fun j => j.id.toNat).getD 0] ++ twoWords (wrapInt 64 s.fire) ++ twoWords (pendingLine s), s := s } := by
  unfold getStateAct
  cases s.job <;> rfl

/-- Settles O1: each clause is the row's action. -/
theorem systemCommandsComplete : Obligations.SystemCommandsComplete := by
  refine ⟨fun t c s h => ?_, fun t c s h => ?_, fun t c s h hcold => ?_, fun t c s h => ?_, fun t c s h hty => ?_, fun t c s h hbase hbusy => ?_,
    fun t c s h => ?_⟩
  · exact command_ends (own := noFail) (act := identifyAct) h rfl
  · simp only [exec, execGetState, getStateRow]
    rw [command_ends h rfl, getStateAct_words]
    rfl
  · exact command_ends (act := sysResetAct) h (if_neg (by omega))
  · exact command_ends (own := noFail) (act := eventMaskAct) h rfl
  · exact command_ends (act := imgInfoAct) h (if_pos hty)
  · have hown : bundleApplyFail c (atTime t s) = none := firstFail_none.mpr (by simp [hbase, hbusy])
    exact command_ends (act := bundleApplyAct) h hown
  · exact command_ends (own := noFail) (act := memMapAct) h rfl

end Sys2Proof.Machine
end

section
/-!
PROOFS. Commands that move bytes to or from flash and OTP (R60, R66, R68, R69, R101, R102, R105, R108).
-/
namespace Sys2Proof.Machine
open Sys2Proof.Claim

/-- Settles O2. -/
theorem flashCommandsComplete : Obligations.FlashCommandsComplete := by
  refine ⟨fun t c s h hown => ?_, fun t c s bs v h hown hfetch hcrc => ?_, fun t c s bs v h hown hfetch hcrc => ?_,
    fun t c s h hown hheld hspace => ?_, fun t c s h hown hheld => ?_, fun t q o s bs v w h hbytes hclaim => ?_, fun t q o s h => ?_⟩
  · simp only [exec, execLogRead, logReadRow]
    rw [command_ends h hown, logReadAct]
    cases (logSource (cmdNat c 1) (cmdNat c 2) (cmdNat c 3) (atTime t s)).1 <;> rfl
  · simp only [exec, execUnlock, unlockRow]
    rw [command_ends h hown, unlockAct, hfetch]
    dsimp only
    rw [if_neg (not_not.mpr hcrc)]
    cases tokenScope bs (doneWith (cmdDword c 1) (cmdNat c 3) v) <;> rfl
  · simp only [exec, execLifecycle, lifecycleRow]
    rw [command_ends h hown, lifecycleAct, hfetch]
    dsimp only
    rw [if_neg (not_not.mpr hcrc)]
    cases Config.lifecycleTarget bs (doneWith (cmdDword c 1) (cmdNat c 3) v).otp.uid with
    | none => rfl
    | some k =>
      dsimp only [Option.bind_eq_bind, Option.bind_some, Option.pure_def, Option.map_some]
      split <;> rfl
  · simp only [exec, execImgWrite, imgWriteRow]
    rw [command_ends h hown, imgWriteAct, if_neg (show (atTime t s).dev ≠ .held from hheld)]
    simp only [hspace, false_and, if_false]
    rfl
  · simp only [exec, execImgWrite, imgWriteRow]
    rw [command_ends h hown, imgWriteAct, if_pos (show (atTime t s).dev = .held from hheld)]
    rfl
  · simp only [exec, execImgWriteDone]
    rw [completion_completes h]
    refine congrArg (completes t s) ?_
    change (if usesBuffer (atTime t s) then (Fetched.bytes (Memory.readN 0 (atTime t s).stage _ _), _) else _) = _ at hbytes
    simp only [hbytes, hclaim]
  · simp only [exec, execBundleApplyDone]
    exact (completion_completes h).trans rfl

end Sys2Proof.Machine
end

section
/-!
PROOFS. Commands on channels and tables, what ends them, and the table scan (R11, R104, R105, R198 to R200, R353, R375).
-/
namespace Sys2Proof.Machine
open Sys2Proof.Claim

/-- A command whose action succeeds is answered OK (R94). -/
theorem command_ok {r : OpRow} {own : Cmd → State → Option (Nat × Nat)} {act : Cmd → State → Reply} {t : Nat} {c : Cmd} {s s' : State} {ws : List Nat}
    (h : Taken r t c s) (hown : own c (atTime t s) = none) (hact : act c (atTime t s) = { words := ws, s := s' }) :
    command t c s (runCommand r own act) = ends t s (ok r.op c ws s') :=
  command_answers (x := { words := ws, s := s' }) h hown hact rfl

/-- A segment of width 0 begins at column 0. -/
theorem chSegmentAct_setSeg (c : Cmd) (s : State) : chSegmentAct c s = { s := s.setSeg (cmdNat c 1) (cmdNat c 2) { s.seg (cmdNat c 1) (cmdNat c 2) with
    first := if cmdNat c 4 = 0 then 0 else cmdNat c 3, width := cmdNat c 4 } } := by
  unfold chSegmentAct
  split_ifs with hw <;> simp [hw]

/-- In READY the copies become active at once (R199). -/
theorem tblCommitAct_ready {c : Cmd} {s : State} (hdev : s.dev = .ready) : tblCommitAct c s =
    { s := activate_ (cmdNat c 1) (-(2 ^ 63)) (commitTables c s) (commitAt (cmdNat c 1) 0 (showColumns (cmdNat c 1) (commitTables c s)
        (((openE 0x0304 c [cmdNat c 1, 0] s).setChan (cmdNat c 1) { s.chan (cmdNat c 1) with copyMask := cmdNat c 2 }).put R.chTblstat_PENDING 1 (cmdNat c 1)))) } := by
  simp only [tblCommitAct, hdev, decide_true, if_true]
  rfl

/-- Else the copies wait for the line of effect, where it is known at the take (R199). -/
theorem tblCommitAct_line {c : Cmd} {s : State} {y : Int} (hdev : s.dev ≠ .ready) (hline : commitLine c s = some y) : tblCommitAct c s =
    { s := (commitAt (cmdNat c 1) y (showColumns (cmdNat c 1) (commitTables c s)
        (((openE 0x0304 c [cmdNat c 1, 0] s).setChan (cmdNat c 1) { s.chan (cmdNat c 1) with copyMask := cmdNat c 2 }).put R.chTblstat_PENDING 1
          (cmdNat c 1)))).setChan (cmdNat c 1)
        { (commitAt (cmdNat c 1) y (showColumns (cmdNat c 1) (commitTables c s)
            (((openE 0x0304 c [cmdNat c 1, 0] s).setChan (cmdNat c 1) { s.chan (cmdNat c 1) with copyMask := cmdNat c 2 }).put R.chTblstat_PENDING 1
              (cmdNat c 1)))).chan (cmdNat c 1) with next := some (y, commitTables c s) } } := by
  simp only [tblCommitAct, hdev, decide_false, Bool.false_eq_true, if_false, hline]
  rfl

/-- Settles O3: each clause is the row's action. -/
theorem tableCommandsComplete : Obligations.TableCommandsComplete := by
  refine ⟨fun t c s h hown => ?_, fun t c s h hown => ?_, fun t c s i h hown harea => ?_, fun t c s h hown hdev => ?_,
    fun t c s y h hown hdev hline => ?_, fun t c s h hown => ?_, fun t c s h hown => ?_⟩
  · exact command_ends (act := chGeometryAct) h hown
  · refine (command_ends (act := chSegmentAct) h hown).trans ?_
    rw [chSegmentAct_setSeg]
    rfl
  · refine (command_ends (act := tblLoadAct) h hown).trans ?_
    rw [tblLoadAct, harea]
    rfl
  · exact command_ok h hown (tblCommitAct_ready (show (atTime t s).dev = .ready from hdev))
  · exact command_ok h hown (tblCommitAct_line (show (atTime t s).dev ≠ .ready from hdev) hline)
  · exact command_ends (act := tblReadAct) h hown
  · exact command_ends (act := jetStatusAct) h hown

end Sys2Proof.Machine
end

section
/-!
PROOFS. What ends the E commands on tables, and the table scan (R104, R105, R198 to R200, R353, R375).
-/
namespace Sys2Proof.Machine
open Sys2Proof.Claim

section
variable {t : Nat} {s : State} {ch : Chan}

/-- A commit whose line every hub has reached takes effect, and at once where the device is in READY (R199; log entry 17). -/
theorem exec_tblCommitEffect {y : Int} {T : Tables} (h : Awake t s) (hnext : (s.chan ch).next = some (y, T))
    (hreached : s.dev = .ready ∨ ∃ f, (atTime t s).front = some f ∧ ∀ k : Nat, k < 4 → (atTime t s).dueBy (4 * ch.val + k) y f = true) :
    exec (.tblCommitEffect t ch) s = becomes t s (activate_ ch y T (atTime t s)) := by
  simp only [exec, execTblCommitEffect]
  rw [live_becomes h]
  change ((atTime t s).chan ch).next = _ at hnext
  simp only [hnext]
  rw [if_neg]
  rintro ⟨-, hdev, hfalse⟩
  obtain hready | ⟨f, hfront, hdue⟩ := hreached
  · exact hdev hready
  · simp only [hfront, List.all_eq_false] at hfalse
    obtain ⟨k, hk, hlate⟩ := hfalse
    exact hlate (hdue k (List.mem_range.mp hk))

/-- The copies of a commit that has taken effect have been copied forward (R200). -/
theorem exec_copyForwardDone {o : OpenCmd} (h : Awake t s) (hnext : (s.chan ch).next = none) (hwait : (s.chan ch).waitSeg = none)
    (hopen : (s.fw.opens.find? fun o => decide (o.op = 0x0304 ∧ o.data.head? = some ch.val)) = some o) :
    exec (.copyForwardDone t ch) s = becomes t s (let u := reads ((maskList 4 (s.chan ch).copyMask).map tableGroup) (atTime t s); let x := s.chan ch
      let v := u.setChan ch { x with inactive := Tables.merge x.copyMask x.active x.inactive, copyMask := 0 }
      finish o stOk 0 [v.get R.chCommitlo_LINE_LO ch.val] (v.put R.chTblstat_PENDING 0 ch.val)) := by
  simp only [exec, execCopyForwardDone]
  rw [live_becomes h]
  refine congrArg (becomes t s) ?_
  change ((atTime t s).fw.opens.find? _) = _ at hopen
  change ((atTime t s).chan ch).next = _ at hnext
  change ((atTime t s).chan ch).waitSeg = _ at hwait
  rw [hopen]
  dsimp only
  rw [if_neg (by simp [hnext, hwait])]
  rfl

end

/-- Settles O4. -/
theorem tableCompletionsComplete : Obligations.TableCompletionsComplete := by
  refine ⟨fun t q o s bs v w h hlock hfetch hentry hclaim => ?_, fun t ch y T s h hnext hdev => exec_tblCommitEffect h hnext (.inl hdev),
    fun t ch y f T s h hnext hfront hdue => exec_tblCommitEffect h hnext (.inr ⟨f, hfront, hdue⟩),
    fun t ch o s h hnext hwait hopen => exec_copyForwardDone h hnext hwait hopen, fun t q o s h => ?_,
    fun t ch tab s v h hfw hphase hcopy hclaim => ?_, fun t ch tab s u h hfw hphase hfree hother hscan hlate => ?_⟩
  · simp only [exec, execTblLoadDone]
    rw [completion_completes h]
    refine congrArg (completes t s) ?_
    simp only [hlock, Bool.false_eq_true, if_false, hfetch, hentry, hclaim]
    by_cases hcrc : crc32c bs = o.cmd.w 6
    · rw [if_neg (not_not.mpr hcrc), if_pos hcrc]
    · rw [if_pos hcrc, if_neg hcrc]
  · simp only [exec, execTblReadDone]
    exact (completion_completes h).trans rfl
  · simp only [exec, execTableScan]
    rw [live_becomes h]
    refine congrArg (becomes t s) ?_
    rw [if_neg]
    · simp only [hclaim]
      rfl
    · rintro (hstop | hwrong | hcopies)
      · exact absurd (hstop.symm.trans hfw) (by decide)
      · exact hwrong hphase
      · exact absurd (hcopies.symm.trans hcopy) (by decide)
  · simp only [exec, execTableScanLate]
    rw [live_becomes h]
    refine congrArg (becomes t s) ?_
    change (atTime t s).scans.lookup _ = _ at hscan
    simp only [hscan]
    exact if_pos ⟨hfw, hphase, hfree, hother, hlate⟩

end Sys2Proof.Machine
end

section
/-!
PROOFS. The commands that define, start, pause, resume and end a job (R98, R100, R109, R220, R221, R245, R469).
-/
namespace Sys2Proof.Machine
open Sys2Proof.Claim

variable {c : Cmd} {s : State} {j : Job}

/-- The job that a `JOB_START` leaves: its start is set, and nothing of an earlier run stands (R98, R109). -/
def Job.starting (j : Job) (f : Int) (onMark : Bool) : Job :=
  { j with
    startAt := some (f, onMark), y0 := none, startLine := none, shift := 0, fired := false, ledgerPause := false, haltAt := none, haltRecs := [],
    pauseAt := none, abortAt := none, resumeAt := none, stoppedAt := f }

theorem jobStartAct_line (hjob : s.job = some j) (hform : cmdNat c 3 = 0) : jobStartAct c s =
    { s := setOrigin (cmdLine c 1 - j.jc.getD 0) (showShift { s with stagger := [], job := some (j.starting (cmdLine c 1) false) }) } := by
  simp only [jobStartAct, hjob, hform, if_true]
  rfl

theorem jobStartAct_mark (hjob : s.job = some j) (hform : cmdNat c 3 = 1) : jobStartAct c s =
    { s := showShift { s with stagger := [], job := some (j.starting (cmdLine c 1) true) } } := by
  simp only [jobStartAct, hjob, hform, Nat.one_ne_zero, if_false]
  rfl

theorem jobPauseAct_paused (hjob : s.job = some j) (hdev : s.dev = .paused) :
    jobPauseAct c s = { words := twoWords (wrapInt 64 j.stoppedAt), s := s } := by
  simp only [jobPauseAct, hjob, hdev, if_true]

/-- A pause of a job that prints, where none is set and no halt stands (R220). -/
theorem jobPauseAct_printing (hjob : s.job = some j) (hdev : s.dev = .printing) (hpause : j.pauseAt = none) (hhalt : j.haltAt = none) :
    jobPauseAct c s =
      { words := twoWords (wrapInt 64 (if cmdDword c 1 = 2 ^ 64 - 1 then s.fire + 1 else max (s.fire + 1) (cmdLine c 1))),
        s := s.setJob (some { j with pauseAt := some (if cmdDword c 1 = 2 ^ 64 - 1 then s.fire + 1 else max (s.fire + 1) (cmdLine c 1)) }) } := by
  simp only [jobPauseAct, hjob, hdev, reduceCtorEq, if_false, hpause, hhalt]

theorem jobAbortAct_named (hjob : s.job = some j) : jobAbortAct c s =
    { s := if s.dev = .printing then s.setJob (some { j with abortAt := some (s.fire + 1) }) else unloadJob 0 s } := by
  simp only [jobAbortAct, hjob]
  split <;> rfl

/-- Settles O5: each clause is the row's action; arming completes when every port named is armable. -/
theorem jobCommandsComplete : Obligations.JobCommandsComplete := by
  refine ⟨fun t c s h hown => ?_, fun t c j s h hown hjob hform => ?_, fun t c j s h hown hjob hform => ?_, fun t c j s h hjob hdev => ?_,
    fun t c j s h hjob hdev hpause hhalt => ?_, fun t c j s h hown hjob => ?_, fun t c j s h hjob hid => ?_, fun t c s h => ?_, fun t c s h hown => ?_,
    fun t q o j s h hjob hid hlocked hdev harmable => ?_⟩
  · exact command_ok (act := jobDefineAct) h hown rfl
  · exact command_ok h hown (jobStartAct_line (s := atTime t s) hjob hform)
  · exact command_ok h hown (jobStartAct_mark (s := atTime t s) hjob hform)
  · exact command_ok (own := noOwnFail) h rfl (jobPauseAct_paused (s := atTime t s) hjob hdev)
  · exact command_ok (own := noOwnFail) h rfl (jobPauseAct_printing (s := atTime t s) hjob hdev hpause hhalt)
  · change (atTime t s).job = _ at hjob
    refine command_ok (act := jobResumeAct) h hown ?_
    unfold jobResumeAct
    rewrite [hjob]
    rfl
  · change (atTime t s).job = _ at hjob
    have hown : jobAbortFail c (atTime t s) = none := by
      unfold jobAbortFail namesJob
      rw [hjob]
      exact if_pos (decide_eq_true hid)
    exact command_ok h hown (jobAbortAct_named hjob)
  · exact command_ok (own := noOwnFail) (act := jobDisarmAct) h rfl rfl
  · exact command_ok (act := jobArmAct) h hown rfl
  · simp only [exec, execJobArmDone]
    rw [completion_completes h]
    refine congrArg (completes t s) ?_
    change (atTime t s).job = _ at hjob
    rw [hjob]
    dsimp only
    rw [if_neg (not_not.mpr hid), if_pos ⟨harmable, hlocked, hdev⟩]

end Sys2Proof.Machine
end

section
/-!
PROOFS. Posts in each form, the runway, the library, and the restore of a job (R116 to R124, R131).
-/
namespace Sys2Proof.Machine
open Sys2Proof.Claim

/-! Posts. -/

section
variable {c : Cmd} {s : State}

/-- The descriptor of a post of a stream, placed in the ring at `a`, made in the state `s` (R117, R122). -/
def streamPost (c : Cmd) (a : Nat) (s : State) : Post :=
  { page := cmdNat c 3, lines := cmdNat c 7, addr := a, len := postLen c, ring := roundBurst (postLen c), raw := false, lib := none,
    pages := 1, index := (s.chan (cmdNat c 1)).postIndex, waits := postWaits c s }

theorem jobPostAct_stream {bs : List Byte} {v : State} (hform : postForm c = 0)
    (hfetch : dmaFetch (cmdDword c 4) (postLen c) (if addrSpace (cmdDword c 4) = 3 then
      requestFar (addrMember (cmdDword c 4)) (addrIn (cmdDword c 4)) (postLen c) s else s) = (.bytes bs, v)) :
    jobPostAct c s =
      (let x := dropKept (cmdNat c 1) (doneWith (cmdDword c 4) (postLen c) v)
       let a := (x.ringPlace (cmdNat c 1) (roundBurst (postLen c))).getD 0
       let y := if (s.seg (cmdNat c 1) (cmdNat c 2)).abandoned (cmdNat c 3) then x else dramWrite 4 a (fillTo 0 (roundBurst (postLen c)) bs) x
       let z := addPost (cmdNat c 1) (cmdNat c 2) (streamPost c a y) y
       { words := [runwayWord (cmdNat c 1) (cmdNat c 2) z], s := z }) := by
  unfold jobPostAct
  dsimp only
  rewrite [hform]
  rewrite [hfetch]
  rfl

theorem jobPostAct_library {e : LibEntry} (hform : postForm c = 2) (hlib : s.lib.lookup (cmdNat c 4) = some e) :
    jobPostAct c s =
      (let u := dropKept (cmdNat c 1) s
       let z := addPost (cmdNat c 1) (cmdNat c 2)
         { page := cmdNat c 3, lines := (s.seg (cmdNat c 1) (cmdNat c 2)).pageLen, addr := e.addr + 16, len := e.streamLen, ring := 0, raw := false,
           lib := some (cmdNat c 4), pages := cmdNat c 7, index := (u.chan (cmdNat c 1)).postIndex, waits := postWaits c u } u
       { words := [runwayWord (cmdNat c 1) (cmdNat c 2) z], s := z }) := by
  have hkept : (dropKept (cmdNat c 1) s).lib.lookup (cmdNat c 4) = some e := hlib
  unfold jobPostAct
  dsimp only
  rewrite [hform]
  rewrite [hkept]
  rfl

theorem jobPostAct_end (hform : postForm c = 3) :
    jobPostAct c s =
      (let z := (dropKept (cmdNat c 1) s).setSeg (cmdNat c 1) (cmdNat c 2)
         { s.seg (cmdNat c 1) (cmdNat c 2) with endPage := some (cmdNat c 3), postPage := cmdNat c 3, postLines := 0 }
       { words := [runwayWord (cmdNat c 1) (cmdNat c 2) z], s := z }) := by
  unfold jobPostAct
  dsimp only
  rewrite [hform]
  rfl

/-! The library. -/

theorem libStoreAct_open (hform : libAppend c = true ∨ cmdNat c 4 = 0) : libStoreAct c s =
    { s := openE 0x040A c [libEntry c, if cmdNat c 4 = 0 then 0 else
        match stagingArea (cmdDword c 2) (cmdNat c 4) s with | some i => i + 1 | none => 0] s } := by
  unfold libStoreAct
  dsimp only
  rewrite [if_pos hform]
  rfl

/-- An entry that is begun again: its header is read and is legal, and the region has room (R123). -/
theorem libStoreAct_restart {i : Nat} {h : List Byte} {v : State} (happend : libAppend c = false) (hn : cmdNat c 4 ≠ 0)
    (harea : stagingArea (cmdDword c 2) (cmdNat c 4) s = some i) (hread : dramRead 7 (addrIn (cmdDword c 2)) 16 s = (some h, v))
    (hlegal : libHeaderOk h (cmdNat c 4) = true) (hroom : (s.libPlace (libEntry c) (16 + fieldAt h 8 4)).isSome) :
    libStoreAct c s = { s := openE 0x040A c [libEntry c, i + 1] v } := by
  have hplace : ¬(s.libPlace (libEntry c) (16 + fieldAt h 8 4)).isNone = true := by simp [Option.isNone_iff_eq_none, Option.isSome_iff_ne_none.mp hroom]
  unfold libStoreAct
  dsimp only
  rewrite [if_neg (by simp [happend, hn]), hread]
  dsimp only
  rewrite [if_neg (by simp [hlegal]), if_neg hplace, if_neg hn, harea]
  rfl

end

section
variable {t : Nat} {q : Queue} {o : OpenCmd} {s : State}

/-- An entry that no post names is deleted (R123, R124). -/
theorem exec_libStoreDone_delete (h : Open 0x040A q o t s) (happend : libAppend o.cmd = false) (hfree : (atTime t s).libUsed (libEntry o.cmd) = false)
    (hn : cmdNat o.cmd 4 = 0) :
    exec (.libStoreDone t q) s = completes t s (finish o stOk 0 [] (setLib (libEntry o.cmd) none (atTime t s))) := by
  simp only [exec, execLibStoreDone]
  rewrite [completion_completes h]
  rewrite [if_neg (by simp [hfree]), if_pos ⟨happend, hn⟩]
  rfl

/-- What a completion stores of data that has arrived, and claims unit 3 for: its check, and the place of a new entry (R105, R123). -/
theorem exec_libStoreDone_restart {bs : List Byte} {v w : State} (h : Open 0x040A q o t s) (happend : libAppend o.cmd = false)
    (hfree : (atTime t s).libUsed (libEntry o.cmd) = false) (hn : cmdNat o.cmd 4 ≠ 0) (hlock : o.lockLost = false)
    (hfetch : dmaFetch (cmdDword o.cmd 2) (cmdNat o.cmd 4) (atTime t s) = (.bytes bs, v)) (hclaim : claimUnit3 o v = .ok w) :
    exec (.libStoreDone t q) s = completes t s (
      if crc32c bs ≠ o.cmd.w 5 then finish o stIntegrity 0 [] w
      else match w.libPlace (libEntry o.cmd) (16 + fieldAt bs 8 4) with
      | some a =>
        let r := storeChecked a bs (o.cmd.w 5) w
        if r.1 then finish o stOk 0 [] (setLib (libEntry o.cmd) (some { width := fieldAt bs 0 4, lines := fieldAt bs 4 4, streamLen := fieldAt bs 8 4,
                                                                         stored := cmdNat o.cmd 4 - 16, addr := a }) r.2)
        else finish o stIntegrity 0 [] r.2
      | none => finish o stNoResource 0 [] w) := by
  simp only [exec, execLibStoreDone]
  rewrite [completion_completes h]
  rewrite [if_neg (by simp [hfree]), if_neg (by simp [hn]), if_neg (by simp [hlock]), hfetch]
  dsimp only
  rewrite [hclaim]
  dsimp only
  rewrite [if_neg (by simp [happend])]
  rfl

theorem exec_libStoreDone_append {bs : List Byte} {v w : State} {x : LibEntry} (h : Open 0x040A q o t s) (happend : libAppend o.cmd = true)
    (hlock : o.lockLost = false) (hfetch : dmaFetch (cmdDword o.cmd 2) (cmdNat o.cmd 4) (atTime t s) = (.bytes bs, v))
    (hclaim : claimUnit3 o v = .ok w) (hlib : w.lib.lookup (libEntry o.cmd) = some x) (hfits : x.stored + cmdNat o.cmd 4 ≤ x.streamLen) :
    exec (.libStoreDone t q) s = completes t s (
      let r := storeChecked (x.addr + 16 + x.stored) bs (o.cmd.w 5) w
      if r.1 then finish o stOk 0 [] (setLib (libEntry o.cmd) (some { x with stored := x.stored + cmdNat o.cmd 4 }) r.2)
      else finish o stIntegrity 0 [] r.2) := by
  simp only [exec, execLibStoreDone]
  rewrite [completion_completes h]
  rewrite [if_neg (by simp [happend]), if_neg (by simp [happend]), if_neg (by simp [hlock]), hfetch]
  dsimp only
  rewrite [hclaim]
  dsimp only
  rewrite [if_pos happend, hlib]
  dsimp only
  rewrite [if_neg (Nat.not_lt.mpr hfits)]
  rfl

end

/-! The restore of a job. -/

theorem jobRestoreAct_opens {c : Cmd} {s : State} (hfit : snapsFail c (readSnaps (cmdNat c 2) s).1 (readSnaps (cmdNat c 2) s).2 = none) :
    jobRestoreAct c s = { s := openE 0x040B c [0x100, 0] (readSnaps (cmdNat c 2) s).2 } := by
  unfold jobRestoreAct
  dsimp only
  rewrite [hfit]
  rfl

/-- Every segment decoded to the same line without a fault: the job stands there (R131). -/
theorem restoreTo_decoded {o : OpenCmd} {j : Job} {s : State} :
    let segs := s.jobSegs
    let r := forEach segs s fun e x => loadSnap e.1 e.2 (cmdNat o.cmd 2) x
    let jc := segs.foldl (fun (m : Int) e => max m (r.seg e.1 e.2).y) ((segs.head?.map fun e => (r.seg e.1 e.2).y).getD 0)
    let d := forEach segs r fun e x => decodeTo ((jc - (x.seg e.1 e.2).y).toNat + 1) e.1 e.2 jc x
    d.job = some j → (∀ e ∈ segs, (d.seg e.1 e.2).ends = [] ∧ (d.seg e.1 e.2).y = jc) →
    execJobRestoreDone.restoreTo o s = (
      let h := forEach segs d fun e x => x.setSeg e.1 e.2 { x.seg e.1 e.2 with
          home := ((x.seg e.1 e.2).page, (x.seg e.1 e.2).pageStart, jc, (x.seg e.1 e.2).dec, (x.seg e.1 e.2).blockStart) }
      let k := match h.job with | some i => h.setJob (some { i with jc := some jc, shift := 0 }) | none => h
      finish o stOk 0 (twoWords (wrapInt 64 jc)) (showShift { k with kept := k.kept.filter fun e => !segs.contains (e.1 / 128, e.1 % 128) })) := by
  intro segs r jc d hjob hdecoded
  have hfaulty : segs.filter (fun e => !(d.seg e.1 e.2).ends.isEmpty) = [] := by
    simpa [List.filter_eq_nil_iff] using fun a b hab => (hdecoded (a, b) hab).1
  have hshort : ¬(segs.any fun e => decide ((d.seg e.1 e.2).y ≠ jc)) = true := by
    simpa using fun a b hab => (hdecoded (a, b) hab).2
  unfold execJobRestoreDone.restoreTo
  dsimp only
  rewrite [if_neg (not_not.mpr hfaulty), if_neg (by exact hjob ▸ Option.some_ne_none j), if_neg hshort]
  rfl

/-- Settles O6. -/
theorem postsAndLibraryComplete : Obligations.PostsAndLibraryComplete := by
  refine ⟨fun t c s bs v h hown hform hfetch => ?_, fun t c s e h hown hform hlib => ?_, fun t c s h hown hform => ?_, fun t c s h hch hg => ?_,
    fun t c s h hown hform => ?_, fun t c s i hd v h hown happend hn harea hread hlegal hroom => ?_,
    fun t q o s h happend hfree hn => exec_libStoreDone_delete h happend hfree hn,
    fun t q o s bs v w h happend hfree hn hlock hfetch hclaim => exec_libStoreDone_restart h happend hfree hn hlock hfetch hclaim,
    fun t q o s bs v w x h happend hlock hfetch hclaim hlib hfits => exec_libStoreDone_append h happend hlock hfetch hclaim hlib hfits,
    fun t c s h hown hfit => command_ok h hown (jobRestoreAct_opens hfit), fun t q o j s h hfit hjob hdecoded => ?_⟩
  · exact command_ok h hown (jobPostAct_stream hform hfetch)
  · exact command_ok h hown (jobPostAct_library (s := atTime t s) hform hlib)
  · exact command_ok h hown (jobPostAct_end hform)
  · exact command_ok (own := runwayFail) (act := runwayAct) h (if_neg (by omega)) rfl
  · exact command_ok h hown (libStoreAct_open hform)
  · exact command_ok h hown (libStoreAct_restart happend hn harea hread hlegal hroom)
  · simp only [exec, execJobRestoreDone]
    rewrite [completion_completes h, hfit]
    exact congrArg (completes t s) (restoreTo_decoded hjob hdecoded)

end Sys2Proof.Machine
end

section
/-!
PROOFS. Cadence: its commands, the events of the encoder and the marks, line starts, and the records of a chain (R202 to R233, R300 to R303).
-/
namespace Sys2Proof.Machine
open Sys2Proof.Claim

section
variable {c : Cmd} {s : State}

/-- `CAD_CONFIG` on balls that are claimed, or on an encoder that needs none (R202). -/
theorem cadConfigAct_claimed (hclaim : cmdNat c 1 = 1 → (claimFor false 0 2 s).1 = true) : cadConfigAct c s =
    (let u := if cmdNat c 1 = 1 then (claimFor false 0 2 s).2 else s
     let v := (((u.put R.cadCtrl_FWWIN (cmdNat c 3)).put R.cadCtrl_INV (cmdNat c 4)).put R.cadCtrl_ENC (cmdNat c 1)).put R.cadPitch_K (cmdNat c 2)
     let w := if u.cad.selected = some (decide (cmdNat c 1 = 1)) then v else selectEncoder v
     { s := rebase (w.setCad { w.cad with selected := some (decide (cmdNat c 1 = 1)) }) }) := by
  unfold cadConfigAct
  by_cases henc : cmdNat c 1 = 1
  · simp only [henc, if_true, hclaim henc, Bool.true_eq_false, if_false]
  · simp only [henc, if_false, Bool.true_eq_false]

theorem cadMarkAct_claimed (hclaim : cmdNat c 3 = 2 → (claimFor false 1 2 s).1 = true) : cadMarkAct c s =
    (let u := if cmdNat c 3 = 2 then (claimFor false 1 2 s).2 else s
     { s := u.setSeg (cmdNat c 1) (cmdNat c 2) { u.seg (cmdNat c 1) (cmdNat c 2) with
        src := cmdNat c 3, u := cmdNat c 4, win := cmdNat c 5, slew := cmdNat c 6, missLimit := cmdNat c 7, pageLen := cmdNat c 8 } }) := by
  unfold cadMarkAct
  by_cases hsrc : cmdNat c 3 = 2
  · simp only [hsrc, if_true, hclaim hsrc, Bool.true_eq_false, if_false]
  · simp only [hsrc, if_false, Bool.true_eq_false]

end

/-- Settles O7: each clause is the row's action. -/
theorem cadenceCommandsComplete : Obligations.CadenceCommandsComplete := by
  refine ⟨fun t c s h hown hclaim => command_ok h hown (cadConfigAct_claimed hclaim), fun t c s h hown => ?_,
    fun t c s h hown hclaim => command_ok h hown (cadMarkAct_claimed hclaim), fun t c s h => ?_, fun t m s h => ?_⟩
  · exact command_ok (act := cadSpeedAct) h hown rfl
  · exact command_ok (own := noFail) (act := cadStatusAct) h rfl rfl
  · simp only [exec, execCadPosloRead]
    exact (liveRead_becomes h).trans rfl

section
variable {t : Nat} {s : State}

theorem exec_cadenceLock (h : Awake t s) (hselected : s.cad.selected ≠ none) (hlocked : s.cad.locked = false) (hrole : s.follows = false)
    (hlate : (atTime t s).cad.lockFrom + 1000000000 ≤ (atTime t s).now) :
    exec (.cadenceLock t) s = becomes t s (let u := atTime t s
      let v := u.setCad { u.cad with locked := true, fault := false, markSeq := 0, recChanged := true }
      if u.cad.everLocked = true then v else startLine 0 (v.setCad { v.cad with everLocked := true, p0 := u.cad.pos, fbase := 0 })) := by
  have hwait : ¬((atTime t s).cad.selected.isNone = true ∨ (atTime t s).cad.locked = true ∨ (atTime t s).follows = true ∨
      (atTime t s).now < (atTime t s).cad.lockFrom + 1000000000) := by
    rintro (hn | hl | hf | hnow)
    · exact hselected (Option.isNone_iff_eq_none.mp hn)
    · exact ne_true_of_eq_false hlocked hl
    · exact ne_true_of_eq_false hrole hf
    · omega
  simp only [exec, execCadenceLock]
  rewrite [live_becomes h, if_neg hwait]
  rfl

/-- The levels of an encoder's balls are all that is told of it (R38, R42). -/
theorem tellEncoder_ind {α : Type} {f : State → α} (enc a b : Bool) (s : State) (hball : ∀ n up x, f (State.tellBall n up x) = f x) :
    f (tellEncoder enc a b s) = f s := by
  unfold tellEncoder
  split
  · simp only [hball]
  · rfl

theorem exec_encoderCount {enc a b : Bool} (h : Awake t s) (hcounts : s.counts enc = true) (hchange : ¬(s.cad.a = a ∧ s.cad.b = b))
    (h10 : armedFor 10 (b2n enc) s = false) (h11 : armedFor 11 (b2n enc) s = false) :
    exec (.encoderCount t enc a b) s = becomes t s (let u := tellEncoder enc a b (atTime t s)
      let v := u.setCad { u.cad with a := a, b := b, changes := u.cad.changes + 1 }
      let d := quadStep u.cad.a u.cad.b a b * (if u.flag R.cadCtrl_INV = true then -1 else 1)
      let w := if d = 0 then illegalCount false false v else countBy d false v
      if armedFor 12 (b2n enc) w = true ∧ w.dev = .printing then
        feed (List.replicate (w.get R.cadCtrl_FWWIN + 1) (-1) ++ List.replicate (w.get R.cadCtrl_FWWIN + 1) 1) (disarm w) else w) := by
  have hu : (tellEncoder enc a b (atTime t s)).counts enc = true := (tellEncoder_ind (f := (State.counts · enc)) enc a b _ fun _ _ _ => rfl).trans hcounts
  have hcad : (tellEncoder enc a b (atTime t s)).cad = s.cad := tellEncoder_ind enc a b _ fun _ _ _ => rfl
  have harmed (k : Nat) (x : Cad) : armedFor k (b2n enc) ((tellEncoder enc a b (atTime t s)).setCad x) = armedFor k (b2n enc) s :=
    tellEncoder_ind (f := armedFor k (b2n enc)) enc a b _ fun _ _ _ => rfl
  have hwait : ¬((tellEncoder enc a b (atTime t s)).counts enc = false ∨
      ((tellEncoder enc a b (atTime t s)).cad.a = a ∧ (tellEncoder enc a b (atTime t s)).cad.b = b)) := by
    rw [hu, hcad]
    exact fun hor => hor.elim (by decide) hchange
  simp only [exec, execEncoderCount]
  rewrite [live_becomes h, if_neg hwait, if_neg (by rw [harmed, h10]; decide), if_neg (by rw [harmed, h11]; decide)]
  rfl

theorem exec_zEdge {enc : Bool} (h : Awake t s) (hcounts : s.counts enc = true) :
    exec (.zEdge t enc) s = becomes t s (let u := if enc then ((atTime t s).tellBall 4 true).tellBall 5 false else atTime t s
      u.setCad { u.cad with zpos := u.cad.pos }) := by
  simp only [exec, execZEdge]
  rewrite [live_becomes h, if_pos (by cases enc <;> exact hcounts)]
  rfl

theorem exec_standstill (h : Awake t s) (hrole : s.follows = false) (hstill : s.cad.still = false)
    (hquiet : 2 ^ 20 ≤ (atTime t s).tick - s.cad.tc ∨ ∃ p, s.cad.tc8 = some p ∧ p ≤ ((atTime t s).tick - s.cad.tc) * 16) :
    exec (.standstill t) s = becomes t s (let u := atTime t s; let v := keepPast (noteE (u.tick - 1) (fallLine u))
      fallLine (endCount (v.setCad { v.cad with still := true }))) := by
  simp only [exec, execStandstill]
  rewrite [live_becomes h, if_neg ?_]
  · rfl
  rintro (hf | hs | ⟨hlong, hshort⟩)
  · exact ne_true_of_eq_false hrole hf
  · exact ne_true_of_eq_false hstill hs
  · obtain hlimit | ⟨p, htc, hp⟩ := hquiet
    · exact absurd hshort (Nat.not_lt.mpr hlimit)
    · change (atTime t s).cad.tc8 = some p at htc
      rw [htc] at hlong
      exact of_decide_eq_false hlong hp

theorem exec_boundaryFix {ch : Chan} {g : Seg} {ye : Int} (h : Awake t s) (hye : (s.seg ch g).ye = some ye) (hdev : s.dev = .printing ∨ s.dev = .armed)
    (hjob : s.inJob ch (s.seg ch g) = true) (hdue : (atTime t s).fixLine ch g ye ≤ (atTime t s).fire) :
    exec (.boundaryFix t ch g) s = becomes t s (fixBoundary ch g ye (atTime t s)) := by
  have hwait : ¬(¬((atTime t s).dev = .printing ∨ (atTime t s).dev = .armed) ∨ (atTime t s).inJob ch ((atTime t s).seg ch g) = false ∨
      (atTime t s).fire < (atTime t s).fixLine ch g ye) := by
    rintro (hstop | hout | hearly)
    · exact hstop hdev
    · exact ne_false_of_eq_true hjob hout
    · omega
  change ((atTime t s).seg ch g).ye = _ at hye
  simp only [exec, execBoundaryFix]
  rewrite [live_becomes h, hye]
  exact congrArg (becomes t s) (if_neg hwait)

theorem exec_lineStart (h : Awake t s) (hlocked : s.cad.everLocked = true) (hreached : (atTime t s).reached (s.cad.line + 1) 0 = true) :
    exec (.lineStart t) s = becomes t s (reads [0, 1, 2, 3, 7, 21] (injectMarks (startLine (s.cad.line + 1) (atTime t s)))) := by
  have hwait : ¬((atTime t s).cad.everLocked = false ∨ (atTime t s).reached ((atTime t s).cad.line + 1) 0 = false) := by
    rintro (hnever | hnot)
    · exact ne_false_of_eq_true hlocked hnever
    · exact ne_false_of_eq_true hreached hnot
  simp only [exec, execLineStart]
  rewrite [liveReading_becomes h, if_neg hwait]
  rfl

end

/-- Settles O8. -/
theorem cadenceEventsAct : Obligations.CadenceEventsAct := by
  refine ⟨fun t s h hselected hlocked hrole hlate => exec_cadenceLock h hselected hlocked hrole hlate,
    fun t enc a b s h hcounts hchange h10 h11 _ => exec_encoderCount h hcounts hchange h10 h11, fun t enc s h hcounts => exec_zEdge h hcounts,
    fun t s h hrole hstill hquiet => exec_standstill h hrole hstill hquiet, fun t s h => ?_, fun t s h howner => ?_,
    fun t ch g ye s h hye hdev hjob hdue => exec_boundaryFix h hye hdev hjob hdue, fun t s h hlocked hreached => exec_lineStart h hlocked hreached⟩
  · simp only [exec, execMarkEdge]
    rewrite [live_becomes h, if_neg (fun hor => Bool.noConfusion hor.1)]
    rfl
  · simp only [exec, execMarkEdge]
    rewrite [live_becomes h, if_neg (fun hor => hor.2 howner)]
    rfl

/-- A packet at a port, while the firmware serves it, is acted on; reads of the fabric's memories follow (R285, R340). -/
theorem packetRow_serves {t q : Nat} {s : State} {p : Pkt} {f : State → State} (h : Awake t s) (hkick : (atTime t s).kicking = false)
    (hfw : s.fw.running = true) : packetRow t q s p f = becomes t s (reads [18, 19] (f (atTime t s))) := by
  have hserved : ¬((atTime t s).asserted = true ∨ (atTime t s).fw.running = false) := by
    rintro (hasserted | hstopped)
    · exact ne_true_of_eq_false h hasserted
    · exact ne_false_of_eq_true hfw hstopped
  unfold packetRow
  dsimp only
  rw [if_neg (by simp [hkick]), if_neg hserved, becomes]

/-- A follower that has had no record for 8 µs holds its position, and a job that prints pauses (R233). -/
theorem exec_cadRecordLost {t : Nat} {s : State} (h : Awake t s) (hrole : s.follows = true) (hheld : s.cad.held = none)
    (hfrom : s.cad.followFrom + 8000000 ≤ (atTime t s).now) (hrecord : ∀ r, s.cad.rcd = some r → r.arrived + 8000000 ≤ (atTime t s).now) :
    exec (.cadRecordLost t) s = becomes t s (let u := atTime t s
      let m := meets 15 0 true u
      let v := raise 15 0 none 0 m.2.1 m.2.2
      let w := v.setCad { v.cad with held := some u.e }
      if w.dev = .printing then haltAtLine (w.cad.line + 1) 0 w else w) := by
  simp only [exec, execCadRecordLost]
  rewrite [live_becomes h, if_neg ?_]
  · rfl
  rintro (hf | hh | hearly)
  · exact ne_false_of_eq_true hrole hf
  · exact Option.isSome_iff_ne_none.mp hh hheld
  · change (atTime t s).cad.followFrom + 8000000 ≤ _ at hfrom
    change ∀ r, (atTime t s).cad.rcd = some r → _ at hrecord
    split at hearly
    next r hr => exact absurd hearly (by have := hrecord r hr; omega)
    next => omega

/-- Settles O9. -/
theorem cadenceChainActs : Obligations.CadenceChainActs := by
  refine ⟨fun t s h hrole hlocked hspaced => ?_, fun t q p s h hkick hfw => packetRow_serves h hkick hfw,
    fun t q p s h hkick hfw => packetRow_serves h hkick hfw, fun t q p s h hkick hfw => packetRow_serves h hkick hfw,
    fun t s h hrole hheld hfrom hrecord => exec_cadRecordLost h hrole hheld hfrom hrecord⟩
  simp only [exec, execCadenceRecordSend]
  rewrite [live_becomes h, if_neg ?_]
  · rfl
  rintro (hrole' | hfree | hsoon)
  · exact hrole' hrole
  · exact ne_false_of_eq_true hlocked hfree
  · change ∀ u, (atTime t s).fab.recAt = some u → _ at hspaced
    split at hsoon
    next u hu => exact absurd (of_decide_eq_true hsoon) (Nat.not_lt.mpr (hspaced u hu))
    next => exact absurd hsoon (by decide)

end Sys2Proof.Machine
end

section
/-!
PROOFS. Head ports: their commands, the ledger's, the firing of a line, and the link (R19, R27, R114, R201, R236 to R263, R382).
-/
namespace Sys2Proof.Machine
open Sys2Proof.Claim

/-! The commands of group 0x06 on ports, and what ends them. -/

section
variable {c : Cmd} {s : State}

theorem hpLinkAct_down (hform : cmdNat c 2 = 0) : hpLinkAct c s =
    (let p := cmdNat c 1
     let u := laneOff p (headDown p false ((openE 0x0605 c [p, s.get R.hptPcfg_UP p, 0] s).put R.hptPcfg_UP 0 p))
     { s := u.setPort p { u.port p with upSince := 0 } }) := by
  unfold hpLinkAct
  dsimp only
  rewrite [if_pos hform]
  rfl

theorem hpLinkAct_up (hform : cmdNat c 2 = 1) : hpLinkAct c s =
    (let p := cmdNat c 1
     let u := openE 0x0605 c [p, s.get R.hptPcfg_UP p, 0] s
     { s := if u.flag R.hptPstat_LINKUP p = true then configModules p (u.setPort p { u.port p with answered := 0, askedAt := u.now })
        else settlePlls (u.put R.hptPcfg_UP 1 p) }) := by
  unfold hpLinkAct
  dsimp only
  rewrite [if_neg (by omega)]
  split <;> rfl

end

section
variable {t : Nat} {q : Queue} {o : OpenCmd} {s : State}

/-- The staged table agrees with its check: it takes effect if its temperatures rise (R104, R105, R252). -/
theorem exec_hpTemptableDone {bs : List Byte} {v : State} (h : Open 0x0604 q o t s) (hlock : o.lockLost = false)
    (hfetch : dmaFetch (cmdDword o.cmd 2) 64 (atTime t s) = (.bytes bs, v)) (hcrc : crc32c bs = o.cmd.w 5) :
    exec (.hpTemptableDone t q) s = completes t s (
      let entry (i : Nat) : Nat := fieldAt bs (4 * i) 4
      if strictlyUp ((List.range 16).map fun i => signed 16 (entry i)) = false then finish o stBadArgument 0x0B05 [] v
      else finish o stOk 0 [] (forEach (List.range 16) v fun i x =>
        (x.put R.hptTt_TEMP (entry i % 65536) (cmdNat o.cmd 1) i).put R.hptTt_FACT (entry i / 65536) (cmdNat o.cmd 1) i)) := by
  simp only [exec, execHpTemptableDone]
  rewrite [completion_completes h]
  rewrite [if_neg (by simp [hlock]), hfetch]
  dsimp only
  rewrite [if_neg (not_not.mpr hcrc)]
  rfl

theorem exec_hpLinkDone_down (h : Open 0x0605 q o t s) (hform : cmdNat o.cmd 2 = 0) :
    exec (.hpLinkDone t q) s = completes t s (finish o stOk 0 [0] (atTime t s)) := by
  simp only [exec, execHpLinkDone]
  rewrite [completion_completes h, if_pos hform]
  rfl

/-- The link is up, and its modules have answered or had 10 ms (R244). -/
theorem exec_hpLinkDone_up (h : Open 0x0605 q o t s) (hform : cmdNat o.cmd 2 ≠ 0) (hup : s.flag R.hptPstat_LINKUP (cmdNat o.cmd 1) = true)
    (hanswered : (∀ m, m < s.get R.hptPcfg_MODULES (cmdNat o.cmd 1) → bitOf (s.port (cmdNat o.cmd 1)).answered m = true) ∨
      (s.port (cmdNat o.cmd 1)).askedAt + 10000000000 ≤ (atTime t s).now) :
    exec (.hpLinkDone t q) s = completes t s (finish o stOk 0 [(s.port (cmdNat o.cmd 1)).answered] (atTime t s)) := by
  have hdone : (List.range ((atTime t s).get R.hptPcfg_MODULES (cmdNat o.cmd 1))).all (bitOf ((atTime t s).port (cmdNat o.cmd 1)).answered) = true ∨
      ((atTime t s).port (cmdNat o.cmd 1)).askedAt + 10000000000 ≤ (atTime t s).now :=
    hanswered.imp_left fun hall => List.all_eq_true.mpr fun m hm => hall m (List.mem_range.mp hm)
  simp only [exec, execHpLinkDone]
  rewrite [completion_completes h]
  exact congrArg (completes t s) ((if_neg hform).trans ((if_pos hup).trans (if_pos hdone)))

end

/-- Settles O10. -/
theorem headCommandsComplete : Obligations.HeadCommandsComplete := by
  refine ⟨fun t c s h hown => ?_, fun t c s h hown => ?_, fun t c s h hown => ?_, fun t c s i h hown harea => ?_,
    fun t q o s bs v h hlock hfetch hcrc => exec_hpTemptableDone h hlock hfetch hcrc, fun t c s h hown hform => command_ok h hown (hpLinkAct_down hform),
    fun t c s h hown hform => command_ok h hown (hpLinkAct_up hform), fun t q o s h hform => exec_hpLinkDone_down h hform,
    fun t q o s h hform hup hanswered => exec_hpLinkDone_up h hform hup hanswered⟩
  · exact command_ok (act := hpConfigAct) h hown rfl
  · exact command_ok (act := hpRowgroupAct) h hown rfl
  · exact command_ok (act := hpStrobeAct) h hown rfl
  · refine command_ok (act := hpTemptableAct) h hown ?_
    rw [hpTemptableAct, harea, Option.getD_some]

/-! The ledger. -/

/-- A ring is set, from the places where it is written and read next (R114, R263). -/
def ledgerSet (c : Cmd) (wr rd : Nat) (s : State) : State :=
  let v := (((s.put R.hptLdbase_ADDR (cmdDword c 1 / 32)).put R.hptLdsize_SIZE (cmdNat c 3)).put R.hptLdwr_WR wr).put R.hptLdrd_RD rd
  v.setLedger { s.ledger with was := none, threshold := cmdNat c 4, seq := 0, fresh := 0, freshSince := none }

theorem ledgerConfigAct_fresh {c : Cmd} {s : State} (hwas : s.ledger.was = none) :
    ledgerConfigAct c s = { s := drainLedger (ledgerSet c 0 0 s).ledgerHeld (ledgerSet c 0 0 s) } := by
  unfold ledgerConfigAct
  dsimp only
  rewrite [hwas]
  rfl

theorem ledgerConfigAct_again {c : Cmd} {s : State} {a n wr rd : Nat} (hwas : s.ledger.was = some (a, n, wr, rd)) (ha : a = cmdDword c 1)
    (hn : n = cmdNat c 3) : ledgerConfigAct c s = { s := drainLedger (ledgerSet c wr rd s).ledgerHeld (ledgerSet c wr rd s) } := by
  unfold ledgerConfigAct
  dsimp only
  rewrite [hwas]
  dsimp only
  rewrite [if_pos ⟨ha, hn⟩]
  rfl

/-- Settles O11. -/
theorem ledgerCommandsComplete : Obligations.LedgerCommandsComplete := by
  refine ⟨fun t c s h hown hwas => command_ok h hown (ledgerConfigAct_fresh (s := atTime t s) hwas),
    fun t c a n wr rd s h hown hwas ha hn => command_ok h hown (ledgerConfigAct_again (s := atTime t s) hwas ha hn), fun t c s h hown => ?_,
    fun t s h => ?_, fun t s since h hsince hdue => ?_⟩
  · exact command_ok (act := ledgerAdvanceAct) h hown rfl
  · simp only [exec, execLedgerRecordLimit]
    exact (live_becomes h).trans rfl
  · simp only [exec, execLedgerNewTimer]
    change (atTime t s).ledger.freshSince = _ at hsince
    rewrite [live_becomes h, hsince]
    exact congrArg (becomes t s) (if_pos hdue)

/-! The firing of a line. -/

section
variable {t : Nat} {p : Port} {k : StrobeIx} {s : State}

theorem exec_lineFrameSend {x : Nat} (h : Awake t s) (harmed : s.flag R.hptPstat_ARMED p = true) (hlink : s.flag R.hptPstat_LINKUP p = true)
    (htested : (atTime t s).laneTested p = false) (hwanted : (atTime t s).frameWanted ((atTime t s).frameLine p) = true)
    (hsent : ∀ y, (s.port p).frame = some y → y.f < (atTime t s).frameLine p) (hstart : (atTime t s).startOf ((atTime t s).frameLine p) = some x)
    (hwindow : x ≤ (atTime t s).now + (atTime t s).sosWindow p) (hcodes : (atTime t s).codesWait p ((atTime t s).frameLine p) = false)
    (hbusy : (atTime t s).strobesBusy p ((atTime t s).frameLine p) = false) :
    exec (.lineFrameSend t p) s = becomes t s (reads [0, 20] (sendLine p ((atTime t s).frameLine p) (atTime t s))) := by
  simp only [exec, execLineFrameSend]
  rewrite [liveReading_becomes h, if_neg ?_]
  · rfl
  rintro (ha | hl | ht | hw | hs | he | hc | hb)
  · exact ne_false_of_eq_true harmed ha
  · exact ne_false_of_eq_true hlink hl
  · exact ne_true_of_eq_false htested ht
  · exact ne_false_of_eq_true hwanted hw
  · change ∀ y, ((atTime t s).port p).frame = some y → _ at hsent
    split at hs
    next y hy => exact absurd (of_decide_eq_true hs) (not_le.mpr (hsent y hy))
    next => exact absurd hs (by decide)
  · rw [hstart] at he
    exact absurd (of_decide_eq_true he) (Nat.not_lt.mpr hwindow)
  · exact ne_true_of_eq_false hcodes hc
  · exact ne_true_of_eq_false hbusy hb

/-- An edge, with no injection armed, at a port whose frame awaits it (R248). -/
theorem exec_sosEdge_awaited {x : FrameSt} (h : Awake t s) (harmed : armedFor 17 p s = false) (hframe : (s.port p).frame = some x)
    (hawaits : (atTime t s).awaits p = true) :
    exec (.sosEdge t p) s = becomes t s (let u := atTime t s
      traceFire p x.f 5 (u.setPort p { u.port p with frame := some { x with awaiting := false, sosAt := some u.sosTick } })) := by
  change armedFor 17 p (atTime t s) = false at harmed
  change ((atTime t s).port p).frame = some x at hframe
  simp only [exec, execSosEdge]
  rewrite [live_becomes h, if_neg (by simp [harmed])]
  unfold sosAt
  rewrite [hframe]
  exact congrArg (becomes t s) (if_pos ⟨hawaits, rfl⟩)

theorem exec_sosEdge_spurious (h : Awake t s) (harmed : armedFor 17 p s = false) (hframe : (s.port p).frame = none) :
    exec (.sosEdge t p) s = becomes t s (raise 17 p none 0 false ((atTime t s).bump R.hptLinkerr_SPURIOUS p)) := by
  change armedFor 17 p (atTime t s) = false at harmed
  change ((atTime t s).port p).frame = none at hframe
  simp only [exec, execSosEdge]
  rewrite [live_becomes h, if_neg (by simp [harmed])]
  unfold sosAt
  rewrite [hframe]
  rfl

theorem exec_sosWindowClose {x : FrameSt} {l : LineFire} (h : Awake t s) (hframe : (s.port p).frame = some x) (hcur : s.cad.cur = some l)
    (hline : l.f = x.f) (hclosed : l.fired < (atTime t s).now + 37500) (hprint : s.printing = true) :
    exec (.sosWindowClose t p) s = becomes t s (settleRuns (judgeTo p l (atTime t s))) := by
  change ((atTime t s).port p).frame = some x at hframe
  change (atTime t s).cad.cur = some l at hcur
  simp only [exec, execSosWindowClose]
  rewrite [live_becomes h, hframe, hcur]
  exact congrArg (becomes t s) ((if_pos hline).trans (if_pos ⟨hclosed, hprint⟩))

theorem exec_strobeDue {l : LineFire} (h : Awake t s) (hline : (atTime t s).strobeLine p k = some l) (hfw : s.fwNow ≠ .reversed) :
    exec (.strobeDue t p k) s = becomes t s (let u := atTime t s
      if u.flag R.hptPstat_ARMED p = true ∧ u.printing = true then endAfterStrobe (dueStrobe p k l u) else passStrobe p k l.f u) := by
  simp only [exec, execStrobeDue]
  rewrite [live_becomes h, hline]
  refine congrArg (becomes t s) ?_
  by_cases hfires : (atTime t s).flag R.hptPstat_ARMED p = true ∧ (atTime t s).printing = true
  · obtain ⟨harmed, hprint⟩ := hfires
    have hstays : ¬((atTime t s).flag R.hptPstat_ARMED p = false ∨ (atTime t s).printing = false) :=
      fun hor => hor.elim (ne_false_of_eq_true harmed) (ne_false_of_eq_true hprint)
    exact ((if_neg hstays).trans (if_neg hfw)).trans (if_pos ⟨harmed, hprint⟩).symm
  · have hpasses : (atTime t s).flag R.hptPstat_ARMED p = false ∨ (atTime t s).printing = false := by
      simpa only [Decidable.not_and_iff_or_not, Bool.not_eq_true] using hfires
    exact (if_pos hpasses).trans (if_neg hfires).symm

theorem exec_strobeFall (h : Awake t s) (hhigh : (s.strobe p k).genHigh = true)
    (hdue : (s.strobe p k).riseAt + (s.strobe p k).width * 1250 ≤ (atTime t s).now) :
    exec (.strobeFall t p k) s = becomes t s (let u := atTime t s; let x := u.strobe p k
      let v := u.setStrobe p k { x with high := false, genHigh := false, fallAt := if x.high = true then u.now else x.fallAt }
      endAfterStrobe (if x.high = true then v.emit (.strobeFall p k) else v)) := by
  simp only [exec, execStrobeFall]
  rewrite [live_becomes h, if_neg ?_]
  · rfl
  rintro (hl | hearly)
  · exact ne_false_of_eq_true hhigh hl
  · exact absurd hearly (Nat.not_lt.mpr hdue)

theorem exec_strobeWatchdog {m : Bool × State} (h : Awake t s) (hfault : wdFault (atTime t s) p k = false)
    (hmeets : meets 24 (4 * p + k) ((s.strobe p k).high && decide ((s.strobe p k).riseAt + s.get R.rdgPortTime_WDLIM p * 2500 < (atTime t s).now))
      (atTime t s) = (true, m)) :
    exec (.strobeWatchdog t p k) s = becomes t s (
      let z := s.strobe p k
      let v := if z.high = true then (m.2.setStrobe p k { z with high := false, fallAt := m.2.now }).emit (.strobeFall p k) else m.2
      let w := v.setReg ⟨.hptWdfault, p / 8, 0⟩ (v.reg ⟨.hptWdfault, p / 8, 0⟩ ||| BitVec.ofNat 32 (2 ^ wdBit p k))
      let x := raise 24 (4 * p + k) none 0 m.1 w
      let y := match z.lastLine with
        | some f => if z.high = true then ledgerLine p 0xFF 7 true f (x.firedAt f) x else x
        | none => x
      endAfterStrobe (if y.flag R.rdgPstat_WDDROP p = true ∧ (y.flag R.hptPstat_ARMED p = true ∨ bitOf (y.get R.rdgHpen_GRANT) p = true) then
        tripPort p y else y)) := by
  change meets 24 _ (((atTime t s).strobe p k).high && decide (((atTime t s).strobe p k).riseAt + (atTime t s).get R.rdgPortTime_WDLIM p * 2500 < _)) _
    = _ at hmeets
  simp only [exec, execStrobeWatchdog]
  rewrite [live_becomes h, hmeets, if_neg (fun hor => hor.elim (fun e => Bool.noConfusion e) (ne_true_of_eq_false hfault))]
  rfl

theorem exec_widthCompute (h : Awake t s) (hdue : ∀ e r, (s.port 0).widths = e :: r → e.1 + 1000000000 ≤ (atTime t s).now) :
    exec (.widthCompute t) s = becomes t s (let u := atTime t s
      forEach (List.range 16) { u with snsCfg := u.regs.filter fun e => decide (e.1.k = .snsPortcfg ∨ e.1.k = .snsThtab) } computePort) := by
  change ∀ e r, ((atTime t s).port 0).widths = e :: r → _ at hdue
  simp only [exec, execWidthCompute]
  rewrite [live_becomes h, if_neg ?_]
  · rfl
  intro hsoon
  split at hsoon
  next e r hw => exact absurd (of_decide_eq_true hsoon) (Nat.not_lt.mpr (hdue e r hw))
  next => exact absurd hsoon (by decide)

theorem exec_ridgeThetaTimeout (h : Awake t s) (hlive : s.flag R.hptPstat_ARMED p = true ∨ bitOf (s.get R.rdgHpen_GRANT) p = true)
    (hdue : (s.port p).thetaAt + 5000000000 ≤ (atTime t s).now) :
    exec (.ridgeThetaTimeout t p) s = becomes t s (tripPort p (atTime t s)) := by
  simp only [exec, execRidgeThetaTimeout]
  rewrite [live_becomes h, if_neg ?_]
  · rfl
  rintro (⟨hoff, hdrop⟩ | hearly)
  · exact hlive.elim (fun ha => ne_false_of_eq_true ha hoff) (fun hg => ne_false_of_eq_true hg hdrop)
  · exact absurd hearly (Nat.not_lt.mpr hdue)

end

/-- Settles O12. -/
theorem firingActs : Obligations.FiringActs := by
  refine ⟨fun t p x s h harmed hlink hready => ?_, fun t p x s h harmed hframe hawaits => exec_sosEdge_awaited h harmed hframe hawaits,
    fun t p s h harmed hframe => exec_sosEdge_spurious h harmed hframe,
    fun t p x l s h hframe hcur hline hclosed hprint => exec_sosWindowClose h hframe hcur hline hclosed hprint,
    fun t p k l s h hline hfw => exec_strobeDue h hline hfw, fun t p k s h hhigh hdue => exec_strobeFall h hhigh hdue,
    fun t p k m s h hfault hmeets => exec_strobeWatchdog h hfault hmeets, fun t s h hdue => exec_widthCompute h hdue,
    fun t p s h hlive hdue => exec_ridgeThetaTimeout h hlive hdue⟩
  obtain ⟨htested, hwanted, hsent, hstart, hwindow, hcodes, hbusy⟩ := hready
  exact exec_lineFrameSend h harmed hlink htested hwanted hsent hstart hwindow hcodes hbusy

end Sys2Proof.Machine
end

section
/-!
PROOFS. The link of a head port and its telemetry (R236, R241 to R244, R250).
-/
namespace Sys2Proof.Machine
open Sys2Proof.Claim

section
variable {t : Nat} {p : Port} {s : State}

/-- An ALIGN block at a port that is up and locked, in no test and with no injection of a link loss (R242). -/
theorem exec_headAlignBlock {aseq : BitVec 16} {sender : Byte} (h : Awake t s) (hup : s.flag R.hptPcfg_UP p = true) (hlock : s.flag R.lnsStat_LOCK p = true)
    (htested : s.laneTested p = false) (harmed : armedFor 19 p s = false) :
    exec (.headAlignBlock t p aseq sender) s = becomes t s (let u := atTime t s; let h := u.port p
      let run := if h.aseqRun ≠ 0 ∧ aseq.toNat = (h.lastAseq + 1) % 65536 then min 4 (h.aseqRun + 1) else 1
      settleLink p (u.setPort p { h with
        aseqRun := run, lastAseq := aseq.toNat, lastAlign := u.now, rxUp := h.rxUp || decide (4 ≤ run),
        farUp := decide (sender.toNat = 0xF0 + u.get R.hptPcfg_MODULES p - 1) })) := by
  simp only [exec, execHeadAlignBlock]
  rewrite [live_becomes h]
  unfold takeAlign
  rewrite [if_neg ?_]
  · rfl
  rintro (hu | hl | ht | ha)
  · exact ne_false_of_eq_true hup hu
  · exact ne_false_of_eq_true hlock hl
  · exact ne_true_of_eq_false htested ht
  · exact ne_true_of_eq_false harmed ha

theorem exec_headLinkDown (h : Awake t s) (hrx : (s.port p).rxUp = true)
    (hdue : (s.port p).lastAlign + 8192 * blockPs (s.laneRate p) ≤ (atTime t s).now) (harmed : armedFor 19 p s = false) :
    exec (.headLinkDown t p) s = becomes t s (headDown p false (atTime t s)) := by
  have hwait : ¬(((atTime t s).port p).rxUp = false ∨ (atTime t s).now < ((atTime t s).port p).lastAlign + 8192 * blockPs ((atTime t s).laneRate p)) :=
    fun hor => hor.elim (ne_false_of_eq_true hrx) (Nat.not_lt.mpr hdue)
  simp only [exec, execHeadLinkDown]
  rewrite [live_becomes h]
  exact congrArg (becomes t s) ((if_neg hwait).trans (if_neg (ne_true_of_eq_false harmed)))

theorem exec_telemetryFrame {before : BitVec 58} {blocks : List Block} (h : Awake t s) (hup : s.flag R.hptPcfg_UP p = true)
    (htested : s.laneTested p = false) (harmed : armedFor 20 p s = false) :
    exec (.telemetryFrame t p ⟨before, blocks⟩) s = becomes t s (forEach (offLane before blocks) (atTime t s) fun b x => takeBlock p b x) := by
  simp only [exec, execTelemetryFrame]
  rewrite [live_becomes h, if_neg ?_]
  · rfl
  rintro (hu | ht | ha)
  · exact ne_false_of_eq_true hup hu
  · exact ne_true_of_eq_false htested ht
  · exact ne_true_of_eq_false harmed ha

/-- The end of a frame: a good one is telemetry, another is discarded (R243). -/
theorem takeBlock_fin {b : Block} {start data : List Byte} {blocksOk : Bool} (hkind : blockKind b = .fin)
    (hrx : (s.port p).rx = some (start, data, blocksOk)) (harmed : armedFor 16 p s = false) :
    takeBlock p b s = (let u := s.setPort p { s.port p with rx := none }
      if blocksOk = true ∧ ((blockBytes b).drop 1).take 4 = leBytes 4 (crc32c (start ++ data)).toNat ∧ start.headD 0 = 3 ∧ data.length = 16 then
        takeTelemetry p start data u
      else raise 16 p none 0 false (u.bump R.hptLinkerr_FRAMEERR p)) := by
  have harmed' : armedFor 16 p (s.setPort p { s.port p with rx := none }) = false := harmed
  unfold takeBlock
  dsimp only
  rewrite [hkind, hrx]
  dsimp only
  unfold endFrame
  dsimp only
  rewrite [harmed']
  refine if_congr ?_ rfl rfl
  simp only [Bool.not_false, Bool.and_true, Bool.and_eq_true, decide_eq_true_eq, and_assoc]

theorem takeBlock_data_outside {b : Block} (hkind : blockKind b = .data) (hrx : (s.port p).rx = none) :
    takeBlock p b s = raise 16 p none 0 false (s.bump R.hptLinkerr_FRAMEERR p) := by
  unfold takeBlock
  dsimp only
  rewrite [hkind, hrx]
  rfl

theorem exec_moduleLost {m : Fin 8} (h : Awake t s) (hup : s.flag R.hptPcfg_UP p = true) (hsince : (s.port p).upSince ≠ 0)
    (hm : m.val < s.get R.hptPcfg_MODULES p) (hnew : (s.port p).lostRaised.contains m.val = false)
    (hreport : ∀ x, (s.port p).tel.lookup m.val = some x → x.at_ + 10000000000 ≤ (atTime t s).now)
    (hdue : (s.port p).upSince + 10000000000 ≤ (atTime t s).now) (harmed : armedFor 20 p s = false) :
    exec (.moduleLost t p m) s = becomes t s (let u := atTime t s
      raise 20 p none 0 false (u.setPort p { u.port p with lostRaised := m.val :: (u.port p).lostRaised })) := by
  have harmed' : armedFor 20 p (atTime t s) = false := harmed
  simp only [exec, execModuleLost]
  rewrite [live_becomes h, harmed', if_neg ?_]
  · rfl
  rintro (hu | hs | hout | hold | hsoon)
  · exact ne_false_of_eq_true hup hu
  · exact hsince hs
  · exact absurd hm (Nat.not_lt.mpr hout)
  · exact ne_true_of_eq_false hnew hold
  · change ∀ x, ((atTime t s).port p).tel.lookup m.val = some x → _ at hreport
    change ((atTime t s).port p).upSince + _ ≤ _ at hdue
    split at hsoon
    next x hx => have := hreport x hx; omega
    next => omega

end

/-- Settles O13. -/
theorem headLinkActs : Obligations.HeadLinkActs := by
  refine ⟨fun t p aseq sender s h hup hlock htested harmed => exec_headAlignBlock h hup hlock htested harmed,
    fun t p s h hrx hdue harmed => exec_headLinkDown h hrx hdue harmed,
    fun t p before blocks s h hup htested harmed => exec_telemetryFrame h hup htested harmed,
    fun p b start data blocksOk s hkind hrx harmed => takeBlock_fin hkind hrx harmed, fun p b s hkind hrx => takeBlock_data_outside hkind hrx,
    fun t p m s h hup hsince hm hnew hreport hdue harmed => exec_moduleLost h hup hsince hm hnew hreport hdue harmed⟩

end Sys2Proof.Machine
end

section
/-!
PROOFS. The commands of group 0x07, and the ends of discovery and of a forwarded command (R103, R185, R230, R293 to R295, R310).
-/
namespace Sys2Proof.Machine
open Sys2Proof.Claim

section
variable {t : Nat} {q : Queue} {o : OpenCmd} {s : State}

/-- Discovery that finds no ID held twice, no second root and room for all: the root sets the chain (R294, R295). -/
theorem exec_chainDiscoverDone {rootId : Nat} {held : List (Nat × Nat)} (h : Open 0x0701 q o t s)
    (hroot : rootId = (if (atTime t s).memberId = 0 then 1 else (atTime t s).memberId))
    (hheld : held = ((atTime t s).uid, rootId) :: (s.fab.found.filter fun n => decide (n.cur ≠ 0)).map (fun n => (n.uid, n.cur)))
    (hunique : ∀ a ∈ held, ∀ b ∈ held, a.2 = b.2 → a.1 = b.1) (halone : ∀ n ∈ s.fab.found, ¬(bitOf n.flags 0 = true ∧ bitOf n.flags 1 = true))
    (hroom : s.fab.found.length < 250) :
    exec (.chainDiscoverDone t q) s = completes t s (let u := atTime t s
      let v := u.setFab { u.fab with found := [], foundLinks := [], nodes := u.fab.found, parentPort := none }
      let T := v.tree u.fab.foundLinks rootId held
      let w := setChain true u.fab.foundLinks rootId T (v.setFab { v.fab with
        members := v.fab.members.filter fun m => T.any fun x => decide (x.uid = m.uid)
        plan := [] })
      let d := listMax (u.fab.foundLinks.map fun e => w.linkDelay e.1 e.2)
      finish o stOk 0 [T.length, min 249 ((w.get R.fabLookahead_NS - 4000) * 16 / (2 * (3040 + d)))] w) := by
  have hdup : ¬(held.any fun a => held.any fun b => decide (a.1 ≠ b.1 ∧ a.2 = b.2)) = true := by
    simp only [List.any_eq_true, decide_eq_true_eq]
    rintro ⟨a, ha, b, hb, hne, heq⟩
    exact hne (hunique a ha b hb heq)
  have hrival : ¬((atTime t s).fab.found.any fun n => bitOf n.flags 0 && bitOf n.flags 1) = true := by
    simp only [List.any_eq_true, Bool.and_eq_true]
    rintro ⟨n, hn, hflags⟩
    exact halone n hn hflags
  have hfits : ¬250 < (atTime t s).fab.found.length + 1 := by
    change (atTime t s).fab.found.length < 250 at hroom
    omega
  subst hheld hroot
  simp only [exec, execChainDiscoverDone]
  rewrite [completion_completes h]
  exact congrArg (completes t s) ((if_neg fun hor => hor.elim hdup hrival).trans ((if_neg hfits).trans rfl))

/-- Another member could be the root: discovery is refused, and the root knows what it knew before (R97, R295). -/
theorem exec_chainDiscoverDone_rival {n : FabNode} (h : Open 0x0701 q o t s) (hn : n ∈ s.fab.found) (hcould : bitOf n.flags 0 = true)
    (hlink : bitOf n.flags 1 = true) :
    exec (.chainDiscoverDone t q) s = completes t s (let u := atTime t s
      finish o stConflict 0 [] (u.setFab { u.fab with
        found := [], foundLinks := [], parentPort := if o.data.getD 1 4 < 4 then some (o.data.getD 1 4) else none })) := by
  have hrival : ((atTime t s).fab.found.any fun n => bitOf n.flags 0 && bitOf n.flags 1) = true :=
    List.any_eq_true.mpr ⟨n, hn, Bool.and_eq_true_iff.mpr ⟨hcould, hlink⟩⟩
  simp only [exec, execChainDiscoverDone]
  rewrite [completion_completes h]
  exact congrArg (completes t s) (if_pos (.inr hrival))

end

section
variable {c : Cmd} {s : State}

theorem chainStatusAct_words : chainStatusAct c s =
    { words := (match s.fab.members.find? fun m => decide (m.id = cmdNat c 1) with
        | some m => [m.mode, m.proto, if m.path = [] then 0 else m.hop / 16 + 150]
        | none => if cmdNat c 1 = s.memberId then [s.get R.fabState_MODE, s.chainProto, 0] else [0, 0, 0])
      s := s } := by
  unfold chainStatusAct
  cases hfound : s.fab.members.find? fun m => decide (m.id = cmdNat c 1) <;> simp only [hfound]

/-- An inner R command: its message is read from this member's memory and posted (R103, R290). -/
theorem chainForwardAct_posts {bs : List Byte} {v : State} (hfetch : fetch 7 (cmdDword c 2) (4 * cmdNat c 4) s = (.bytes bs, v))
    (hop : ((bytesWords bs).getD 0 0).toNat / 65536 ∉ eOpcodes) : chainForwardAct c s =
      (let u := doneWith (cmdDword c 2) (4 * cmdNat c 4) v
       let p := sendPost (cmdNat c 1) (bytesWords bs) false u
       { s := openE 0x0703 c [p.1, destMark (cmdDword c 5) 64 u] p.2 }) := by
  have hr : eOpcodes.contains (((bytesWords bs).getD 0 0).toNat / 65536) = false := by
    simpa only [List.contains_eq_mem, decide_eq_false_iff_not] using hop
  unfold chainForwardAct
  dsimp only
  rewrite [hfetch]
  dsimp only
  rewrite [hr]
  rfl

/-- `CHAIN_CADENCE` with the role already held changes nothing (R230). -/
theorem chainCadenceAct_same (hrole : s.get R.cadCtrl_ROLE = cmdNat c 1 + 1) : chainCadenceAct c s = { s := s } := if_pos hrole

theorem chainCadenceAct_master (hform : cmdNat c 1 = 0) (hrole : s.get R.cadCtrl_ROLE ≠ 1) : chainCadenceAct c s =
    (let u := endCount (s.put R.cadCtrl_ROLE 1)
     { s := u.setCad { u.cad with
        rcd := none, held := none, recCount := 0, recChanged := true, lockFrom := if u.cad.locked = true then u.cad.lockFrom else u.now } }) := by
  unfold chainCadenceAct
  rewrite [hform]
  exact (if_neg hrole).trans (if_neg (by decide))

theorem chainCadenceAct_follower (hform : cmdNat c 1 = 1) (hrole : s.get R.cadCtrl_ROLE ≠ 2) : chainCadenceAct c s =
    (let u := endCount (s.put R.cadCtrl_ROLE 2)
     { s := u.setCad { u.cad with
        rcd := none, rcfg := none, held := none, everLocked := false, locked := false, cur := none, prev := none, older := [], eMax := 0,
        followFrom := u.now, past := [] } }) := by
  unfold chainCadenceAct
  rewrite [hform]
  exact (if_neg hrole).trans (if_pos rfl)

end

/-- Settles O14. -/
theorem chainCommandsComplete : Obligations.ChainCommandsComplete := by
  refine ⟨fun t c s h hown => ?_, fun t q o rootId held s h hroot hheld hunique halone hroom => exec_chainDiscoverDone h hroot hheld hunique halone hroom,
    fun t q o n s h hn hcould hlink => exec_chainDiscoverDone_rival h hn hcould hlink, fun t c s h hlow hhigh => ?_,
    fun t c s bs v h hown hfetch hop => command_ok h hown (chainForwardAct_posts hfetch hop), fun t q o e s h hend => ?_,
    fun t c s h hown hform hrole => command_ok h hown (chainCadenceAct_master (s := atTime t s) hform hrole),
    fun t c s h hown hform hrole => command_ok h hown (chainCadenceAct_follower (s := atTime t s) hform hrole),
    fun t c s h hown hrole => command_ok h hown (chainCadenceAct_same (s := atTime t s) hrole), fun t c s h hown => ?_⟩
  · exact command_ok (act := chainDiscoverAct) h hown rfl
  · exact command_ok (own := chainStatusFail) h (if_neg (by omega)) chainStatusAct_words
  · simp only [exec, execChainForwardDone]
    rewrite [completion_completes h, hend]
    rfl
  · exact command_ok (act := chainEdgeAct) h hown rfl

end Sys2Proof.Machine
end

section
/-!
PROOFS. Packets for this member: reads over the fabric and the proxy, and the MGMT operations (R285 to R293, R305 to R307).
-/
namespace Sys2Proof.Machine
open Sys2Proof.Claim

section
variable {t q : Nat} {p : Pkt} {s : State} {mine : Pkt → Bool} {act : State → State}

/-- A sound packet for this member, of the kind that a row names, reaches its action unchanged (R286, R291). -/
theorem receive_forMe (h : ForMe q p t s) (hmine : mine p = true) : receive q p mine act (atTime t s) = act (atTime t s) := by
  obtain ⟨-, -, -, hup, harmed, hcrc, hform, httl, hty, hcls, hdest, hall, hroute⟩ := h
  change armedFor 29 q (atTime t s) = false at harmed
  change (atTime t s).fabUp q = true at hup
  change routePort p.dest.toNat (atTime t s) = some 4 at hroute
  have hsound : ¬(pktFormOk p = false ∨ p.ttl = 0 ∨ (p.dest = 0 ∧ p.ty ≠ 0x22 ∧ p.ty ≠ 0x30)) := by
    rintro (hf | ht | ⟨hd, -⟩)
    exacts [ne_false_of_eq_true hform hf, httl ht, hdest hd]
  unfold receive
  dsimp only
  rewrite [harmed, if_neg (by simp [hup]), if_neg (by simp [hcrc]), if_neg hsound, if_neg hty, if_neg hcls]
  dsimp only
  rewrite [if_neg (by decide), if_neg hdest, if_pos hall, if_pos hroute, if_pos hmine]
  rfl

theorem forMe_dest (h : ForMe q p t s) : p.dest ≠ 0 := by
  obtain ⟨-, -, -, -, -, -, -, -, -, -, hdest, -, -⟩ := h
  exact hdest

theorem packetRow_acted (h : ForMe q p t s) (hmine : mine p = true) :
    packetRow t q s p (receive q p mine act) = acted t s (act (atTime t s)) := by
  obtain ⟨hawake, hkick, hfw, -⟩ := id h
  rw [packetRow_serves hawake hkick hfw, receive_forMe h hmine, acted]

end

/-- A read without retries left ends as a bus error to its requester (R289). -/
theorem failFar_last {tag : Nat} {r : FarRead} {s : State} (hreads : s.fab.reads = [r]) (htag : r.tag = tag) (htries : r.tries = 0) :
    failFar tag s = s.setFab { s.fab with reads := [{ r with bad := true }] } := by
  unfold failFar
  simp [hreads, htag, htries]

theorem exec_tc1Timeout {t tag : Nat} {r : FarRead} {s : State} (h : Awake t s) (hreads : s.fab.reads = [r]) (htag : r.tag = tag) (hbad : r.bad = false)
    (htries : r.tries = 0) (hdue : r.t0 + 2000000000 ≤ (atTime t s).now) :
    exec (.tc1Timeout t tag) s = becomes t s (let u := atTime t s; serve (u.setFab { u.fab with reads := [{ r with bad := true }] })) := by
  change (atTime t s).fab.reads = [r] at hreads
  have hfind : (atTime t s).fab.reads.find? (fun r => decide (r.tag = tag) && !r.bad) = some r := by simp [hreads, htag, hbad]
  simp only [exec, execTc1Timeout]
  rewrite [live_becomes h, hfind]
  exact congrArg (becomes t s) ((if_neg (Nat.not_lt.mpr hdue)).trans (congrArg serve (failFar_last hreads htag htries)))

section
variable {p : Pkt} {o : ProxyOp} {s : State}

theorem proxyResponse_first (hop : answered 1 p s = some o) (hresp : o.resp = []) : proxyResponse p s =
    storeAnswer o.tag 0 (proxyWords p) (setOp o.tag (some { o with resp := proxyWords p, sentAt := s.now }) s) := by
  unfold proxyResponse
  rewrite [hop]
  exact if_neg (not_not.mpr hresp)

theorem proxyDone_first (hop : answered 1 p s = some o) (hdone : o.done = []) (hE : o.isE = true) : proxyDone p s =
    storeAnswer o.tag 64 (proxyWords p) (setOp o.tag (some { o with done := proxyWords p }) s) := by
  unfold proxyDone
  rewrite [hop]
  exact if_neg fun hor => hor.elim (not_not.mpr hdone) (ne_false_of_eq_true hE)

theorem proxyLock_channel (release : Bool) (hlow : 12 ≤ proxyCh p) (hhigh : proxyCh p ≤ 15) : proxyLock release p s =
    (let r : Word × State := if release then (0, lockWrite .proxy (proxyCh p) 4 s) else lockRead .proxy p.src.toNat (proxyCh p) s
     sendProxy 5 (proxyCh p) [r.1] p.src.toNat p.tag.toNat r.2) := if_neg (by omega)

theorem proxyLockResult_only (hops : s.fab.ops = [o]) (htag : o.tag = p.tag.toNat) (hdest : o.dest = p.src.toNat) (hop : o.op = 3 ∨ o.op = 4) :
    proxyLockResult p s = s.setFab { s.fab with ops := [] } := by
  unfold proxyLockResult
  have hfind : s.fab.ops.find? (fun o => decide (o.tag = p.tag.toNat ∧ o.dest = p.src.toNat ∧ (o.op = 3 ∨ o.op = 4))) = some o := by
    simp [hops, htag, hdest, hop]
  rewrite [hfind]
  simp [setOp, hops]

end

/-- Settles O15. -/
theorem fabricServicesAct : Obligations.FabricServicesAct := by
  refine ⟨fun t q p s h hty => packetRow_acted h (decide_eq_true hty), fun t q p s h hty => packetRow_acted h (decide_eq_true hty),
    fun t tag r s h hreads htag hbad htries hdue => exec_tc1Timeout h hreads htag hbad htries hdue, fun t q p s h hmine => packetRow_acted h hmine,
    fun t q p o s h hmine hop hresp => ?_, fun t q p o s h hmine hop hdone hE => ?_, fun t q p s h hmine hlow hhigh => ?_,
    fun t q p s h hmine hlow hhigh => ?_, fun t q p o s h hmine hops htag hdest hop => ?_, fun t tag o s h hop hdue => ?_⟩
  · exact (packetRow_acted h hmine).trans (congrArg (acted t s) (proxyResponse_first (s := atTime t s) hop hresp))
  · exact (packetRow_acted h hmine).trans (congrArg (acted t s) (proxyDone_first (s := atTime t s) hop hdone hE))
  · exact (packetRow_acted h hmine).trans (congrArg (acted t s) (proxyLock_channel false hlow hhigh))
  · exact (packetRow_acted h hmine).trans (congrArg (acted t s) (proxyLock_channel true hlow hhigh))
  · exact (packetRow_acted h hmine).trans (congrArg (acted t s) (proxyLockResult_only (s := atTime t s) hops htag hdest hop))
  · change (atTime t s).proxyOpOf tag = some o at hop
    simp only [exec, execProxyRetry]
    rewrite [live_becomes h, hop]
    exact congrArg (becomes t s) (if_neg (ne_false_of_eq_true hdue))

/-! MGMT operations. -/

theorem notePath_unicast {p : Pkt} {s : State} (h : p.dest ≠ 0) : notePath p s = s := if_neg h

theorem exec_heartbeatSend {t : Nat} {s : State} (h : Awake t s) (hfw : s.fw.running = true) (hroot : s.isRoot = true)
    (hdue : ∀ u, s.fab.beatAt = some u → u + 1000000000 ≤ (atTime t s).now) :
    exec (.heartbeatSend t) s = becomes t s (let u := atTime t s
      forEach (u.fab.members.filter fun m => decide (m.uid ≠ u.uid ∧ m.mode ≠ 6)) (u.setFab { u.fab with beatAt := some u.now }) fun m x =>
        let tag := (x.fab.msgTag + 1) % 65536
        sendMgmt 4 m.id 0 0 tag (List.replicate 63 0) [] (x.setFab { x.fab with msgTag := tag })) := by
  simp only [exec, execHeartbeatSend]
  rewrite [live_becomes h, if_neg ?_]
  · rfl
  rintro (hr | hf | hsoon)
  · exact ne_false_of_eq_true hroot hr
  · exact ne_false_of_eq_true hfw hf
  · change ∀ u, (atTime t s).fab.beatAt = some u → _ at hdue
    split at hsoon
    next u hu => exact absurd (of_decide_eq_true hsoon) (Nat.not_lt.mpr (hdue u hu))
    next => exact absurd hsoon (by decide)

/-- A member that has been silent too long is LOST: the root tells the others, and its sessions end (R87, R306). -/
theorem exec_memberLost {t : Nat} {id : Byte} {m : Member} {s : State} (h : Awake t s)
    (hfind : (s.fab.members.find? fun m => decide (m.id = id.toNat ∧ m.uid ≠ s.uid)) = some m) (hroot : s.isRoot = true) (hmode : m.mode ≠ 6)
    (hdue : m.kickEnded = none ∧ m.mode ≠ 5 ∧ m.heard + 3000000000 ≤ (atTime t s).now ∨
      ∃ u, m.kickEnded = some u ∧ u + 1000000000000 ≤ (atTime t s).now) :
    exec (.memberLost t id) s = becomes t s (let u := atTime t s
      let v := u.setFab { u.fab with members := u.fab.members.map fun x => if x.uid = m.uid then { x with mode := 6, kickEnded := none } else x }
      endMember m.id (broadcast 0x22 2 (mgmtPayload 6 0 0 0 (List.replicate 63 0) [BitVec.ofNat 8 m.id]) (memberEvent m.id 2 v))) := by
  change ((atTime t s).fab.members.find? fun m => decide (m.id = id.toNat ∧ m.uid ≠ (atTime t s).uid)) = some m at hfind
  simp only [exec, execMemberLost]
  rewrite [live_becomes h, hfind]
  refine congrArg (becomes t s) (if_neg ?_)
  rintro (hr | hm | hwaits)
  · exact ne_false_of_eq_true hroot hr
  · exact hmode hm
  · obtain ⟨hkick, hout, hheard⟩ | ⟨u, hkick, hlate⟩ := hdue <;> rewrite [hkick] at hwaits
    · exact of_decide_eq_false hwaits ⟨hout, hheard⟩
    · exact of_decide_eq_false hwaits hlate

/-- Settles O16. -/
theorem managementActs : Obligations.ManagementActs := by
  refine ⟨fun t q p s h hmine hstatus => ?_, fun t q p s h hmine hstatus => ?_, fun t q p s h hmine hstatus => ?_,
    fun t q p s h hmine hstatus => ?_, fun t q p s h hmine hstatus => ?_, fun t s h hfw hroot hdue => exec_heartbeatSend h hfw hroot hdue,
    fun t id m s h hfind hroot hmode hdue => exec_memberLost h hfind hroot hmode hdue, fun t q p s h hmine => packetRow_acted h hmine,
    fun t q p s h hmine => packetRow_acted h hmine, fun t q p s h hmine hroot => ?_⟩
  · exact (packetRow_acted h hmine).trans (congrArg (acted t s) (if_pos hstatus))
  · exact (packetRow_acted h hmine).trans (congrArg (acted t s) ((if_neg (by omega)).trans (if_pos hstatus)))
  · exact (packetRow_acted h hmine).trans (congrArg (acted t s) ((if_pos hstatus).trans (congrArg (applyAssign (mgmtBody p)) (notePath_unicast (forMe_dest h)))))
  · exact (packetRow_acted h hmine).trans (congrArg (acted t s) ((if_pos hstatus).trans (congrArg (applyRoute (mgmtBody p)) (notePath_unicast (forMe_dest h)))))
  · exact (packetRow_acted h hmine).trans (congrArg (acted t s) (if_pos hstatus))
  · exact (packetRow_acted h hmine).trans (congrArg (acted t s) (if_pos hroot))

end Sys2Proof.Machine
end

section
/-!
PROOFS. The state of a fabric port, and chain time (R283, R284, R296, R297, R305, R309).
-/
namespace Sys2Proof.Machine
open Sys2Proof.Claim

section
variable {t : Nat} {q : FabPort} {s : State}

/-- Both lanes of a port are locked and in no test (R283). -/
theorem lanes_locked (h0 : s.flag R.fabPstat_L0LOCK q = true) (h1 : s.flag R.fabPstat_L1LOCK q = true) (ht0 : s.laneTested (16 + 2 * q) = false)
    (ht1 : s.laneTested (17 + 2 * q) = false) :
    (s.flag R.fabPstat_L0LOCK q && s.flag R.fabPstat_L1LOCK q && !s.laneTested (16 + 2 * q) && !s.laneTested (17 + 2 * q)) = true := by
  rw [h0, h1, ht0, ht1]
  rfl

theorem exec_fabricPortUp (h : Awake t s) (hkick : (atTime t s).kicking = false) (hen : s.flag R.fabPctrl_EN q = true) (hdown : s.fabUp q = false)
    (hlanes : (s.flag R.fabPstat_L0LOCK q && s.flag R.fabPstat_L1LOCK q && !s.laneTested (16 + 2 * q) && !s.laneTested (17 + 2 * q)) = true)
    (hdeskew : s.flag R.fabPstat_DESKEW q = true) (haligned : s.aligned q = true) :
    exec (.fabricPortUp t q) s = becomes t s (let u := atTime t s
      joinDue (reportBreak q 1 (u.get R.fabPstat_NID q) (showHold (u.put R.fabPstat_UP 1 q)))) := by
  simp only [exec, execFabricPortUp]
  rewrite [live_becomes h, if_neg ?_]
  · rfl
  rintro (hk | he | hl | hu | hd | ha)
  · exact ne_true_of_eq_false hkick hk
  · exact ne_false_of_eq_true hen he
  · exact ne_false_of_eq_true hlanes hl
  · exact ne_true_of_eq_false hdown hu
  · exact ne_false_of_eq_true hdeskew hd
  · exact ne_false_of_eq_true haligned ha

theorem exec_fabricPortDown (h : Awake t s) (hup : s.fabUp q = true)
    (hdue : mapGet 0 s.fab.aligns q.val + 4096 * blockPs (s.get R.fabPctrl_RATE q) ≤ (atTime t s).now) :
    exec (.fabricPortDown t q) s = becomes t s (let u := ((atTime t s).put R.fabPstat_UP 0 q).put R.fabPstat_DESKEW 0 q
      let v := u.setFab { u.fab with
        tsync := u.fab.tsync.filter (fun e => decide (e.1 ≠ q)), alignRun := u.fab.alignRun.filter fun e => decide (e.1 ≠ q) }
      let w := { v with tx := { v.tx with queue := v.tx.queue.filter fun w => decide (w.port ≠ q) } }
      reportBreak q 0 (w.get R.fabPstat_NID q) (showHold (raise 28 q none 0 false w))) := by
  simp only [exec, execFabricPortDown]
  rewrite [live_becomes h]
  exact congrArg (becomes t s) ((if_neg (Nat.not_lt.mpr hdue)).trans (if_neg (ne_false_of_eq_true hup)))

/-- An ALIGN pair at a port that is enabled and locked: what the far end tells of itself is noted, and a pass-through that begins or ends is
reported (R284, R309). -/
theorem exec_fabricAlign {aseq : BitVec 16} {skewNs : Nat} {nid : Byte} {nport : BitVec 2} (h : Awake t s) (hkick : (atTime t s).kicking = false)
    (hen : s.flag R.fabPctrl_EN q = true)
    (hlanes : (s.flag R.fabPstat_L0LOCK q && s.flag R.fabPstat_L1LOCK q && !s.laneTested (16 + 2 * q) && !s.laneTested (17 + 2 * q)) = true) :
    exec (.fabricAlign t q ⟨nid, nport⟩ ⟨aseq, skewNs⟩) s = becomes t s (let u := atTime t s; let old := u.get R.fabPstat_NID q
      let v := ((noteAlign q aseq.toNat skewNs u).put R.fabPstat_NID nid.toNat q).put R.fabPstat_NPORT nport.toNat q
      let a := (v.fab.kickOf.lookup q.val).getD 0
      if v.flag R.fabPstat_KICK q = true then
        (if nid = 0 ∨ nid.toNat = a then
          reportBreak q 3 a ((v.put R.fabPstat_KICK 0 q).setFab { v.fab with kickOf := v.fab.kickOf.filter fun e => decide (e.1 ≠ q.val) })
        else v)
      else if v.fabUp q = true ∧ old ≠ 0 ∧ nid ≠ 0 ∧ nid.toNat ≠ old then
        reportBreak q 2 old ((v.put R.fabPstat_KICK 1 q).setFab { v.fab with kickOf := (q.val, old) :: v.fab.kickOf })
      else v) := by
  simp only [exec, execFabricAlign]
  rewrite [always_becomes, if_neg (ne_true_of_eq_false hkick), if_neg ?_]
  · rfl
  rintro (ha | he | hl)
  · exact ne_true_of_eq_false h ha
  · exact ne_false_of_eq_true hen he
  · exact ne_false_of_eq_true hlanes hl

/-- An ALIGN pair leaves a run of two or more. -/
theorem noteAlign_run (q a skew : Nat) (s : State) : ∃ run, 2 ≤ run ∧
    mapGet (0, 0) (noteAlign q a skew s).fab.alignRun q = (run, (a + 2) % 65536) ∧
    (0 < (mapGet (0, 0) s.fab.alignRun q).1 ∧ a = (mapGet (0, 0) s.fab.alignRun q).2 → run = min 4 ((mapGet (0, 0) s.fab.alignRun q).1 + 2)) := by
  refine ⟨if 0 < (mapGet (0, 0) s.fab.alignRun q).1 ∧ a = (mapGet (0, 0) s.fab.alignRun q).2 then min 4 ((mapGet (0, 0) s.fab.alignRun q).1 + 2) else 2,
    ?_, ?_, fun hnext => if_pos hnext⟩
  · split <;> omega
  · unfold noteAlign
    dsimp only
    split <;> exact mapGet_mapSet_same _ _ _ _ _

/-- Two ALIGN pairs in a row bring the four consecutive blocks of R283. -/
theorem aligned_of_two_pairs (q a skew skew' : Nat) (s : State) :
    (noteAlign q ((a + 2) % 65536) skew' (noteAlign q a skew s)).aligned q = true := by
  obtain ⟨run, hrun, hfirst, -⟩ := noteAlign_run q a skew s
  obtain ⟨run', -, hsecond, hnext⟩ := noteAlign_run q ((a + 2) % 65536) skew' (noteAlign q a skew s)
  rw [hfirst] at hnext
  have hfour := hnext ⟨by omega, rfl⟩
  rw [State.aligned, hsecond]
  exact decide_eq_true (by simp only [hfour]; omega)

theorem exec_tsyncSend (h : Awake t s) (hkick : (atTime t s).kicking = false) (hup : s.fabUp q = true)
    (hdue : ∀ u, s.fab.tsyncAt.lookup q.val = some u → u + 16000000 ≤ (atTime t s).now) :
    exec (.tsyncSend t q) s = becomes t s (let u := atTime t s; let seq := (u.fab.tsyncSeq + 1) % 256
      let v := u.setFab { u.fab with
        tsyncAt := (q.val, u.now) :: u.fab.tsyncAt.filter fun e => decide (e.1 ≠ q)
        tsyncSeq := seq, tsync := (q.val, (seq, u.stamp)) :: u.fab.tsync.filter fun e => decide (e.1 ≠ q) }
      joinDue (sendPacket q (mkPkt 0x30 0 0 v.memberId 0 (tsyncBody 0 seq v.stamp 0 0)) v)) := by
  simp only [exec, execTsyncSend]
  rewrite [live_becomes h, if_neg ?_]
  · rfl
  rintro (hk | hd | hsoon)
  · exact ne_true_of_eq_false hkick hk
  · exact ne_false_of_eq_true hup hd
  · change ∀ u, (atTime t s).fab.tsyncAt.lookup q.val = some u → _ at hdue
    split at hsoon
    next u hu => exact absurd (of_decide_eq_true hsoon) (Nat.not_lt.mpr (hdue u hu))
    next => exact absurd hsoon (by decide)

/-- A sound TSYNC packet at a port that is up is acted on, whatever its destination (R286, R297). -/
theorem receive_tsync {p : Pkt} (hup : s.fabUp q = true) (harmed : armedFor 29 q s = false) (hcrc : pktCrcOk p = true) (hform : pktFormOk p = true)
    (httl : p.ttl ≠ 0) (hty : p.ty = 0x30) : receive q p (fun p => decide (p.ty = 0x30)) (tsync q p) s = tsync q p s := by
  have hsound : ¬(pktFormOk p = false ∨ p.ttl = 0 ∨ (p.dest = 0 ∧ p.ty ≠ 0x22 ∧ p.ty ≠ 0x30)) := by
    rintro (hf | ht | ⟨-, -, hy⟩)
    exacts [ne_false_of_eq_true hform hf, httl ht, hy hty]
  unfold receive
  dsimp only
  rewrite [harmed, if_neg (by simp [hup]), if_neg (by simp [hcrc]), if_neg hsound, if_pos hty]
  exact if_pos (decide_eq_true hty)

end

/-- Settles O17. -/
theorem fabricPortsAndTimeAct : Obligations.FabricPortsAndTimeAct := by
  refine ⟨fun t q s h hkick hen hdown h0 h1 ht0 ht1 hdeskew haligned =>
      exec_fabricPortUp h hkick hen hdown (lanes_locked h0 h1 ht0 ht1) hdeskew haligned, fun t q s h hup hdue => exec_fabricPortDown h hup hdue,
    fun t q aseq skewNs nid nport s h hkick hen h0 h1 ht0 ht1 => exec_fabricAlign h hkick hen (lanes_locked h0 h1 ht0 ht1),
    fun t q far pair s hkick => ?_, fun q a skew skew' s => aligned_of_two_pairs q a skew skew' s,
    fun t q s h hkick hup hdue => exec_tsyncSend h hkick hup hdue, fun t q p s h hkick hfw hup harmed hcrc hform httl hty => ?_, fun t m s h => ?_⟩
  · simp only [exec, execFabricAlign]
    exact always_becomes.trans (congrArg (becomes t s) (if_pos hkick))
  · exact (packetRow_serves h hkick hfw).trans (congrArg (acted t s) (receive_tsync (s := atTime t s) hup harmed hcrc hform httl hty))
  · simp only [exec, execFabTimeloRead]
    exact (liveRead_becomes h).trans rfl

end Sys2Proof.Machine
end

section
/-!
PROOFS. The commands of group 0x09 and the motions that they start (R391 to R403).
-/
namespace Sys2Proof.Machine
open Sys2Proof.Claim

section
variable {c : Cmd} {s z : State}

/-- `MOT_CONFIG` of an axis that has its balls, or whose group is claimed (R391, R392). -/
theorem motConfigAct_claimed
    (hclaim : (if cmdNat c 1 < 6 then (true, s) else claimFor false (cmdNat c 1 - 4) 2 s) = (true, z)) : motConfigAct c s =
    (let a := cmdNat c 1
     let u := ((z.put R.motAxVmax_VMAX (cmdNat c 2) a).put R.motAxAmax_AMAX (cmdNat c 3) a).put R.motAxJmax_JMAX (cmdNat c 4) a
     let v := (u.put R.motAxCur_HOLD (cmdNat c 5) a).put R.motAxCur_STILLMS (cmdNat c 6) a
     let w := v.setAxis a { v.axis a with configured := true, lastStep := v.now }
     { s := if w.get R.motAxStat_STATE a = 0 then w.put R.motAxStat_STATE 1 a else w }) := by
  unfold motConfigAct axisGroup
  dsimp only
  rewrite [hclaim]
  exact if_neg fun e => Bool.noConfusion e

theorem motConfigAct_refused (ha : 6 ≤ cmdNat c 1) (hclaim : claimFor false (cmdNat c 1 - 4) 2 s = (false, z)) :
    motConfigAct c s = { status := stConflict, s := z } := by
  unfold motConfigAct axisGroup
  dsimp only
  rewrite [if_neg (Nat.not_lt.mpr ha), hclaim]
  exact if_pos rfl

end

section
variable {t : Nat} {a : Axis} {s : State}

/-- The axes of a step have their balls: the axis, and those of its move (R41, R391). -/
theorem stepAxes_onBalls (hballs : ∀ b, b < 8 → b = a.val ∨ (s.axis b).moving = true ∧ (s.axis b).group = a.val → axisOnBalls s b = true) :
    ((List.range 8).filter fun b => decide (b = a.val) || ((s.axis b).moving && decide ((s.axis b).group = a.val))).all (axisOnBalls s) = true := by
  simp only [List.all_eq_true, List.mem_filter, List.mem_range, Bool.or_eq_true, Bool.and_eq_true, decide_eq_true_eq]
  exact fun b ⟨hb, hmine⟩ => hballs b hb hmine

/-- Nothing holds a step of an axis that moves, with the gate open, on its balls and within its profile (R393, R395). -/
theorem stepFree (hmoving : (s.axis a).moving = true) (hgate : s.flag R.rdgMoten_GATE = true) (hpaced : (atTime t s).paced a = true)
    (hballs : ∀ b, b < 8 → b = a.val ∨ (s.axis b).moving = true ∧ (s.axis b).group = a.val → axisOnBalls s b = true) :
    ¬(((atTime t s).axis a).moving = false ∨ (atTime t s).flag R.rdgMoten_GATE = false ∨
      ((List.range 8).filter fun b => decide (b = a.val) || (((atTime t s).axis b).moving && decide (((atTime t s).axis b).group = a.val))).all
        (axisOnBalls (atTime t s)) = false ∨ (atTime t s).paced a = false) := by
  rintro (hm | hg | hb | hp)
  · exact ne_false_of_eq_true hmoving hm
  · exact ne_false_of_eq_true hgate hg
  · exact ne_false_of_eq_true (stepAxes_onBalls (s := atTime t s) hballs) hb
  · exact ne_false_of_eq_true hpaced hp

/-- A step of a move's master, with no injection armed (R393, R396). -/
theorem exec_motionStep_group (h : Awake t s) (hmoving : (s.axis a).moving = true) (hgate : s.flag R.rdgMoten_GATE = true)
    (hhoming : (s.axis a).homing = false) (hgroup : (s.axis a).group = a.val) (hleft : 0 < (s.axis a).left) (harmed : armedFor 57 a s = false)
    (hpaced : (atTime t s).paced a = true)
    (hballs : ∀ b, b < 8 → b = a.val ∨ (s.axis b).moving = true ∧ (s.axis b).group = a.val → axisOnBalls s b = true) :
    exec (.motionStep t a) s = becomes t s (groupStep a (atTime t s)) := by
  simp only [exec, execMotionStep]
  rewrite [live_becomes h]
  exact congrArg (becomes t s) ((if_neg (stepFree hmoving hgate hpaced hballs)).trans
    ((if_neg (ne_true_of_eq_false hhoming)).trans ((if_pos ⟨hgroup, hleft⟩).trans (if_neg (ne_true_of_eq_false harmed)))))

theorem exec_motionStep_homing (h : Awake t s) (hmoving : (s.axis a).moving = true) (hgate : s.flag R.rdgMoten_GATE = true)
    (hhoming : (s.axis a).homing = true) (hpaced : (atTime t s).paced a = true)
    (hballs : ∀ b, b < 8 → b = a.val ∨ (s.axis b).moving = true ∧ (s.axis b).group = a.val → axisOnBalls s b = true) :
    exec (.motionStep t a) s = becomes t s (homingStep a (atTime t s)) := by
  simp only [exec, execMotionStep]
  rewrite [live_becomes h]
  exact congrArg (becomes t s) ((if_neg (stepFree hmoving hgate hpaced hballs)).trans (if_pos hhoming))

theorem tellSwitch_onBalls (side : SwitchSide) (level : Bool) : axisOnBalls (tellSwitch a side level s) a = axisOnBalls s a := by
  unfold tellSwitch
  split <;> rfl

end

/-- Settles O18. -/
theorem motionCommandsComplete : Obligations.MotionCommandsComplete := by
  refine ⟨fun t c z s h hown hclaim => command_ok h hown (motConfigAct_claimed hclaim), fun t c z s h hown ha hclaim => ?_, fun t c s h hown => ?_,
    fun t c s h hown => ?_, fun t c s h hmask => ?_, fun t c s h ha => ?_, fun t q o s h hmoving hleft => ?_,
    fun t a s h hmoving hgate hhoming hgroup hleft harmed hpaced hballs =>
      exec_motionStep_group h hmoving hgate hhoming hgroup hleft harmed hpaced hballs,
    fun t a s h hmoving hgate hhoming hpaced hballs => exec_motionStep_homing h hmoving hgate hhoming hpaced hballs,
    fun t a side level raw s h hballs => ?_, fun t a s h hconf hrest hdue => ?_⟩
  · exact command_answers (x := { status := stConflict, s := z }) h hown (motConfigAct_refused ha hclaim) rfl
  · exact command_ok (act := motMoveAct) h hown rfl
  · exact command_ok (act := motHomeAct) h hown rfl
  · exact command_ok (own := motStopFail) (act := motStopAct) h (if_neg (Nat.not_lt.mpr hmask)) rfl
  · exact command_ok (own := motStatusFail) (act := motStatusAct) h (if_neg (Nat.not_lt.mpr ha)) rfl
  · simp only [exec, execMotMoveDone]
    rewrite [completion_completes h]
    exact congrArg (completes t s) (if_pos ⟨hmoving, hleft⟩)
  · simp only [exec, execLimitSwitchEdge]
    rewrite [live_becomes h]
    exact congrArg (becomes t s) (if_pos ((tellSwitch_onBalls (s := atTime t s) side level).trans hballs))
  · simp only [exec, execStandstillHold]
    rewrite [live_becomes h]
    exact congrArg (becomes t s) (if_pos ⟨hconf, hrest, hdue⟩)

end Sys2Proof.Machine
end

section
/-!
PROOFS. Calibration commands, shadows and their commit, and the delay lines (R410 to R417); with what a write enabled for its master does.
-/
namespace Sys2Proof.Machine
open Sys2Proof.Claim

section
variable {wen off t : Nat} {m : Master} {s : State} {f : State → State}

/-- A write that is enabled for its master acts (R106, R107, R290). -/
theorem gated_writes (h : Writes wen m s) : gated wen off m s f = f s := by
  obtain ⟨hproxy, hhost⟩ := h
  exact (if_neg hproxy).trans (if_neg fun hand => ne_false_of_eq_true (hhost hand.1) hand.2)

/-- The host's counted bytes do not bear on what is enabled. -/
theorem writes_written : Writes wen m (written m t s) ↔ Writes wen m s := by
  unfold Writes
  rw [written_get]

end

/-- Settles O19. -/
theorem senseActs : Obligations.SenseActs := by
  refine ⟨fun t c s h hown => ?_, fun t q o s h => ?_, fun t c s h hown => ?_, fun t q o b v s h hrecord hboundary => ?_, fun t c s h hown => ?_,
    fun t q gains offsets medians o s h hboundary => ?_, fun t m s h hwrites => ?_, fun t t0 s h hcommit hrun hboundary => ?_,
    fun t p m s h hgap => ?_⟩
  · exact command_ok (act := calSaveAct) h hown rfl
  · simp only [exec, execCalSaveDone]
    exact (completion_completes h).trans rfl
  · exact command_ok (act := calRestoreAct) h hown rfl
  · simp only [exec, execCalRestoreDone]
    rewrite [completion_completes h, hrecord]
    exact congrArg (completes t s) (if_pos hboundary)
  · exact command_ok (act := calRunAct) h hown rfl
  · simp only [exec, execCalRunDone]
    rewrite [completion_completes h]
    exact congrArg (completes t s) (if_neg (ne_false_of_eq_true hboundary))
  · simp only [exec, execSenseCommit]
    rewrite [liveWrite_becomes h, gated_writes (writes_written.mpr hwrites)]
    rfl
  · have hdue : ((atTime t s).boundaryFor t0 && !(atTime t s).flag R.snsStat_CALRUN) = true :=
      Bool.and_eq_true_iff.mpr ⟨hboundary, congrArg (! ·) hrun⟩
    change (atTime t s).commitAt = some t0 at hcommit
    simp only [exec, execSenseCommitApply]
    rewrite [live_becomes h, hcommit]
    exact congrArg (becomes t s) (if_pos hdue)
  · simp only [exec, execDelayMeasure]
    rewrite [live_becomes h]
    exact congrArg (becomes t s) (if_neg (ne_false_of_eq_true hgap))

end Sys2Proof.Machine
end

section
/-!
PROOFS. The commands of the service, counter and ridge groups (R273, R340 to R350, R365, R369, R377 to R390, R420 to R439).
-/
namespace Sys2Proof.Machine
open Sys2Proof.Claim

/-- A command is what it does in the state at its instant. -/
theorem command_congr {t : Nat} {c : Cmd} {s : State} {run run' : Cmd → State → State} (hrun : run c (atTime t s) = run' c (atTime t s)) :
    command t c s run = command t c s run' := by
  unfold command live
  simp only [hrun]

section
variable {c : Cmd} {s : State}

/-- Kind R records a raise, and nothing is armed (R427). -/
theorem errInjectAct_kindR (hkind : kindR c = true) :
    errInjectAct c s = { s := raise (cmdNat c 1) (cmdNat c 2 % 256) none 0 true s } := by
  unfold errInjectAct
  exact if_pos hkind

/-- Any other kind is armed (R427). -/
theorem errInjectAct_armed (hkind : kindR c = false) : errInjectAct c s = {
    s := (({ s with inject := some { id := cmdNat c 1, inst := cmdNat c 2 % 256, count := max 1 (bitsOf (cmdNat c 2) 8 8) } }.put
      R.errInjstat_ARMED 1).put R.errInjstat_INSTANCE (cmdNat c 2 % 256)).put R.errInjstat_ID (cmdNat c 1) } := by
  unfold errInjectAct
  exact if_neg (ne_true_of_eq_false hkind)

/-- `DMA_RUN` with its claim kept and a chain that the walk finds good starts channel 7 (R365). -/
theorem dmaRunAct_good {v w x : State} (hclaim : claimFor true 1 (claimOwner c.q) s = (true, v)) (hidle : v.dmaState 7 ≠ 1)
    (hx : x = ((v.put R.dmaCtrl_FENCE 1 7).put R.dmaFence_STAGE (stageMask c (v.put R.dmaCtrl_FENCE 1 7))).put R.dmaFence_FWD 0)
    (hwalk : walkChain 7 (x.get R.dmaMaxdesc_MAX 7) (cmdDword c 2) none none x = (.good, w)) :
    dmaRunAct c s = {
      s := openE 0x0B02 c [7, 0] (dmaBegin 7 ((w.put R.dmaDesclo_ADDR (lo32 (cmdDword c 2) / 32) 7).put R.dmaDeschi_ADDR (hi32 (cmdDword c 2)) 7)) } := by
  subst hx
  unfold dmaRunAct
  dsimp only
  rewrite [hclaim, if_neg (fun e => Bool.noConfusion e), if_neg hidle, hwalk]
  rfl

/-- A release clears what may be cleared and answers what remains (R388, R389). -/
theorem rdgSafeReleaseAct_eq : rdgSafeReleaseAct c s = {
    status := if (clearCauses (releasable s) s).get R.rdgCause_CAUSE = 0 then stOk else stConflict
    words := [(clearCauses (releasable s) s).get R.rdgCause_CAUSE]
    s := releaseSafe (clearCauses (releasable s) s) } := rfl

/-- A channel that is idle has nothing to stop. -/
theorem dmaStop_idle {n : Nat} (hidle : s.dmaState n = 0) : dmaStop n s = s := if_neg (by simp [hidle])

/-- A counter's selection, with its bank's claim kept (R431). -/
theorem pmcSelectAct_claimed {v : State} (hclaim : claimFor true (bankClaim (cmdNat c 1)) (claimOwner c.q) s = (true, v)) :
    pmcSelectAct c s = { s :=
      let u := setCounter (cmdNat c 1) 0 (((v.put R.pmcSel_EVENT (cmdNat c 2 % 65536) (cmdNat c 1)).put R.pmcSel_INST (cmdNat c 2 / 65536) (cmdNat c 1)).put
        R.pmcSel_PAIR (cmdNat c 3) (cmdNat c 1))
      let idle := (List.range 16).all fun i => decide (u.get R.pmcSel_EVENT (cmdNat c 1 / 16 * 16 + i) = 0)
      if idle = true then claimFree true (bankClaim (cmdNat c 1)) (u.owner true (bankClaim (cmdNat c 1))) u else u } := by
  unfold pmcSelectAct
  dsimp only
  rewrite [hclaim, if_neg (fun e => Bool.noConfusion e)]
  rfl

/-- Tracing of a channel is set, with the records' claim kept (R437). -/
theorem traceSetAct_claimed {v : State} (hclaim : claimFor true 2 (claimOwner c.q) s = (true, v)) :
    traceSetAct c s = { s :=
      let u := if v.owner false 5 = 0 then (claimFor false 5 2 v).2 else v
      { u with traceK := nset 0 u.traceK (cmdNat c 1) (cmdNat c 2), lfsr := nset 1 u.lfsr (cmdNat c 1) 1 } } := by
  unfold traceSetAct
  dsimp only
  rewrite [hclaim, if_neg (fun e => Bool.noConfusion e)]
  rfl

/-- Limits whose bytes were fetched whole are judged and, where R379 is met, applied (R380). -/
theorem rdgLimitsAct_fetched {bs : List Byte} {v : State} (hfetch : fetch 7 (cmdDword c 1) 784 s = (.bytes bs, v)) (hcrc : crc32c bs = c.w 4) :
    rdgLimitsAct c s = match limitFail bs v with
      | some st => { status := st, s := v }
      | none => { s := applyLimits bs v } := by
  unfold rdgLimitsAct
  dsimp only
  rewrite [hfetch]
  exact if_neg (not_not.mpr hcrc)

end

/-- Settles O20. -/
theorem serviceCommandsComplete : Obligations.ServiceCommandsComplete := by
  refine ⟨fun t c s h hown => ?_, fun t q o s h hplan hresult => ?_, fun t c s h hown => ?_, fun t c s h hown hkind => ?_,
    fun t c s h hown hkind => ?_, fun t c s h hlow hhigh hclass => ?_, fun t c s h hown => ?_, fun t q present errors o s h hdue => ?_,
    fun t c s v x w h hown hclaim hidle hx hwalk => ?_, fun t q o s h hidle hcause => ?_, fun t c s h hown => ?_, fun t c s h hown => ?_,
    fun t c s h hlow hhigh => ?_⟩
  · exact command_ok (act := bistRunAct) h hown rfl
  · simp only [exec, execBistRunDone]
    rewrite [completion_completes h]
    change (atTime t s).bistPlan = [] at hplan
    change (atTime t s).bistResult = [] at hresult
    refine congrArg (completes t s) ?_
    simp only [hplan, hresult, List.any_nil, List.filter_nil, Bool.false_eq_true, if_false]
  · exact command_ok (act := errReadAct) h hown rfl
  · exact command_ok h hown (errInjectAct_kindR hkind)
  · exact command_ok h hown (errInjectAct_armed hkind)
  · have hown : errRouteFail c (atTime t s) = none := firstFail_none.mpr (by simp [isDetector, hlow, hhigh, hclass])
    exact command_ok (act := errRouteAct) h hown rfl
  · exact command_ok (act := laneTestAct) h hown rfl
  · simp only [exec, execLaneTestDone]
    rewrite [completion_completes h]
    exact congrArg (completes t s) (if_neg (Nat.not_lt.mpr hdue))
  · exact command_ok h hown (dmaRunAct_good hclaim hidle hx hwalk)
  · simp only [exec, execDmaRunDone]
    rewrite [completion_completes h]
    change (atTime t s).dmaState 7 = 0 at hidle
    change (atTime t s).get R.dmaStat_CAUSE 7 = 0 at hcause
    refine congrArg (completes t s) ?_
    rewrite [dmaStop_idle hidle, if_neg (by simp [hidle])]
    simp only [hcause, ne_eq, not_true_eq_false, decide_false, Bool.false_eq_true, if_false]
  · exact command_ok (act := eccErasureAct) h hown rfl
  · exact command_ok (act := poisonListAct) h hown rfl
  · have hown : scrubPeriodFail c (atTime t s) = none := if_neg (by omega)
    exact command_ok (act := scrubPeriodAct) h hown rfl

/-- Settles O21. -/
theorem counterRowsAct : Obligations.CounterRowsAct := by
  refine ⟨fun t c s v h hown hclaim => ?_, fun t c s h => ?_, fun t m s h hwrites => ?_, fun t m s h hproxy hhost => ?_, fun t m n s h => ?_,
    fun t c s v h hch hk hconf hclaim => ?_, fun t c s h hown => ?_, fun t r s h => ?_⟩
  · exact command_ok h hown (pmcSelectAct_claimed hclaim)
  · exact command_ok (own := noFail) (act := pmcSnapshotAct) h rfl rfl
  · simp only [exec, execPmcSnap]
    rewrite [liveWrite_becomes h, gated_writes (writes_written.mpr hwrites)]
    rfl
  · simp only [exec, execPmcUsnap]
    rewrite [liveWrite_becomes h]
    refine congrArg (becomes t s) ((if_neg hproxy).trans (if_neg ?_))
    rintro ⟨hm, hflag⟩
    exact ne_true_of_eq_false ((written_flag ..).symm.trans hflag) (hhost hm)
  · simp only [exec, execPmcCntloRead]
    rewrite [liveRead_becomes h]
    rfl
  · have hown : traceSetFail c (atTime t s) = none :=
      if_neg (by rintro (hbad | hbad | hbad)
                 · omega
                 · omega
                 · exact ne_false_of_eq_true hconf hbad)
    exact command_ok h hown (traceSetAct_claimed hclaim)
  · exact command_ok (act := traceReadAct) h hown rfl
  · simp only [exec, execTraceAbandon]
    exact (live_becomes h).trans rfl

/-- Settles O22. -/
theorem ridgeCommandsComplete : Obligations.RidgeCommandsComplete := by
  refine ⟨fun t c s h => ?_, fun t c s h => ?_, fun t c s bs v h hown hfetch hcrc => ?_, fun t c s h => ?_, fun t c s h => ?_,
    fun t c s h hown => ?_, fun t c s h hmask hheld => ?_⟩
  · exact command_ok (own := noFail) (act := rdgIdentifyAct) h rfl rfl
  · exact command_ok (own := noFail) (act := rdgStatusAct) h rfl rfl
  · cases hfail : limitFail bs v with
    | some st => exact command_answers (x := { status := st, s := v }) h hown ((rdgLimitsAct_fetched hfetch hcrc).trans (by rw [hfail])) rfl
    | none => exact command_ok h hown ((rdgLimitsAct_fetched hfetch hcrc).trans (by rw [hfail]))
  · exact command_ok (own := noFail) (act := rdgSafeEnterAct) h rfl rfl
  · exact (command_answers (own := noFail) (act := rdgSafeReleaseAct) h rfl rdgSafeReleaseAct_eq rfl).trans rfl
  · exact command_ok (act := rdgPortClearAct) h hown rfl
  · have hown : rdgMaintFail c (atTime t s) = none := if_neg (Nat.not_lt.mpr hmask)
    have hrun : rdgMaintRun c (atTime t s) = runCommand rdgMaintRow rdgMaintFail rdgMaintAct c (atTime t s) := if_neg hheld
    exact (command_congr hrun).trans (command_ok h hown rfl)

end Sys2Proof.Machine
end

section
/-!
PROOFS. The accesses to a pannier: those of its sender and its receiver, and those that the rights table does not permit (R74 to R88).
-/
namespace Sys2Proof.Machine
open Sys2Proof.Claim

@[simp] theorem written_isReceiver (m : Master) (t : Nat) (s : State) (m' : Master) (n : Nat) :
    (written m t s).isReceiver m' n = s.isReceiver m' n := isReceiver_of_regs (written_regs m t s) m' n

section
variable {m : Master} {n : Nat} {s : State}

/-- A word written while the channel is FULL is not stored: WFULL shows it (R79). -/
theorem msgWrite_full (hsend : s.isSender m n = true) (hlive : s.sessionOver m = false) (hfull : s.flag R.pnrStatus_FULL n = true)
    (i : Nat) (v : Word) : msgWrite m n i v s = s.put R.pnrStatus_WFULL 1 n := by
  simp [msgWrite, hsend, hlive, hfull]

/-- A post that comes with the end of the sender's session is discarded (R89). -/
theorem goWrite_sessionOver (hsend : s.isSender m n = true) (hover : s.sessionOver m = true) (len : Nat) : goWrite m n len s = s := by
  simp [goWrite, hsend, hover]

/-! An access by a master that is not the channel's sender, or not its receiver, is a violation (R74). -/

theorem msgWrite_violates (hsend : s.isSender m n = false) (i : Nat) (v : Word) : msgWrite m n i v s = pnrViolation m n (4 * i) s := if_pos hsend

theorem goWrite_violates (hsend : s.isSender m n = false) (len : Nat) : goWrite m n len s = pnrViolation m n 0x40 s := if_pos hsend

theorem takeBy_violates (hrecv : s.isReceiver m n = false) : takeBy m n s = (pnrViolation m n 0x48 s).emit (.readData 0) := by
  simp [takeBy, takeRead, hrecv]

/-- An entry of the rights table that is not locked takes the control core's and the ridge's writes (R75). -/
theorem bindWrite_stores {v : Word} (hm : m = .control ∨ m = .ridge) (hrlock : s.flag R.pnrBind_RLOCK n = false)
    (hlock : s.flag R.pnrBindlock_LOCK = false) : bindWrite m n v s =
      let u := (s.put R.pnrBind_SEND (fieldOf v 0 3) n).put R.pnrBind_RECV (fieldOf v 4 3) n
      if m = .ridge ∧ fieldOf v 31 1 = 1 then u.put R.pnrBind_RLOCK 1 n else u := by
  have htable : (m = .control ∨ m = .ridge) ∧ s.flag R.pnrBindlock_LOCK = false := ⟨hm, hlock⟩
  unfold bindWrite
  rw [if_neg (ne_true_of_eq_false hrlock), if_pos htable]

/-- The enables that their own master writes are stored; the host's bells that become enabled interrupt it (R83). -/
theorem bellenWrite_own (v : Word) : bellenWrite m m v s =
    let u := s.setReg ⟨.pnrBellen, m.num, 0⟩ v
    let rings (b : Nat) : Bool := bitOf (s.reg ⟨.pnrBell, m.num, 0⟩).toNat b && bitOf v.toNat b && !bitOf (s.reg ⟨.pnrBellen, m.num, 0⟩).toNat b
    if m = .host then forEach ((List.range 32).filter rings) u sendMsix else u := by
  unfold bellenWrite
  exact if_neg (not_not.mpr rfl)

end

/-- Settles O23: each clause is the access's rule on what the access finds. -/
theorem pannierRowsAct : Obligations.PannierRowsAct := by
  refine ⟨fun t m n i v s h hsend hover hfull => ?_, fun t m n i v s h hsend hover hfull => ?_, fun t m n len s h hsend hover hfull => ?_,
    fun t m n len s h hsend hover => ?_, fun t m n len s h hsend => ?_, fun t m n s h hrecv hfull => ?_, fun t m n s h hrecv hfull => ?_,
    fun t m member n s h hfree => ?_, fun t m member n s h howned => ?_, fun t m n owner s h hown hnum => ?_, fun t m n e s h hrecv => ?_,
    fun t m n v s h hm hrlock hlock => ?_, fun t s h => ?_, fun t m v s h => ?_, fun t m v s h => ?_, fun t s h => ?_⟩
  · rw [exec_pnrMsgWrite h, msgWrite_stores (by rwa [written_isSender]) (by rwa [written_sessionOver]) (by rwa [written_flag])]
  · rw [exec_pnrMsgWrite h, msgWrite_full (by rwa [written_isSender]) (by rwa [written_sessionOver]) (by rwa [written_flag])]
  · rewrite [exec_pnrPost h, goWrite_posts (by rwa [written_isSender]) (by rwa [written_sessionOver]) (by rwa [written_flag])]
    rfl
  · rw [exec_pnrPost h, goWrite_sessionOver (by rwa [written_isSender]) (by rwa [written_sessionOver])]
  · rewrite [exec_pnrCtrlLenWrite h, ctrlWrite_stores (by rwa [written_isSender])]
    rfl
  · rewrite [exec_pnrTake h, takeBy_full (by rwa [asked_isReceiver]) (by rwa [asked_flag])]
    rfl
  · rw [exec_pnrTake h, takeBy_empty (by rwa [asked_isReceiver]) (by rwa [asked_flag])]
  · rewrite [exec_pnrLockRead h, lockRead_free m member n _ (by rwa [asked_get])]
    rfl
  · rw [exec_pnrLockRead h, lockRead_owned m member n _ (by rwa [asked_get]), asked_reg]
  · have hfrees : (written m t s).get R.pnrLock_OWNER n = m.num ∧ owner.toNat = m.num := ⟨by rwa [written_get], hnum⟩
    rewrite [exec_pnrLockRelease h, lockWrite, if_pos hfrees]
    rfl
  · simp only [exec, execPnrEpochWrite]
    rw [liveWrite_becomes h, if_pos (by rwa [written_isReceiver])]
  · simp only [exec, execPnrBindWrite]
    rw [liveWrite_becomes h, bindWrite_stores hm (by rwa [written_flag]) (by rwa [written_flag])]
  · simp only [exec, execPnrBindlockSet]
    rewrite [liveWrite_becomes h]
    rfl
  · simp only [exec, execPnrBellClear]
    exact (live_becomes h).trans (congrArg (becomes t s) (if_pos rfl))
  · simp only [exec, execPnrBellenWrite]
    rewrite [live_becomes h, bellenWrite_own]
    rfl
  · simp only [exec, execJtagTapReset]
    exact live_becomes h

/-- Settles O24. -/
theorem pannierViolationsAct : Obligations.PannierViolationsAct := by
  refine ⟨fun t m n i v s h hsend => ?_, fun t m n len s h hsend => ?_, fun t m n s h hrecv => ?_, fun t m n e s h hrecv => ?_⟩
  · rewrite [exec_pnrMsgWrite h, msgWrite_violates (by rwa [written_isSender])]
    rfl
  · rewrite [exec_pnrPost h, goWrite_violates (by rwa [written_isSender])]
    rfl
  · rewrite [exec_pnrTake h, takeBy_violates (by rwa [asked_isReceiver])]
    rfl
  · simp only [exec, execPnrEpochWrite]
    rewrite [liveWrite_becomes h, if_neg (ne_true_of_eq_false (by rwa [written_isReceiver]))]
    rfl

end Sys2Proof.Machine
end

section
/-!
PROOFS. Accesses by offset of BAR0, BAR2 and BAR4, and through the SRAM windows (R4 to R7, R39, R67, R72, R106, R277, R278, R282, R446).
-/
namespace Sys2Proof.Machine
open Sys2Proof.Claim

section
variable (m : Master) (t : Nat) (s : State)

@[simp] theorem written_usesBuffer : usesBuffer (written m t s) = usesBuffer s := by unfold written; split <;> rfl
@[simp] theorem written_debugSram : debugSram (written m t s) = debugSram s := by unfold written; split <;> rfl

end

section
variable {t : Nat} {m : Master} {s : State}

/-- The form of a host access, where it is aligned to its own length (R278). -/
theorem hostForm_iff {off len : Nat} : hostForm off len = true ↔ (len = 4 ∨ len = 8) ∧ off % len = 0 := decide_eq_true_iff

theorem exec_registerWrite_eq {a : RegAccess} {v : DWord} : exec (.registerWrite t m a v) s = execRegisterWrite t m a v s := rfl

theorem exec_registerReadClear_eq {a : RegAccess} : exec (.registerReadClear t m a) s = execRegisterReadClear t m a s := rfl

/-- A write at an offset of BAR0, in a form that its master may use. -/
theorem exec_registerWrite_bar0 {off len : Nat} {v : DWord} (h : Awake t s) (hform : m = .host → hostForm off len = true) :
    exec (.registerWrite t m ⟨.bar0, off, len⟩ v) s =
      becomes t s (serve (writeWide m off len v (if m = .host then (atTime t s).tally 0x0601 0 len else atTime t s))) := by
  rewrite [exec_registerWrite_eq, execRegisterWrite, live_becomes h]
  exact congrArg (becomes t s) (if_neg fun hbad => ne_true_of_eq_false hbad.2 (hform hbad.1))

/-- A read at an offset of BAR0, in a form that its master may use. -/
theorem exec_registerReadClear_bar0 {off len : Nat} (h : Awake t s) (hform : m = .host → hostForm off len = true) :
    exec (.registerReadClear t m ⟨.bar0, off, len⟩) s =
      becomes t s (readWide m off len (if m = .host then (atTime t s).tally 0x0602 0 len else atTime t s)) := by
  rewrite [exec_registerReadClear_eq, execRegisterReadClear, live_becomes h]
  exact congrArg (becomes t s) (if_neg fun hbad => ne_true_of_eq_false hbad.2 (hform hbad.1))

/-- A write of a width that no register has does nothing (R72). -/
theorem writeWide_other {off len : Nat} {v : DWord} (h4 : len ≠ 4) (h8 : len ≠ 8) : writeWide m off len v s = s :=
  (if_neg h4).trans (if_neg h8)

/-- An aligned read of 4 bytes is of the word at its offset. -/
theorem readWide_word {off : Nat} (hoff : off % 4 = 0) : readWide m off 4 s = readWord m off s := by
  rw [readWide, if_neg (by decide), Nat.div_mul_cancel (Nat.dvd_of_mod_eq_zero hoff)]

/-- A read of a word that is no channel's `TAKE`. -/
theorem readWord_register {off : Nat} (hoff : takeAt off = none) :
    readWord m off s = let r := readReg m off (settleRead off s); r.2.emit (.readData r.1) := by rw [readWord, hoff]

/-- A read of a channel's `TAKE`. -/
theorem readWord_take {off n : Nat} (hoff : takeAt off = some n) : readWord m off s = takeBy m n s := by rw [readWord, hoff]

/-- An access through the windows, at a word of theirs. -/
theorem exec_sramWindowWrite {off : Nat} {v : Word} (h : Awake t s) (hword : off % 4 = 0) (hlow : 0x300000 ≤ off) (hhigh : off < 0x400000) :
    exec (.sramWindowWrite t m off v) s = becomes t s (windowAccess m off v (written m t s)) := by
  simp only [exec, execSramWindowWrite]
  rw [liveWrite_becomes h, if_neg (by omega)]

/-- A window write of a master that has the write enable, where the tables are shown (R446). -/
theorem windowAccess_tables {off : Nat} {v : Word} (hbuffer : usesBuffer s = false) (hwrites : Writes 19 m s)
    (hdebug : m = .debug → debugSram s = true) : windowAccess m off v s = windowWrite m off v s := by
  unfold windowAccess
  rw [if_neg fun hno => ne_true_of_eq_false hno.2 (hdebug hno.1), if_neg fun huses => ne_true_of_eq_false hbuffer huses.1, gated_writes hwrites]

/-- A window write where the staging buffer is shown (R66). -/
theorem windowAccess_buffer {off : Nat} {v : Word} (hbuffer : usesBuffer s = true) (hproxy : m ≠ .proxy) (hoff : off < 0x310000)
    (hdebug : m = .debug → debugSram s = true) :
    windowAccess m off v s = { s with stage := Memory.writeN 0 s.stage (off - 0x300000) (wordBytes v) } := by
  have huses : usesBuffer s = true ∧ m ≠ .proxy := ⟨hbuffer, hproxy⟩
  unfold windowAccess windowWrite
  rw [if_neg fun hno => ne_true_of_eq_false hno.2 (hdebug hno.1), if_pos huses, if_pos hbuffer, if_pos hoff]

/-- In FIELD the debug port needs a token's scope for the windows (R67; log entry 75). -/
theorem debugSram_field (hlc : s.otp.lc = .field) (hwen : bitOf (s.get R.glbHostacc_WEN) 19 = false) : debugSram s = false := by
  simp [debugSram, hlc, hwen]

end

/-- Settles O25. -/
theorem registerRowsAct : Obligations.RegisterRowsAct := by
  refine ⟨fun t m reg1 v s h hwrites => ?_, fun t m off v s h halign => ?_, fun t m off v s h halign => ?_, fun t m off len v s h hm h4 h8 => ?_,
    fun t bar off len v s h hbad => ?_, fun t off v s h halign => ?_, fun t m off s h halign htake => ?_, fun t m off n s h halign htake => ?_,
    fun t m off s h halign => ?_, fun t bar off len s h hbad => ?_, fun t off s h halign => ?_,
    fun t m off v s h halign hlow hhigh hbuffer hwrites hdebug => ?_, fun t m off v s h halign hlow hhigh hbuffer hproxy hdebug => ?_,
    fun t off v s h hlc hwen => ?_, fun t addr len bs v s h hlink htrained hin hread => ?_, fun t addr bytes s h hlink htrained hin => ?_⟩
  · simp only [exec, execClaimWrite]
    rw [liveWrite_becomes h, gated_writes (writes_written.mpr hwrites)]
  · exact (exec_registerWrite_bar0 h fun hm => hostForm_iff.mpr ⟨.inl rfl, halign hm⟩).trans rfl
  · exact (exec_registerWrite_bar0 h fun hm => hostForm_iff.mpr ⟨.inr rfl, halign hm⟩).trans rfl
  · rewrite [exec_registerWrite_bar0 h fun hhost => absurd hhost hm, writeWide_other h4 h8, if_neg hm]
    rfl
  · rewrite [exec_registerWrite_eq, execRegisterWrite, live_becomes h]
    exact congrArg (becomes t s) (if_pos ⟨rfl, eq_false_of_ne_true fun hform => hbad (hostForm_iff.mp hform)⟩)
  · have hform : ¬(Master.host = .host ∧ hostForm off 4 = false) := fun hno => ne_true_of_eq_false hno.2 (hostForm_iff.mpr ⟨.inl rfl, halign⟩)
    rewrite [exec_registerWrite_eq, execRegisterWrite, live_becomes h]
    exact congrArg (becomes t s) ((if_neg hform).trans rfl)
  · rewrite [exec_registerReadClear_bar0 h fun _ => hostForm_iff.mpr ⟨.inl rfl, halign⟩, readWide_word halign, readWord_register htake]
    rfl
  · rewrite [exec_registerReadClear_bar0 h fun _ => hostForm_iff.mpr ⟨.inl rfl, halign⟩, readWide_word halign, readWord_take htake]
    rfl
  · exact (exec_registerReadClear_bar0 h fun _ => hostForm_iff.mpr ⟨.inr rfl, halign⟩).trans rfl
  · rewrite [exec_registerReadClear_eq, execRegisterReadClear, live_becomes h]
    exact congrArg (becomes t s) (if_pos ⟨rfl, eq_false_of_ne_true fun hform => hbad (hostForm_iff.mp hform)⟩)
  · have hform : ¬(Master.host = .host ∧ hostForm off 4 = false) := fun hno => ne_true_of_eq_false hno.2 (hostForm_iff.mpr ⟨.inl rfl, halign⟩)
    rewrite [exec_registerReadClear_eq, execRegisterReadClear, live_becomes h]
    exact congrArg (becomes t s) ((if_neg hform).trans rfl)
  · rw [exec_sramWindowWrite h halign hlow hhigh,
      windowAccess_tables (by rwa [written_usesBuffer]) (writes_written.mpr hwrites) (by rwa [written_debugSram])]
  · rewrite [exec_sramWindowWrite h halign hlow (by omega), windowAccess_buffer (by rwa [written_usesBuffer]) hproxy hhigh (by rwa [written_debugSram])]
    rfl
  · simp only [exec, execSramWindowWrite]
    rewrite [liveWrite_becomes h, windowAccess_debug (by rw [written_debugSram, debugSram_field hlc hwen]), ite_self]
    rfl
  · simp only [exec, execBar2Read]
    rewrite [liveReading_becomes h, if_neg (ne_false_of_eq_true hlink), if_neg ?_, hread]
    · rfl
    · rintro (hno | hno)
      · exact ne_false_of_eq_true htrained hno
      · exact ne_false_of_eq_true hin hno
  · simp only [exec, execBar2Write]
    rewrite [liveReading_becomes h, if_neg (ne_false_of_eq_true hlink), if_neg ?_]
    · rfl
    · rintro (hno | hno)
      · exact ne_false_of_eq_true htrained hno
      · exact ne_false_of_eq_true hin hno

end Sys2Proof.Machine
end

section
/-!
PROOFS. Rails, resets, clock monitors and the boot sequence (R36, R46, R49 to R57, R62 to R65, R312).
-/
namespace Sys2Proof.Machine
open Sys2Proof.Claim

/-! The ranges of R51 and R452: where a pulse acts, and where it does not. -/

theorem dipActs_long {mv durNs limit n : Nat} (hmv : mv < limit) (hlong : 2000 ≤ durNs) : dipActs mv durNs limit n = true := by
  simp [dipActs, hmv, hlong]

theorem dipActs_short {mv durNs limit n : Nat} (hshort : durNs < 500) : dipActs mv durNs limit n = false := by
  simp [dipActs, show ¬ 2000 ≤ durNs by omega, show ¬ 500 ≤ durNs by omega]

/-- A fault condition that holds is met, by an armed injection or by itself (R427). -/
theorem meets_true (id inst : Nat) (s : State) : (meets id inst true s).1 = true := by
  unfold meets
  split <;> simp

/-- A fault condition that does not hold, with no injection armed for it. -/
theorem meets_false {id inst : Nat} {s : State} (h : armedFor id inst s = false) : meets id inst false s = (false, false, s) := by
  simp [meets, h]

section
variable {t : Nat} {s : State}

/-- A clock fault with `SYSCLK` lost (R46). -/
theorem exec_sysclkLoss_awake {outNs : Nat} (hreset : s.boot.inReset = false) : exec (.sysclkLoss ⟨t, outNs⟩) s = becomes t s
    (let m := meets 1 0 (decide (1000 ≤ outNs)) (atTime t s)
     if m.1 = true then sysclkFault 1 outNs m.2.1 m.2.2 else m.2.2) := by
  simp only [exec, execSysclkLoss]
  rewrite [always_becomes]
  exact congrArg (becomes t s) (if_neg (ne_true_of_eq_false hreset))

/-- `SYSCLK` lost during a full reset (R46, R55). -/
theorem exec_sysclkLoss_reset {outNs : Nat} (hreset : s.boot.inReset = true) : exec (.sysclkLoss ⟨t, outNs⟩) s = becomes t s
    (if 1000 ≤ outNs then clockOut outNs (atTime t s) else atTime t s) := by
  simp only [exec, execSysclkLoss]
  rewrite [always_becomes]
  exact congrArg (becomes t s) (if_pos hreset)

/-- A measurement of `SYSCLK` (R46). -/
theorem exec_sysclkFreq_awake {khz outNs : Nat} (hreset : s.boot.inReset = false) : exec (.sysclkFreq t ⟨khz, outNs⟩) s = becomes t s
    (let m := meets 2 0 (offFrequency khz) (atTime t s)
     if m.1 = true then sysclkFault 2 outNs m.2.1 m.2.2 else m.2.2) := by
  simp only [exec, execSysclkFreq]
  rewrite [always_becomes]
  exact congrArg (becomes t s) (if_neg (ne_true_of_eq_false hreset))

/-- A measurement of `SYSCLK` during a full reset (R46, R55). -/
theorem exec_sysclkFreq_reset {khz outNs : Nat} (hreset : s.boot.inReset = true) : exec (.sysclkFreq t ⟨khz, outNs⟩) s = becomes t s
    (if offFrequency khz = true then clockOut outNs (atTime t s) else atTime t s) := by
  simp only [exec, execSysclkFreq]
  rewrite [always_becomes]
  exact congrArg (becomes t s) (if_pos hreset)

theorem offFrequency_iff {khz : Nat} : offFrequency khz = true ↔ khz < 22500 ∨ 27500 < khz := decide_eq_true_iff

/-- A measurement of the ridge oscillator (R46). -/
theorem exec_ridgeOsc {khz : Nat} (h : Awake t s) : exec (.ridgeOsc t khz) s = becomes t s
    (let m := meets 3 0 (decide (khz < 40000 ∨ 60000 < khz)) (atTime t s)
     if m.1 = true then
       let s := latchSafe 3 (raise 3 0 none 0 m.2.1 m.2.2)
       if s.dev = .held then s else setDev .fault 3 (interruptJob s)
     else m.2.2) := by
  simp only [exec, execRidgeOsc]
  exact live_becomes h

/-- The flash's answer at boot step 5 (R62 to R65). -/
theorem bootImageCheck_unretired {responds : Bool} (hdev : s.dev = .boot) (hphase : s.get R.glbBootstat_PHASE = 4) (hlc : s.otp.lc ≠ .retired) :
    bootImageCheck responds s = if responds = false then enterHeld 6 s else checkImages s := by
  unfold bootImageCheck
  rw [if_neg (by simp [hdev, hphase]), if_neg hlc]

end

section
variable {a b : Option Spd} {s : State}

/-- DRAM trained at boot step 10, with modules that make a plan (R312). -/
theorem bootComplete_trained {v g : Nat} {m : Bool × State} (hdev : s.dev = .boot) (hfw : s.fw.running = true) (hphase : s.get R.glbBootstat_PHASE = 8)
    (hmeets : meets 32 0 (decide (dramPlan a b s = none)) s = (false, m)) (hplan : dramPlan a b (noteCapacity (dramGeom a b) m.2) = some (g, v)) :
    bootComplete a b true s =
      serve (endKickstand (startReady (startScans (passLimits (openAccess (startDram g v (noteCapacity (dramGeom a b) m.2))))))) := by
  unfold bootComplete
  rewrite [if_neg (by simp [hdev, hfw, hphase])]
  simp only [Bool.not_true, Bool.or_false, hmeets, hplan]

/-- DRAM that does not train leads to FAULT (R312). -/
theorem bootComplete_untrained (hdev : s.dev = .boot) (hfw : s.fw.running = true) (hphase : s.get R.glbBootstat_PHASE = 8) :
    bootComplete a b false s = (let m := meets 32 0 true s
      serve (endKickstand (fatal 32 0 none 0 m.2.1 (startScans (openAccess (noteCapacity (dramGeom a b) m.2.2)))))) := by
  unfold bootComplete
  rewrite [if_neg (by simp [hdev, hfw, hphase])]
  simp only [Bool.not_false, Bool.or_true, meets_true]

end

/-- Settles O26. -/
theorem resetRowsAct : Obligations.ResetRowsAct := by
  refine ⟨fun t rails s hrails => ?_, fun t rail mv durNs s hmax hfall hlong => ?_, fun t rail mv durNs s hmax hshort => ?_,
    fun t durNs s hlong => ?_, fun t durNs s hshort => ?_, fun t hard t0 s h hpending hdue hanswered => ?_, fun t t0 s horderly hdue => ?_,
    fun t straps s hreset hpowered hdue => ?_, fun t straps t0 s hreset horderly hdue => ?_, fun t s h hdev hphase hlc => ?_,
    fun t s h hdev hphase hlc => ?_, fun t a b g v m s h hdev hfw hphase hmeets hplan => ?_, fun t a b s h hdev hfw hphase => ?_,
    fun t outNs s hreset hlost => ?_, fun t outNs s hreset hshort harmed => ?_, fun t outNs s hreset hlost => ?_,
    fun t khz outNs s hreset hoff => ?_, fun t khz outNs s hreset hlow hhigh harmed => ?_, fun t khz outNs s hreset hoff => ?_,
    fun t khz s h hoff => ?_, fun t khz s h hlow hhigh harmed => ?_⟩
  · simp only [exec, execPowerOn]
    rw [if_neg (ne_true_of_eq_false hrails), always_becomes]
  · simp only [exec, execBrownOut]
    have hfree : ¬(mv < railFall.getD rail 0 ∧ 500 ≤ durNs ∧ durNs < 2000) := fun hmid => Nat.not_le.mpr hmid.2.2 hlong
    rewrite [if_neg (Nat.not_lt.mpr hmax), always_becomes, if_neg hfree, dipActs_long hfall hlong]
    rfl
  · simp only [exec, execBrownOut]
    have hfree : ¬(mv < railFall.getD rail 0 ∧ 500 ≤ durNs ∧ durNs < 2000) := fun hmid => Nat.not_lt.mpr hmid.2.1 hshort
    rewrite [if_neg (Nat.not_lt.mpr hmax), always_becomes, if_neg hfree, dipActs_short hshort]
    rfl
  · simp only [exec, execResetNAssert]
    have hfree : ¬(100 ≤ durNs ∧ durNs < 1000) := fun hmid => Nat.not_le.mpr hmid.2 hlong
    rewrite [always_becomes, if_neg hfree, decide_eq_true hlong]
    rfl
  · simp only [exec, execResetNAssert]
    have hno : ¬100 ≤ durNs := Nat.not_le.mpr hshort
    have hlong : ¬1000 ≤ durNs := by omega
    have hfree : ¬(100 ≤ durNs ∧ durNs < 1000) := fun hmid => hno hmid.1
    rewrite [always_becomes, if_neg hfree, decide_eq_false hno, decide_eq_false hlong]
    rfl
  · simp only [exec, execResetBegin]
    change (atTime t s).fw.resetPending = _ at hpending
    change resetUnanswered (atTime t s) = _ at hanswered
    rewrite [live_becomes h, hpending]
    refine congrArg (becomes t s) ((if_pos ⟨hdue, hanswered⟩).trans ?_)
    rewrite [startSysReset, hpending]
    rfl
  · simp only [exec, execOrderlyTimeout]
    change (atTime t s).boot.orderly = _ at horderly
    rewrite [always_becomes, horderly]
    exact congrArg (becomes t s) (if_pos hdue)
  · simp only [exec, execInternalResetRelease]
    change (atTime t s).boot.inReset = _ at hreset
    rewrite [always_becomes, hreset]
    exact congrArg (becomes t s) (if_pos ⟨hpowered, hdue⟩)
  · simp only [exec, execInternalResetRelease]
    change (atTime t s).boot.inReset = _ at hreset
    change (atTime t s).boot.orderly = _ at horderly
    rewrite [always_becomes, hreset, horderly]
    exact congrArg (becomes t s) (if_pos hdue)
  · simp only [exec, execBootImageCheck]
    rewrite [live_becomes h, bootImageCheck_unretired (s := atTime t s) hdev hphase hlc]
    rfl
  · simp only [exec, execBootImageCheck]
    rewrite [live_becomes h, bootImageCheck_unretired (s := atTime t s) hdev hphase hlc]
    rfl
  · simp only [exec, execBootComplete]
    rw [live_becomes h, bootComplete_trained (s := atTime t s) hdev hfw hphase hmeets hplan]
  · simp only [exec, execBootComplete]
    rw [live_becomes h, bootComplete_untrained (s := atTime t s) hdev hfw hphase]
  · rewrite [exec_sysclkLoss_awake hreset, decide_eq_true hlost]
    exact congrArg (becomes t s) (if_pos (meets_true 1 0 _))
  · rewrite [exec_sysclkLoss_awake hreset, decide_eq_false (Nat.not_le.mpr hshort), meets_false (s := atTime t s) harmed]
    rfl
  · rewrite [exec_sysclkLoss_reset hreset, if_pos hlost]
    rfl
  · rewrite [exec_sysclkFreq_awake hreset, offFrequency_iff.mpr hoff]
    exact congrArg (becomes t s) (if_pos (meets_true 2 0 _))
  · rewrite [exec_sysclkFreq_awake hreset, eq_false_of_ne_true (mt offFrequency_iff.mp (by omega)), meets_false (s := atTime t s) harmed]
    rfl
  · rewrite [exec_sysclkFreq_reset hreset, if_pos (offFrequency_iff.mpr hoff)]
    rfl
  · rewrite [exec_ridgeOsc h, decide_eq_true hoff]
    exact congrArg (becomes t s) (if_pos (meets_true 3 0 _))
  · rewrite [exec_ridgeOsc h, decide_eq_false (by omega), meets_false (s := atTime t s) harmed]
    rfl

end Sys2Proof.Machine
end

section
/-!
PROOFS. The ridge's watchdog, the emergency stop, and the writes of the ridge's own registers (R34, R50, R256, R257, R377, R383 to R390).
-/
namespace Sys2Proof.Machine
open Sys2Proof.Claim

section
variable {t : Nat} {s : State}

/-- A kick of the control core outside the cycle of an expiry, with no injection armed for it, is judged by its key alone (R383, R390). -/
theorem kick_judged {key : Nat} (hcycle : ∀ u, s.rdg.expiredAt = some u → s.flag R.rdgHbstat_EXPIRED = true → u / 20000 ≠ s.now / 20000)
    (harmed : armedFor 54 0 s = false) :
    kick .control key s = if key = s.get R.rdgHbstat_NEXTKEY then kickAccepted s
      else raise 53 0 none ((s.bump R.rdgHbstat_BADKEYS).reg ⟨.rdgHbstat, 0, 0⟩).toNat false (s.bump R.rdgHbstat_BADKEYS) := by
  unfold kick
  cases hat : s.rdg.expiredAt with
  | none => simp [harmed]
  | some u =>
    have hother : s.flag R.rdgHbstat_EXPIRED = true → ¬ u / 20000 = s.now / 20000 := hcycle u hat
    exact if_neg (by simpa [harmed] using hother)

/-- A pulse of `ESTOP_N` that its filter passes (R34, R385). -/
theorem exec_estop_long {lowNs : Nat} (h : Awake t s) (hlong : 200 ≤ lowNs) : exec (.estop t lowNs) s = becomes t s
    (enterSafe 1 { atTime t s with estopUntil := max s.estopUntil ((atTime t s).now + 1000 * lowNs) }) := by
  simp only [exec, execEstop]
  have hfree : ¬(50 ≤ lowNs ∧ lowNs < 200) := fun hmid => Nat.not_le.mpr hmid.2 hlong
  rewrite [always_becomes, decide_eq_true hlong, if_neg hfree]
  exact congrArg (becomes t s) (if_pos ⟨rfl, h⟩)

/-- A pulse of `ESTOP_N` that its filter does not pass (R34). -/
theorem exec_estop_short {lowNs : Nat} (hshort : lowNs < 50) : exec (.estop t lowNs) s = becomes t s (atTime t s) := by
  simp only [exec, execEstop]
  have hno : ¬50 ≤ lowNs := Nat.not_le.mpr hshort
  have hlong : ¬200 ≤ lowNs := by omega
  have hfree : ¬(50 ≤ lowNs ∧ lowNs < 200) := fun hmid => hno hmid.1
  rewrite [always_becomes, if_neg hfree, decide_eq_false hno, decide_eq_false hlong]
  rfl

/-- A write of ENTER with a cause that is not reserved (R386). -/
theorem safeWrite_enter {cause : Nat} (hcause : 3 ≤ cause) :
    safeWrite .ridge cause true false false s = enterSafe cause (s.put R.rdgSafe_CAUSE cause) := by
  unfold safeWrite
  simp [hcause]

end

/-- Settles O27. -/
theorem ridgeRowsAct : Obligations.RidgeRowsAct := by
  refine ⟨fun t key s h hcycle harmed hkey => ?_, fun t key s h hcycle harmed hkey => ?_, fun t s h harmed hexpired hinj hdue => ?_,
    fun t t0 s h hexpired hdue => ?_, fun t lowNs s h hlong => exec_estop_long h hlong, fun t lowNs s hshort => exec_estop_short hshort,
    fun t cause s h hcause => ?_, fun t s h => ?_, fun t s h => ?_, fun t v s h => ?_, fun t v s h => ?_, fun t hpt v s h => ?_⟩
  · rewrite [exec_heartbeatKick h]
    exact congrArg (becomes t s) ((kick_judged (s := atTime t s) hcycle harmed).trans (if_pos hkey))
  · rewrite [exec_heartbeatKick h]
    exact congrArg (becomes t s) ((kick_judged (s := atTime t s) hcycle harmed).trans (if_neg hkey))
  · simp only [exec, execHeartbeatExpired]
    change armedFor 54 0 (atTime t s) = _ at hinj
    rewrite [live_becomes h, hinj]
    exact congrArg (becomes t s) (if_pos ⟨harmed, hexpired, hdue⟩)
  · simp only [exec, execHeartbeatResetRequest]
    change (atTime t s).rdg.expiredAt = _ at hexpired
    rewrite [live_becomes h, hexpired]
    exact congrArg (becomes t s) (if_pos hdue)
  · simp only [exec, execSafeEnter]
    rewrite [liveWrite_becomes h, safeWrite_enter hcause]
    rfl
  · simp only [exec, execSafeRelease]
    exact (liveWrite_becomes h).trans rfl
  · simp only [exec, execSafeResetreq]
    exact (liveWrite_becomes h).trans rfl
  · simp only [exec, execRdgCauseClear]
    exact (liveWrite_becomes h).trans rfl
  · simp only [exec, execRdgGrantWrite]
    exact (liveWrite_becomes h).trans rfl
  · simp only [exec, execWdfaultClear]
    exact (liveWrite_becomes h).trans rfl

end Sys2Proof.Machine
end

section
/-!
PROOFS. Lanes, PLLs and the PCI Express endpoint (R46, R264 to R275, R280, R282).
-/
namespace Sys2Proof.Machine
open Sys2Proof.Claim

/-- Settles O28. -/
theorem laneRowsAct : Obligations.LaneRowsAct := by
  refine ⟨fun t l heads s h hon hadapted hprbs hgains => ?_, fun t l heads s h hlock hloses => ?_, fun t l s h => ?_, fun t l s h hon => ?_,
    fun t l s h hon => ?_, fun t l s h hon hpll => ?_, fun t l s h hon hcdr => ?_, fun t inst s h hinst => ?_, fun t inst s h hinst => ?_,
    fun t rate s h => ?_, fun t m l v s h hwrites => ?_, fun t s h hlink => ?_, fun t kind s h hlink hkind => ?_, fun t s h hlink => ?_,
    fun t s h hlink => ?_⟩
  · simp only [exec, execLaneBlockLock]
    rewrite [live_becomes h]
    refine congrArg (becomes t s) (if_neg ?_)
    rintro (hno | hno | hno | hno)
    · exact ne_false_of_eq_true hon hno
    · exact ne_false_of_eq_true hadapted hno
    · exact ne_true_of_eq_false hprbs hno
    · exact ne_false_of_eq_true hgains hno
  · simp only [exec, execLaneBlockLoss]
    rewrite [live_becomes h, hloses]
    refine congrArg (becomes t s) (if_neg ?_)
    rintro (hno | hno)
    · exact ne_false_of_eq_true hlock hno
    · exact ne_false_of_eq_true (meets_true 25 l (atTime t s)) hno
  · simp only [exec, execCdrLockLoss]
    exact live_becomes h
  · simp only [exec, execLaneEnable]
    exact (live_becomes h).trans (congrArg (becomes t s) (if_neg (ne_false_of_eq_true hon)))
  · simp only [exec, execLaneEnable]
    exact (live_becomes h).trans (congrArg (becomes t s) (if_neg (ne_false_of_eq_true hon)))
  · simp only [exec, execLaneEnable]
    exact (live_becomes h).trans (congrArg (becomes t s) ((if_neg (ne_false_of_eq_true hon)).trans (if_pos hpll)))
  · simp only [exec, execLaneEnable]
    exact (live_becomes h).trans (congrArg (becomes t s) ((if_neg (ne_false_of_eq_true hon)).trans (if_pos hcdr)))
  · simp only [exec, execPllUnlock]
    exact (live_becomes h).trans (congrArg (becomes t s) (if_pos hinst))
  · simp only [exec, execPllUnlock]
    exact (live_becomes h).trans (congrArg (becomes t s) (if_neg (Nat.not_lt.mpr hinst)))
  · simp only [exec, execLanePllRelock]
    exact live_becomes h
  · simp only [exec, execLnsInj]
    rewrite [liveWrite_becomes h, gated_writes (writes_written.mpr hwrites)]
    rfl
  · simp only [exec, execPcieReset]
    exact (live_becomes h).trans (congrArg (becomes t s) (if_neg (ne_false_of_eq_true hlink)))
  · simp only [exec, execPcieReset]
    refine (live_becomes h).trans (congrArg (becomes t s) ((if_neg (ne_false_of_eq_true hlink)).trans ?_))
    cases kind with
    | flr => exact absurd rfl hkind
    | perst => rfl
    | linkDown => rfl
  · simp only [exec, execPcieError]
    exact (live_becomes h).trans (congrArg (becomes t s) ((if_neg (ne_false_of_eq_true hlink)).trans rfl))
  · simp only [exec, execPcieError]
    exact (live_becomes h).trans (congrArg (becomes t s) ((if_neg (ne_false_of_eq_true hlink)).trans rfl))

end Sys2Proof.Machine
end

section
/-!
PROOFS. The DRAM controller's rows: the choice among reads, drains, windows, refresh, re-measurement, alerts, the scrubber and the diagnosis
path (R313, R318 to R327, R345 to R348, R354).
-/
namespace Sys2Proof.Machine
open Sys2Proof.Claim

/-! The choice among reads (R318). -/

/-- The read that is chosen is of the lowest class of those that may be. -/
theorem nextRead_least {s : State} {d c : Nat} {e : ReadReq × Nat} (h : s.nextRead d = some (c, e)) : ∀ x ∈ s.choices d, c ≤ x.1 := by
  simp only [State.nextRead] at h
  split at h
  · cases h
  · next c0 cs hclasses =>
    have hbest : c = cs.foldl min c0 := of_decide_eq_true (List.mem_filter.mp (List.mem_of_find?_eq_some h)).2
    have hmin : ((s.choices d).map (·.1)).min? = some c := by rw [hclasses, List.min?_cons', hbest]
    intro x hx
    exact (List.min?_eq_some_iff.mp hmin).2 x.1 (List.mem_map_of_mem hx)

/-- A read that has waited more than 20 us is of class 2 at most. -/
theorem readClass_waited {r : ReadReq} {u now : Nat} (h : 20000000 < now - u) : readClass r u now ≤ 2 := by
  unfold readClass
  dsimp only
  rw [if_pos (by omega)]
  exact Nat.min_le_right _ _

/-- A read of DRAM that is not trained, or beyond its capacity, is a bus error (R313). -/
theorem exec_dramRead_refused {t : Nat} {d : Dimm} {r : ReadReq} {s : State} (h : Awake t s)
    (hout : s.trained = false ∨ s.inDram (burstOf r.addr) 64 = false) (hnext : (atTime t s).nextRead d = none) :
    exec (.dramRead t d [r]) s = becomes t s (reads [13, 14] ((atTime t s).emit (.burst r.req none))) := by
  have hserved : ((atTime t s).trained && (atTime t s).inDram (burstOf r.addr) 64) = false := Bool.and_eq_false_iff.mpr hout
  have hnext' : ((atTime t s).emit (.burst r.req none)).nextRead d = none := hnext
  have hrow : exec (.dramRead t d [r]) s = execDramRead t d [r] s := rfl
  rewrite [hrow, execDramRead, liveReading_becomes h]
  simp only [List.filter_cons, hserved, Bool.not_false, if_true, Bool.false_eq_true, if_false, List.filter_nil, forEach, List.foldl, hnext']

/-! Windows (R322, R324). -/

theorem endWindow_ends {d : Nat} {u : State}
    (h : mapGet 0 u.dram.windowAt d + (if u.flag (doubleField d) = true then 16000000000 else 32000000000) ≤ u.now) :
    endWindow d u = u.setDram { u.dram with
      trackers := u.dram.trackers.filter (fun e => decide (e.1 / 128 ≠ d)), windowAt := nset 0 u.dram.windowAt d u.now } :=
  if_neg (Nat.not_lt.mpr h)

theorem endLevels_ends {u : State} (h : u.dram.levelAt + u.levelWindow ≤ u.now) : endLevels u = (let v := forEach (List.range 8) u settleLevel
    v.setDram { v.dram with crossed := [], levelAt := v.now }) := if_neg (Nat.not_lt.mpr h)

/-- The doubled rate of the DIMM that a row names (R321). -/
theorem doubleField_dimm (d : Dimm) : doubleField d = if d = 0 then R.dmcRefstat_DOUBLE0 else R.dmcRefstat_DOUBLE1 := by
  unfold doubleField
  simp only [Fin.ext_iff, Fin.val_zero]

/-- A poll of MR4 that is due (R321). -/
theorem exec_mr4Poll {t : Nat} {d : Dimm} {twice : Bool} {s : State} (h : Awake t s) (htrained : s.trained = true)
    (hdue : ∀ u, s.dram.mr4At.lookup d.val = some u → u + 16000000000 ≤ (atTime t s).now) :
    exec (.mr4Poll t d twice) s = becomes t s (let u := settleDebt d (atTime t s)
      (u.setDram { u.dram with mr4At := (d.val, u.now) :: u.dram.mr4At.filter fun e => decide (e.1 ≠ d.val) }).put (doubleField d) (b2n twice)) := by
  simp only [exec, execMr4Poll]
  rewrite [live_becomes h]
  refine congrArg (becomes t s) (if_neg ?_)
  rintro (hno | hearly)
  · exact ne_false_of_eq_true htrained hno
  · split at hearly
    · next u hu => exact Nat.not_lt.mpr (hdue u hu) (of_decide_eq_true hearly)
    · exact Bool.noConfusion hearly

/-- Subchannel `k` is re-measured now: its new delay is a free value (R326). -/
def dqsMeasured (k : Nat) (s : State) : State :=
  s.drawn.setDram { s.dram with dqsAt := nset 0 s.dram.dqsAt k s.now, delay := nset 0 s.dram.delay k (Config.freeNat s.freeCount) }

/-- The requests of subchannel `k` are held for 400 ns from now (R326). -/
def dqsHeldFrom (k : Nat) (s : State) : State := s.setDram { s.dram with dqsHold := nset 0 s.dram.dqsHold k (s.now + 400000) }

/-- The count of forced measurements bears on neither the instant nor the holds. -/
theorem dqsHeldFrom_bump (k : Nat) (s : State) : dqsHeldFrom k (s.bump R.dmcTrainstat_FORCED) =
    (s.bump R.dmcTrainstat_FORCED).setDram { s.dram with dqsHold := nset 0 s.dram.dqsHold k (s.now + 400000) } := by
  simp only [dqsHeldFrom, bump_now, bump_dram]

/-- The new DQS timing of a subchannel that may be measured (R326). -/
theorem exec_dqsRemeasure {t : Nat} {d : Dimm} {sub gap moved : Bool} {s : State} (h : Awake t s) (htrained : s.trained = true)
    (hmay : (if gap then (atTime t s).dqsGap d sub
      else decide (mapGet 0 s.dram.dqsAt (2 * d.val + b2n sub) + 1000000000000 ≤ (atTime t s).now)) = true) :
    exec (.dqsRemeasure t d sub gap moved) s = becomes t s (let k := 2 * d.val + b2n sub
      let v := dqsMeasured k (atTime t s)
      let m := meets 35 d moved (if gap then v else dqsHeldFrom k (v.bump R.dmcTrainstat_FORCED))
      if m.1 then raise 35 d none 0 m.2.1 (m.2.2.bump R.dmcTrainstat_DRIFT) else m.2.2) := by
  simp only [exec, execDqsRemeasure, dqsHeldFrom_bump]
  rewrite [live_becomes h]
  refine congrArg (becomes t s) (if_neg ?_)
  rintro (hno | hno)
  · exact ne_false_of_eq_true htrained hno
  · exact ne_false_of_eq_true hmay hno

/-! The scrubber (R345). -/

/-- The search for a burst that is not poisoned depends on the poison table and the length of a pass alone. -/
theorem skipPoison_congr {s u : State} (hbursts : u.scrubBursts = s.scrubBursts) (hpoison : u.dram.poison = s.dram.poison) (fuel : Nat) :
    ∀ n, u.skipPoison fuel n = s.skipPoison fuel n := by
  induction fuel with
  | zero => exact fun _ => rfl
  | succ fuel ih =>
    intro n
    have hburst : u.poisonOf (64 * n) = s.poisonOf (64 * n) := by rw [State.poisonOf, State.poisonOf, hpoison]
    rw [State.skipPoison, State.skipPoison, hbursts, hburst, ih]

/-- The first read of all begins a pass (R345). -/
def passBegun (s : State) : State :=
  if s.dram.passEnd = 0 then s.setDram { s.dram with passEnd := s.now + scrubPs (s.get R.eccScrub_PERIOD) } else s

theorem passBegun_first {s : State} (hnone : s.dram.passEnd = 0) :
    passBegun s = s.setDram { s.dram with passEnd := s.now + scrubPs (s.get R.eccScrub_PERIOD) } := if_pos hnone

/-- The read of the next burst of a pass, once it is due (R345). -/
def scrubNext (s : State) : State :=
  let n := s.skipPoison 257 s.dram.scrub
  if s.now < s.scrubDue n then s
  else if s.scrubBursts ≤ n then endPass s
  else
    let s := scrubBurst (64 * n) s
    if s.scrubBursts ≤ n + 1 then endPass s else setScrub (n + 1) s

theorem exec_scrubRead {t : Nat} {s : State} (h : Awake t s) (htrained : s.trained = true) :
    exec (.scrubRead t) s = becomes t s (reads [13, 14] (scrubNext (passBegun (atTime t s)))) := by
  have hrow : exec (.scrubRead t) s = execScrubRead t s := rfl
  rewrite [hrow, execScrubRead, liveReading_becomes h]
  exact congrArg (fun u => becomes t s (reads [13, 14] u)) (if_neg (ne_false_of_eq_true htrained))

/-- A burst whose read is due is read, and the pass goes on behind it or ends. -/
theorem scrubNext_reads {s : State} {n : Nat} (hnext : s.skipPoison 257 s.dram.scrub = n) (hmore : n < s.scrubBursts) (hdue : s.scrubDue n ≤ s.now) :
    scrubNext s = let v := scrubBurst (64 * n) s; if v.scrubBursts ≤ n + 1 then endPass v else setScrub (n + 1) v := by
  unfold scrubNext
  dsimp only
  rw [hnext, if_neg (Nat.not_lt.mpr hdue), if_neg (Nat.not_le.mpr hmore)]

/-- The first read of the first pass is due at once. -/
theorem scrubDue_first {s : State} (hmore : 0 < s.scrubBursts) (hend : s.dram.passEnd = s.now + scrubPs (s.get R.eccScrub_PERIOD)) :
    s.scrubDue 0 = s.now := by
  rw [State.scrubDue, hend, Nat.sub_zero, Nat.mul_div_cancel _ hmore, Nat.add_sub_cancel]

/-- The first pass begins with the read of burst 0, where that is not poisoned. -/
theorem scrubNext_first {s : State} (hnone : s.dram.passEnd = 0) (hskip : s.skipPoison 257 s.dram.scrub = 0) (hmore : 0 < s.scrubBursts) :
    scrubNext (passBegun s) =
      let v := scrubBurst 0 (s.setDram { s.dram with passEnd := s.now + scrubPs (s.get R.eccScrub_PERIOD) })
      if v.scrubBursts ≤ 1 then endPass v else setScrub 1 v := by
  have hskip' (p fuel : Nat) : (s.setDram { s.dram with passEnd := p }).skipPoison fuel (s.setDram { s.dram with passEnd := p }).dram.scrub =
      s.skipPoison fuel s.dram.scrub := skipPoison_congr (s := s) (u := s.setDram { s.dram with passEnd := p }) rfl rfl fuel _
  have hend (p : Nat) : (s.setDram { s.dram with passEnd := p }).dram.passEnd = p := rfl
  have hget (p : Nat) : (s.setDram { s.dram with passEnd := p }).get R.eccScrub_PERIOD = s.get R.eccScrub_PERIOD := rfl
  have hnow (p : Nat) : (s.setDram { s.dram with passEnd := p }).now = s.now := rfl
  have hbursts (p : Nat) : (s.setDram { s.dram with passEnd := p }).scrubBursts = s.scrubBursts := rfl
  rw [passBegun_first hnone, scrubNext_reads (n := 0) ((hskip' _ 257).trans hskip) (by rwa [hbursts]) (le_of_eq (scrubDue_first (by rwa [hbursts]) ?_))]
  rw [hend, hget, hnow]

section
variable (t : Nat) (s : State)

theorem scrubBursts_atTime : (atTime t s).scrubBursts = s.scrubBursts := rfl

theorem scrubDue_atTime (n : Nat) : (atTime t s).scrubDue n = s.scrubDue n := rfl

theorem skipPoison_atTime (fuel : Nat) : (atTime t s).skipPoison fuel (atTime t s).dram.scrub = s.skipPoison fuel s.dram.scrub :=
  skipPoison_congr (s := s) (u := atTime t s) rfl rfl fuel _

end

/-! The diagnosis path (R354). -/

/-- An operation of the diagnosis path at an address in DRAM that is not the controller's own acts. -/
theorem diagOp_acts {m : Master} {t : Nat} {s : State} {f : Nat → State → State} (hwrites : Writes 9 m s) (hres : s.reservedAddr s.diagAddr = false)
    (hin : s.diagAddr < s.capacity) : diagOp m (written m t s) f = f s.diagAddr ((written m t s).put R.eccDiagctrl_ERR 0) := by
  have haddr : (written m t s).diagAddr = s.diagAddr := by simp only [State.diagAddr, written_get]
  have hres' : (written m t s).reservedAddr s.diagAddr = false := by rw [← hres]; unfold written; split <;> rfl
  have hcap : (written m t s).capacity = s.capacity := by unfold written; split <;> rfl
  unfold diagOp
  rw [gated_writes (writes_written.mpr hwrites)]
  dsimp only
  rw [haddr, if_neg]
  rw [hres', hcap]
  rintro (hno | hno)
  · exact Bool.noConfusion hno
  · exact Nat.not_le.mpr hin hno

/-- Settles O29. -/
theorem dramRowsAct : Obligations.DramRowsAct := by
  refine ⟨fun t d made c e s h htrained hmade hnext => ?_, fun t d made s h htrained hmade hnext => exec_dramRead_joins h htrained hmade hnext,
    fun t d r s h hout hnext => exec_dramRead_refused h hout hnext, fun s d c e hnext => ⟨nextRead_mem hnext, nextRead_least hnext⟩,
    fun r u now hwaited => readClass_waited hwaited, fun t req addr data s h hin => ?_, fun t req addr data s h hin => ?_,
    fun t d s h htrained hnone => ?_, fun t s h htrained => ?_, fun d u hend => endWindow_ends hend, fun u hend => endLevels_ends hend,
    fun t d twice s h htrained hdue => ?_, fun t d sub rank bank s h htrained hdebt hfree => ?_, fun t d sub rank bank s h htrained hdebt => ?_,
    fun t d sub moved s h htrained hfree hgap => ?_, fun t d sub moved s h htrained hdue => ?_, fun t d s h htrained => ?_,
    fun t s h htrained hbegun hmore hdue => ?_, fun t s h htrained hnone hskip hmore => ?_, fun t s h hbegun hend hlate => ?_,
    fun t m s h hwrites hres hin => ⟨?_, ?_, ?_⟩⟩
  · rw [exec_dramRead h htrained hmade hnext, answerRead, claimTurn_chosen hnext]
  · simp only [exec, execDramWrite]
    exact (live_becomes h).trans (congrArg (becomes t s) (if_pos hin))
  · simp only [exec, execNarrowWrite]
    exact (liveReading_becomes h).trans (congrArg (fun u => becomes t s (reads [12, 13, 14] u)) (if_pos hin))
  · simp only [exec, execWriteDrain]
    exact (liveReading_becomes h).trans (congrArg (fun u => becomes t s (reads [12] u)) (if_pos ⟨htrained, hnone⟩))
  · simp only [exec, execRowWindowEnd]
    exact (live_becomes h).trans (congrArg (becomes t s) (if_neg (ne_false_of_eq_true htrained)))
  · rewrite [exec_mr4Poll h htrained hdue, doubleField_dimm]
    rfl
  · have hfree' : ¬(settleDebt d (atTime t s)).targets d sub rank bank = true := ne_true_of_eq_false hfree
    simp only [exec, execDramRefresh]
    rewrite [live_becomes h]
    exact congrArg (becomes t s) ((if_neg (ne_false_of_eq_true htrained)).trans ((if_neg (Nat.not_le.mpr hdebt)).trans (if_neg hfree')))
  · simp only [exec, execDramRefresh]
    rewrite [live_becomes h]
    exact congrArg (becomes t s) ((if_neg (ne_false_of_eq_true htrained)).trans (if_pos hdebt))
  · have hmay : (atTime t s).dqsGap d sub = true := Bool.and_eq_true_iff.mpr ⟨congrArg (! ·) hfree, decide_eq_true hgap⟩
    exact (exec_dqsRemeasure (gap := true) h htrained hmay).trans rfl
  · rewrite [exec_dqsRemeasure (gap := false) h htrained ((if_neg Bool.false_ne_true).trans (decide_eq_true hdue))]
    simp only [dqsMeasured, dqsHeldFrom, Bool.false_eq_true, if_false]
  · simp only [exec, execDramAlert]
    exact (live_becomes h).trans (congrArg (becomes t s) (if_neg (ne_false_of_eq_true htrained)))
  · have hpass : passBegun (atTime t s) = atTime t s := if_neg hbegun
    rewrite [exec_scrubRead h htrained, hpass, scrubNext_reads (s := atTime t s) (skipPoison_atTime t s 257) (by rwa [scrubBursts_atTime]) (by rwa [scrubDue_atTime])]
    rfl
  · have hget : (atTime t s).get R.eccScrub_PERIOD = s.get R.eccScrub_PERIOD := rfl
    rw [exec_scrubRead h htrained, scrubNext_first (s := atTime t s) hnone ((skipPoison_atTime t s 257).trans hskip) (by rwa [scrubBursts_atTime]), hget]
  · simp only [exec, execScrubLate]
    rewrite [live_becomes h]
    refine congrArg (becomes t s) (if_neg ?_)
    rintro (hno | hno | hno)
    · exact hbegun hno
    · exact Nat.not_lt.mpr hend hno
    · exact ne_true_of_eq_false hlate hno
  · simp only [exec, execDiagRawWrite]
    rw [liveWrite_becomes h, diagOp_acts hwrites hres hin]
  · simp only [exec, execDiagRawRead]
    rw [liveWrite_becomes h, diagOp_acts hwrites hres hin]
  · simp only [exec, execDiagEncode]
    rw [liveWrite_becomes h, diagOp_acts hwrites hres hin]

end Sys2Proof.Machine
end

section
/-!
PROOFS. The DMA channels and the CRC units (R355 to R375).
-/
namespace Sys2Proof.Machine
open Sys2Proof.Claim

section
variable {t : Nat} {s : State}

/-- A running channel goes on with what it has in hand (R360). -/
theorem exec_dmaDescriptor {n : DmaCh} (h : Awake t s) (hruns : s.dmaState n = 1) : exec (.dmaDescriptor t n) s = becomes t s (reads [15]
    (match (s.dmaCh n).cur with
      | some d => if (s.dmaCh n).writeBack then chainEnd n d (atTime t s) else dmaMove n d (atTime t s)
      | none => dmaTake n (atTime t s))) := by
  simp only [exec, execDmaDescriptor]
  exact (liveReading_becomes h).trans (congrArg (fun u => becomes t s (reads [15] u)) ((if_neg (not_not.mpr hruns)).trans rfl))

/-- A timeout is due for a channel that runs, `DMA_TIMEOUT.MS` after its access began (R366). -/
theorem dmaTimeout_due {n : DmaCh} (hruns : s.dmaState n = 1) (hdue : (s.dmaCh n).since + s.get R.dmaTimeout_MS * 1000000000 ≤ (atTime t s).now) :
    ¬((atTime t s).dmaState n ≠ 1 ∨ (atTime t s).now < ((atTime t s).dmaCh n).since + (atTime t s).get R.dmaTimeout_MS * 1000000000) := by
  rintro (hno | hearly)
  · exact hno hruns
  · exact Nat.not_lt.mpr hdue hearly

/-- A CRC unit takes the writes of the masters that may write it (R375). -/
theorem crcWrites_acts {m : Master} {u off : Nat} {f : State → State} (hwrites : WritesCrc m u s) :
    crcWrites m u off (written m t s) f = f (written m t s) := by
  have howner : (written m t s).owner true 0 = s.owner true 0 := by simp only [State.owner, written_reg]
  obtain ⟨henable, hunit⟩ := hwrites
  unfold crcWrites
  rw [gated_writes (writes_written.mpr henable)]
  dsimp only
  rw [howner]
  rcases hunit with ⟨hu, hm⟩ | ⟨rfl, hm⟩
  · rw [if_pos hu, if_pos hm]
  · rcases hm with ⟨rfl, hy | hy | hy⟩ | ⟨rfl, hy⟩ | ⟨rfl, hy⟩ | ⟨rfl, hy⟩ <;> simp [hy]

theorem written_crcVal (m : Master) (u : Nat) : (written m t s).crcVal u = s.crcVal u := by simp only [State.crcVal, written_get]

end

/-- Settles O30. -/
theorem engineRowsAct : Obligations.EngineRowsAct := by
  refine ⟨fun t m n v s h => ?_, fun t m n v s h => ?_, fun t m n v s h => ?_, fun t n d s h hruns hcur hback => ?_,
    fun t n d s h hruns hcur hback => ?_, fun t n s h hruns hcur => ?_, fun t n s h hruns hcur hdue => ?_,
    fun t n d s h hruns hcur hnear hdue => ?_, fun t m u v s h hwrites => ?_, fun t m u v s h hwrites => ?_, fun t u s h hbusy => ?_,
    fun t m u k v s h hwrites => ?_, fun t m u hi v s h hwrites => ?_⟩
  · simp only [exec, execDmaStart]
    exact liveWrite_becomes h
  · simp only [exec, execDmaAbort]
    exact liveWrite_becomes h
  · simp only [exec, execDmaResume]
    exact liveWrite_becomes h
  · simp only [exec_dmaDescriptor h hruns, hcur, hback, Bool.false_eq_true, if_false]
  · simp only [exec_dmaDescriptor h hruns, hcur, hback, if_true]
  · simp only [exec_dmaDescriptor h hruns, hcur]
  · change ((atTime t s).dmaCh n).cur = _ at hcur
    simp only [exec, execDmaAccessTimeout]
    rewrite [live_becomes h, if_neg (dmaTimeout_due hruns hdue), hcur]
    rfl
  · change ((atTime t s).dmaCh n).cur = _ at hcur
    simp only [exec, execDmaAccessTimeout]
    rewrite [live_becomes h, if_neg (dmaTimeout_due hruns hdue), hcur]
    dsimp only
    rewrite [if_neg hnear]
    rfl
  · simp only [exec, execCrcInit]
    rewrite [liveWrite_becomes h, crcCfgWrite, crcWrites_acts hwrites]
    rfl
  · simp only [exec, execCrcGo]
    rewrite [liveWrite_becomes h, crcCfgWrite, crcWrites_acts hwrites]
    rfl
  · simp only [exec, execCrcScanDone]
    exact (live_becomes h).trans (congrArg (becomes t s) (if_neg (ne_false_of_eq_true hbusy)))
  · simp only [exec, execCrcDataFeed]
    rewrite [liveWrite_becomes h, crcData, crcWrites_acts hwrites, written_flag, written_flag]
    rfl
  · simp only [exec, execCrcValWrite]
    rewrite [liveWrite_becomes h, crcValWrite, crcWrites_acts hwrites, written_crcVal]
    rfl

end Sys2Proof.Machine
end

section
/-!
PROOFS. Decoding, the compressor, block faults, conversions and BIST slices (R110, R158 to R175, R405, R418 to R423).
-/
namespace Sys2Proof.Machine
open Sys2Proof.Claim

section
variable {t : Nat} {s : State}

/-! Decoding (R158 to R167). -/

/-- With no segment due, a spoke has no line to decode. -/
theorem exec_lineDecodeStart_none {ch : Chan} {b : Band} (h : Awake t s) (hdue : ((atTime t s).bandSegs ch b).filter
      (fun g => (atTime t s).decodeDue (4 * ch.val + b.val / 4) ((atTime t s).seg ch g).y && !((atTime t s).seg ch g).stops) = []) :
    exec (.lineDecodeStart t ch b) s = becomes t s (reads [1, 2, 3, 4, 5, 6, 7] (atTime t s)) := by
  have hrow : exec (.lineDecodeStart t ch b) s = execLineDecodeStart t ch b s := rfl
  rewrite [hrow, execLineDecodeStart, liveReading_becomes h]
  dsimp only
  rw [hdue, if_pos rfl]

/-- With one segment due, a spoke decodes the next line of that one. -/
theorem exec_lineDecodeStart_one {ch : Chan} {b : Band} {g : Nat} (h : Awake t s) (hdue : ((atTime t s).bandSegs ch b).filter
      (fun g => (atTime t s).decodeDue (4 * ch.val + b.val / 4) ((atTime t s).seg ch g).y && !((atTime t s).seg ch g).stops) = [g]) :
    exec (.lineDecodeStart t ch b) s = becomes t s (reads [1, 2, 3, 4, 5, 6, 7]
      (let u := atTime t s; let y := (u.seg ch g).y; let p := 4 * ch.val + b.val / 4
       let x := decodeSegLine ch g (traceImage p y 0 u)
       let v := if (x.1.seg ch g).y = y + 1 then traceImage p y 1 (x.1.tally 0x0101 ch (x.1.seg ch g).width) else x.1
       let w := (lowRunway ch g (u.seg ch g).runway v).tally 0x0102 ch (44 + 6 + x.2)
       released ch (w.put R.chDecmax_MAXCYC (max (w.get R.chDecmax_MAXCYC ch) (min 0xFFFF (44 + 6 + x.2))) ch))) := by
  have hrow : exec (.lineDecodeStart t ch b) s = execLineDecodeStart t ch b s := rfl
  rewrite [hrow, execLineDecodeStart, liveReading_becomes h]
  dsimp only
  rewrite [hdue, if_neg (List.cons_ne_nil g [])]
  rfl

/-- The end of a block without a fault releases its lines. -/
theorem exec_blockVerify {ch : Chan} {g : Seg} {e : BlockEnd} {rest : List BlockEnd} (h : Awake t s) (hends : (s.seg ch g).ends = e :: rest) :
    exec (.blockVerify t ch g) s = becomes t s (reads [1, 2, 3, 7] (let u := atTime t s
      let m := meets 8 ch (decide (e.name ≠ 0 ∨ e.codesCrc ≠ e.carried)) (u.setSeg ch g { u.seg ch g with ends := rest })
      released ch (if m.1 then blockFault ch g e m.2.1 m.2.2 else m.2.2))) := by
  change ((atTime t s).seg ch g).ends = _ at hends
  simp only [exec, execBlockVerify]
  rewrite [liveReading_becomes h, hends]
  rfl

/-- The burst that a block fetch asks for (R160). -/
def toFetch (sg : SegSt) : Option (Nat × Nat) := sg.upcoming.find? fun k => !((sg.fetched.map (·.1)).contains k || sg.fetchErr.contains k)

theorem isFetched_iff {sg : SegSt} {k : Nat × Nat} : ((sg.fetched.map (·.1)).contains k || sg.fetchErr.contains k) = true ↔
    k ∈ sg.fetched.map (·.1) ∨ k ∈ sg.fetchErr := by
  rw [Bool.or_eq_true, List.contains_iff_mem, List.contains_iff_mem]

theorem toFetch_none {sg : SegSt} (hall : ∀ k ∈ sg.upcoming, k ∈ sg.fetched.map (·.1) ∨ k ∈ sg.fetchErr) : toFetch sg = none :=
  List.find?_eq_none.mpr fun k hk => by rw [isFetched_iff.mpr (hall k hk)]; decide

theorem toFetch_first {sg : SegSt} {k : Nat × Nat} {before after : List (Nat × Nat)} (hupcoming : sg.upcoming = before ++ k :: after)
    (hbefore : ∀ j ∈ before, j ∈ sg.fetched.map (·.1) ∨ j ∈ sg.fetchErr) (hfetched : k ∉ sg.fetched.map (·.1)) (herr : k ∉ sg.fetchErr) :
    toFetch sg = some k := by
  have hk : ((sg.fetched.map (·.1)).contains k || sg.fetchErr.contains k) = false :=
    eq_false_of_ne_true fun hin => (isFetched_iff.mp hin).elim hfetched herr
  refine List.find?_eq_some_iff_append.mpr ⟨by rw [hk]; rfl, before, after, hupcoming, fun j hj => ?_⟩
  rw [isFetched_iff.mpr (hbefore j hj)]
  rfl

theorem exec_blockFetch {ch : Chan} {g : Seg} (h : Awake t s) : exec (.blockFetch t ch g) s = becomes t s (reads [6]
    (match toFetch (s.seg ch g) with | some k => fetchBurst ch g k (atTime t s) | none => atTime t s)) := by
  simp only [exec, execBlockFetch]
  exact (liveReading_becomes h).trans rfl

/-- A record that the re-decoder has done is taken out of the queue (R169). -/
theorem popFault_done {ch : Nat} {v : Word} {r : FaultRec} {rest : List FaultRec} (hqueue : mapGet [] s.faults ch = r :: rest)
    (hpop : fieldOf v 0 1 = 1) (hdone : r.done = true) : popFault ch v s = { s with faults := nset [] s.faults ch rest } := by
  have hboth : fieldOf v 0 1 = 1 ∧ r.done = true := ⟨hpop, hdone⟩
  unfold popFault
  rewrite [hqueue]
  exact if_pos hboth

/-! Conversions (R405). -/

/-- The conversion of a slot, at its time in the scan frame and not made before. -/
theorem exec_senseConversion {slot : Fin 64} {code : BitVec 14} (h : Awake t s) (hslot : (atTime t s).now / 500000 % 64 = slot.val)
    (hnew : s.convSlot ≤ (atTime t s).now / 500000) : exec (.senseConversion t slot code) s = becomes t s (let u := atTime t s
      let v := { u with convSlot := u.now / 500000 + 1 }
      if slot.val < 48 then convertInput slot code.toNat v
      else convertReference (slot.val - 48 + 16 * (u.now / 32000000 % 2)) (decide (u.now / 32000000 / 2 % 2 = 0)) code.toNat v) := by
  simp only [exec, execSenseConversion]
  refine (live_becomes h).trans (congrArg (becomes t s) (if_neg ?_))
  rintro (hother | hold)
  · exact hother hslot
  · exact Nat.not_lt.mpr hnew hold

/-! Slices of BIST (R418 to R421). -/

/-- A slice that may start, for `BIST_RUN` or for the schedule (R418, R419). -/
theorem exec_bistSliceStart {g : BistGroup} {inst : Nat} (h : Awake t s) (hboot : s.dev ≠ .boot) (hheld : s.dev ≠ .held) (hlc : s.otp.lc ≠ .retired)
    (hwanted : s.bistPlan.contains (g.val, inst) = true ∨
      s.flag R.bstCtrl_EN = true ∧ s.bistDone.contains (g.val, inst) = false ∧ s.bistAt ≤ (atTime t s).now)
    (hinst : inst < instancesOf g) (hspare : s.spareBusy g = false) (hslice : (s.sliceOf g).isSome = false)
    (hmax : s.slices.length < s.get R.bstCtrl_MAXSLICE) :
    exec (.bistSliceStart t g inst) s = becomes t s (let u := atTime t s
      let asked := s.bistPlan.contains (g.val, inst)
      let v := if asked then u else { u with bistAt := u.now + u.sliceSpacing }
      sramRead g inst (setSlice g (some { g := g, inst := inst, step := 1, since := v.now, asked := asked }) v)) := by
  simp only [exec, execBistSliceStart]
  refine (live_becomes h).trans (congrArg (becomes t s) (if_neg ?_))
  rintro (hno | hno | hno | hno | hno | hno | hno | hno)
  · exact hboot hno
  · exact hheld hno
  · exact hlc hno
  · obtain ⟨hplan, hsched⟩ := Bool.or_eq_false_iff.mp hno
    rcases hwanted with hasked | ⟨hen, hdone, hat⟩
    · exact ne_true_of_eq_false hplan hasked
    · have hdue : (s.flag R.bstCtrl_EN && !s.bistDone.contains (g.val, inst) && decide (s.bistAt ≤ (atTime t s).now)) = true := by
        rw [hen, hdone, decide_eq_true hat]
        rfl
      exact ne_true_of_eq_false hsched hdue
  · exact Nat.not_le.mpr hinst hno
  · exact ne_true_of_eq_false hspare hno
  · exact ne_true_of_eq_false hslice hno
  · exact Nat.not_le.mpr hmax hno

/-- The schedule's spacing: its period over the 288 instances of the groups (R419). -/
theorem sliceSpacing_eq (u : State) : u.sliceSpacing = u.get R.bstCtrl_PERIOD * 3600000000000000 / 288 := by
  have hsum : groupInstances.sum = 288 := by decide
  rw [State.sliceSpacing, hsum]

/-- At a line boundary a slice swaps its SRAM with the spare (R419). -/
theorem exec_bistSliceSwap {g : BistGroup} {x : Slice} (h : Awake t s) (hslice : s.sliceOf g = some x)
    (hboundary : s.cad.prevStart = some (atTime t s).now ∨ x.since + 100000000 ≤ (atTime t s).now) :
    exec (.bistSliceSwap t g) s = becomes t s (
      if x.step = 1 then setSlice g (some { x with step := 3, since := (atTime t s).now }) (atTime t s)
      else if x.step = 5 then sliceEnds x (setSlice g none (atTime t s))
      else atTime t s) := by
  have hnow : (atTime t s).boundaryFor x.since = true := decide_eq_true hboundary
  change (atTime t s).sliceOf g = _ at hslice
  simp only [exec, execBistSliceSwap]
  rewrite [live_becomes h, hslice]
  exact congrArg (becomes t s) (if_neg (ne_false_of_eq_true hnow))

/-- The march of a slice ends, with no injection armed for it (R419, R421). -/
theorem exec_bistMarchDone {g : BistGroup} {x : Slice} {fail : Option (Word × Fin 72)} (h : Awake t s) (hslice : s.sliceOf g = some x)
    (hstep : x.step = 3) (harmed : armedFor 64 g s = false) :
    exec (.bistMarchDone t g fail) s = becomes t s (match fail with
      | none => setSlice g (some { x with step := 5, since := (atTime t s).now }) (atTime t s)
      | some (a, b) => retire g x.inst a b.val (sliceFails x a.toNat b.val false (atTime t s))) := by
  change (atTime t s).sliceOf g = _ at hslice
  simp only [exec, execBistMarchDone]
  rewrite [live_becomes h, hslice]
  refine congrArg (becomes t s) ((if_neg (not_not.mpr hstep)).trans ((if_neg (ne_true_of_eq_false harmed)).trans ?_))
  cases fail <;> rfl

end

/-- Settles O31. -/
theorem streamAndSliceRowsAct : Obligations.StreamAndSliceRowsAct := by
  refine ⟨fun t ch b s h hdue => exec_lineDecodeStart_none h hdue, fun t ch b g s h hdue => exec_lineDecodeStart_one h hdue,
    fun t ch g s h hall => ?_, fun t ch g k before after s h hupcoming hbefore hfetched herr => ?_,
    fun t ch g e rest s h hends hname hcrc harmed => ?_, fun t ch g e rest s h hends hfault => ?_, fun t p g y inj s h hlate hseen => ?_,
    fun t p r s h hpending => ?_, fun t m ch v r rest s h hwrites hqueue hpop hdone => ?_, fun t s h => ?_,
    fun t slot code s h hlow hslot hnew => ?_, fun t slot code s h hhigh hslot hnew => ?_,
    fun t g inst s h hboot hheld hlc hplan hinst hspare hslice hmax => ?_,
    fun t g inst s h hboot hheld hlc hplan hen hdone hat hinst hspare hslice hmax => ?_,
    fun t g x s h hslice hstep hboundary => ?_, fun t g x s h hslice hstep hboundary => ?_,
    fun t g x s h hslice hstep harmed => exec_bistMarchDone h hslice hstep harmed,
    fun t g x a b s h hslice hstep harmed => exec_bistMarchDone h hslice hstep harmed, fun t m i s h hwrites => ?_⟩
  · rewrite [exec_blockFetch h, toFetch_none hall]
    rfl
  · rewrite [exec_blockFetch h, toFetch_first hupcoming hbefore hfetched herr]
    rfl
  · have hsound : ¬(e.name ≠ 0 ∨ e.codesCrc ≠ e.carried) := fun hbad => hbad.elim (· hname) (· hcrc)
    rewrite [exec_blockVerify h hends, decide_eq_false hsound]
    dsimp only
    rewrite [meets_false (s := (atTime t s).setSeg ch g { (atTime t s).seg ch g with ends := rest }) harmed]
    rfl
  · rewrite [exec_blockVerify h hends, decide_eq_true hfault]
    exact congrArg (fun u => becomes t s (reads [1, 2, 3, 7] (released ch u))) (if_pos (meets_true 8 ch _))
  · change ((atTime t s).seg (p.val / 4) g).late.lookup (p.val, y) = _ at hlate
    simp only [exec, execDecodeLate]
    rewrite [live_becomes h, hlate]
    exact congrArg (becomes t s) (if_neg (ne_true_of_eq_false hseen))
  · change (mapGet [] (atTime t s).faults (p.val / 4)).find? _ = _ at hpending
    simp only [exec, execRedecodeDone]
    rewrite [liveReading_becomes h, hpending]
    rfl
  · have hfaults : (written m t s).faults = s.faults := by unfold written; split <;> rfl
    simp only [exec, execBfpop]
    rw [liveWrite_becomes h, gated_writes (writes_written.mpr hwrites), popFault_done (by rwa [hfaults]) hpop hdone, hfaults]
  · simp only [exec, execCompressorBlock]
    exact liveReading_becomes h
  · exact (exec_senseConversion h hslot hnew).trans (congrArg (becomes t s) (if_pos hlow))
  · exact (exec_senseConversion h hslot hnew).trans (congrArg (becomes t s) (if_neg (Nat.not_lt.mpr hhigh)))
  · rewrite [exec_bistSliceStart h hboot hheld hlc (.inl hplan) hinst hspare hslice hmax, hplan]
    rfl
  · rewrite [exec_bistSliceStart h hboot hheld hlc (.inr ⟨hen, hdone, hat⟩) hinst hspare hslice hmax, hplan]
    simp only [Bool.false_eq_true, if_false, sliceSpacing_eq]
    rfl
  · exact (exec_bistSliceSwap h hslice hboundary).trans (congrArg (becomes t s) (if_pos hstep))
  · have hother : x.step ≠ 1 := by omega
    exact (exec_bistSliceSwap h hslice hboundary).trans (congrArg (becomes t s) ((if_neg hother).trans (if_pos hstep)))
  · simp only [exec, execErrCfgClr]
    rw [liveWrite_becomes h, gated_writes (writes_written.mpr hwrites)]

end Sys2Proof.Machine
end

section
/-!
PROOFS. Registers of one master take no write of another (R75, R377, R386, R388).
-/
namespace Sys2Proof.Machine
open Sys2Proof.Claim

section
variable {m : Master} {s : State}

/-! What a write of a register of the ridge does for another master: nothing. -/

theorem safeWrite_other (hm : m ≠ .ridge) (cause : Nat) (enter release reset : Bool) : safeWrite m cause enter release reset s = s := if_pos hm

theorem causeClear_other (hm : m ≠ .ridge) (v : Nat) : causeClear m v s = s := if_neg hm

theorem grantWrite_other (hm : m ≠ .ridge) (v : Nat) : grantWrite m v s = s := if_neg hm

theorem faultsCleared_other (hm : m ≠ .ridge) (h : Nat) (v : Word) : faultsCleared m h v s = s := if_pos hm

/-- An entry of the rights table takes no write of a master other than the control core and the ridge (R75). -/
theorem bindWrite_other (hcontrol : m ≠ .control) (hridge : m ≠ .ridge) (n : Nat) (v : Word) : bindWrite m n v s = s := by
  simp [bindWrite, hcontrol, hridge]

end

/-- Settles O49. -/
theorem onlyOwnersWrite : Obligations.OnlyOwnersWrite := by
  intro t m s h
  refine ⟨fun hm => ⟨fun cause => ?_, ?_, ?_, fun v => ?_, fun v => ?_, fun hpt v => ?_⟩, fun hm => ?_, fun hcontrol hridge n v => ?_,
    fun owner v hm => ⟨?_, ?_⟩⟩
  · simp only [exec, execSafeEnter]
    rw [liveWrite_becomes h, safeWrite_other hm]
  · simp only [exec, execSafeRelease]
    rw [liveWrite_becomes h, if_neg hm]
  · simp only [exec, execSafeResetreq]
    rw [liveWrite_becomes h, if_neg hm]
  · simp only [exec, execRdgCauseClear]
    rw [liveWrite_becomes h, causeClear_other hm]
  · simp only [exec, execRdgGrantWrite]
    rw [liveWrite_becomes h, grantWrite_other hm]
  · simp only [exec, execWdfaultClear]
    rw [liveWrite_becomes h, faultsCleared_other hm]
  · simp only [exec, execPnrBindlockSet]
    rw [liveWrite_becomes h, if_neg hm]
  · simp only [exec, execPnrBindWrite]
    rw [liveWrite_becomes h, bindWrite_other hcontrol hridge]
  · simp only [exec, execPnrBellClear]
    exact (live_becomes h).trans (congrArg (becomes t s) (if_neg hm))
  · simp only [exec, execPnrBellenWrite]
    exact (live_becomes h).trans (congrArg (becomes t s) (if_pos hm))

end Sys2Proof.Machine
end
